-- ==== Sys2Proof/Word.lean ====
section
/-! DEFINITION. The word types of the TVR-8512 model and the type of its sparse tables. -/

namespace Sys2Proof

/-- One byte of a frame, a record or memory. -/
abbrev Byte := BitVec 8

/-- Raw time in raw units of 2^-16 ns (R201): the free-running 64-bit counter. -/
abbrev Raw := BitVec 64

/-- Raw time with the turns of the 64-bit counter counted: what a timer of the model is measured by. -/
abbrev Stamp := Nat

/-- A general register of an awl (R104). -/
abbrev Word := BitVec 64

/-- A sparse table: keys strictly rising, a key that is not listed holds the table's default. -/
abbrev Tbl (α : Type) := List (Nat × α)

end Sys2Proof
end

