-- ==== Sys2Proof/Syntax.lean ====
section
/-! DEFINITION. The syntax of the block's commands: one constructor of Instr per row of spec/opcode_table.json. -/

namespace Sys2Proof

/-- The operand fields of an awl instruction word (R109); the opcode is the constructor's. -/
structure AwlOp where
  d : BitVec 5
  a : BitVec 5
  b : BitVec 5
  i : Bool
  x : BitVec 8
  imm : BitVec 32
  deriving DecidableEq, Repr

/-- What a read meets in one codeword of the buffer (R51, R53, R54): its cell, its number from 0 to 3 in the cell, how many of
its 72 bytes are in error, and, for the scrubber, whether the data path wrote the cell during the pass. -/
structure CellFinding where
  cell : Nat
  word : Nat
  errors : Nat
  written : Bool
  deriving DecidableEq, Repr

/-- How a cycle frame ended at a receive MAC, but for its length (R36, R43). -/
inductive RxEnd where
  | good | codeError | badFcs
  deriving DecidableEq, Repr

/-- The kinds of mPacket of IEEE 802.3 Clause 99 (R45), as the decoded SMD gives them. -/
inductive MKind where
  | verify | respond
  /-- The first fragment of a frame with its frame number. -/
  | start (frame : Nat)
  /-- A continuation with its frame number and fragment count. -/
  | cont (frame fragment : Nat)
  /-- An SMD that is none of these. -/
  | unknown
  deriving DecidableEq, Repr

/-- An mPacket at the preemptable MAC (R45): its kind, its payload, whether it is the final fragment of its frame, whether
its mCRC (or, in a final fragment, nothing) checks, and whether it has the Clause 99 minimum length. -/
structure MPacket where
  kind : MKind
  data : List Byte
  final : Bool
  mcrcOk : Bool
  longEnough : Bool
  /-- Capture instant of its first symbol and the pipeline delay of the position (R221), used by a first fragment. -/
  capture : Raw
  pipe : Int
  deriving DecidableEq, Repr

/-- When a frame's message point passes a position, and the pipeline delay of the position (R221). -/
structure OnWire where
  instant : Raw
  pipe : Int
  deriving DecidableEq, Repr

/-- A time message as a port island takes it (R220, R225): its capture instant and the pipeline delay of the position, and for each
message the time engine takes until the next one comes, the launch of its answer. -/
structure TimeArrival where
  capture : Raw
  pipe : Int
  taken : List OnWire
  deriving DecidableEq, Repr

/-- An offset sample as it reaches a domain's servo (R213, R218): θ and D in ru as the time engine measured them, before
delayAsymmetry is taken off (R226), and whether on the alternate path; or the oldest sample a Henay ring or a time pin has offered. -/
inductive ServoInput where
  | path (theta delay : Int) (alt : Bool)
  | offered
  deriving DecidableEq, Repr

/-- Which access of a channel fails on its bus (R349 to R351): data of the unit whose first descriptor has index `first`; the
index-block or descriptor read; the flushing read of the unit at the head; its write-back. -/
inductive BusFault where
  | data (first : Nat)
  | fetch | flush | writeBack
  deriving DecidableEq, Repr

/-- What an NV unit is written for (R423, R437): a firmware slot, an image slot, or the next leaf index. -/
inductive NvWriter where
  | firmware | image | leaf
  deriving DecidableEq, Repr

/-- The commands of the block: one constructor per row of the spec's table of steps. Each constructor's comment is the row's
rule and what the row's operands stand for. -/
inductive Instr where
  /-- TIME_BEACON (R15): Every 1,024 ns of raw time the meridian sends each island a beacon carrying raw time and rate; an island that was time-lost leaves time-lost on receipt. -/
  | timeBeacon (j : Nat)
  /-- CORRECTION_SWITCH (R16): At the effective raw time four beacons ahead, every island switches a domain to its new offset or rate correction. -/
  | correctionSwitch (d : Nat)
  /-- TIME_LOST (R17): An island that has received no beacon for 4,096 ns enters time-lost, counts the entry and logs an event. -/
  | timeLost (i : Nat)
  /-- APPLY_NOW (R21): A write of a group mask to APPLY_NOW requests an immediate strobe for each masked group. -/
  | applyNow (mask : Nat)
  /-- STROBE_ARRIVAL (R18): An apply strobe reaches an island of its group, and every pending write of that island takes effect in one local clock. -/
  | strobeArrival (i : Nat) (g : Nat)
  /-- APPLY_ARM (R23): A write of 1 to APPLY_ARM has the meridian convert the target to raw time and arm, refuse or immediately apply the group. -/
  | applyArm (g : Nat)
  /-- APPLY_CANCEL (R26): A write of 0 to an armed APPLY_ARM cancels the scheduled strobe, leaves pending writes pending and sets the status to IDLE. -/
  | applyCancel (g : Nat)
  /-- APPLY_TARGET_RECEIPT (R22): A scheduled raw target reaches an island, which holds it and applies at once if the target has already passed. -/
  | applyTargetReceipt (i : Nat) (g : Nat)
  /-- SCHEDULED_APPLY (R22): An island's held raw target falls due, and the island applies its pending writes in its first local clock at or after the target. -/
  | scheduledApply (i : Nat) (g : Nat)
  /-- APPLY_FIRE_MESSAGE (R25): A time-lost island applies when the meridian's fire message for a scheduled target reaches it, and the status reads APPLIED_LATE. -/
  | applyFireMessage (i : Nat) (g : Nat)
  /-- APPLY_COMPLETE (R22): Once a strobe has been applied everywhere, the meridian clears APPLY_ARM, sets APPLY_STATUS, records APPLY_LAST and counts the strobe. -/
  | applyComplete (g : Nat)
  /-- ISLAND_RESET (R28): A guarded write of an island number starts an island reset, which discards that island's pending writes and keeps its active values. -/
  | islandReset (value : Nat) (complement : Nat)
  /-- ISLAND_RESET_DONE (R31): A reset island reaches RUN, and each gate takes the entry of its oper schedule at the present sync time. -/
  | islandResetDone (i : Nat)
  /-- RX_FRAME_START (R37): A frame begins at the receive PMA; it is timestamped, and it is counted in RX_DURING_RESET if its port island or the device is in reset. -/
  | rxFrameStart (p : Nat) (capture : Raw) (pipe : Int)
  /-- FIRST_CELL (R57): At a frame's first cell, the buffer island makes the intake reservation and either creates the handle or discards the frame as RX_NO_INTAKE. -/
  | firstCell (p : Nat) (pre : Bool) (data : List Byte) (ended : Bool) (cells : List Nat)
  /-- OVERSIZE_TRUNCATION (R39): When byte max + 1 arrives, the MAC stops storing the frame, counts RX_OVERSIZE and stomps any cut-through copy. -/
  | oversizeTruncation (p : Nat) (pre : Bool) (rest : List Byte)
  /-- PCS_CODE_ERROR (R36): A PCS error block or an uncorrectable FEC codeword inside a frame fails the frame, which is counted in RX_CODE_ERROR and stomped if cut through. -/
  | pcsCodeError (p : Nat) (pre : Bool) (rest : List Byte) (fec : Bool)
  /-- FRAME_END (R36): At the end of a frame, the MAC runs the runt, FCS and reassembly checks and then marks the last cell. -/
  | frameEnd (p : Nat) (pre : Bool) (rest : List Byte) (corrected : Nat)
  /-- MPACKET_RECEIVE (R45): The preemptable MAC takes an mPacket, checks SMD, fragment count and mCRC, and reassembles the frame or ends it as a reassembly error. -/
  | mpacketReceive (p : Nat) (m : MPacket)
  /-- PMAC_VERIFY_SEND (R46): Every PMAC_VERIFY_TIME, up to three attempts, a port with pre-emption enabled sends a verify mPacket until a respond mPacket arrives. -/
  | pmacVerifySend (p : Nat)
  /-- BUFFER_SCRUB (R54): Once per BUFFER_SCRUB_PERIOD, the scrubber reads every cell and writes back corrected codewords. -/
  | bufferScrub (findings : List CellFinding)
  /-- HOST_INTAKE_GRANT (R57): A waiting host frame's intake reservation is granted once the account limit and the pool's free cells allow it, and fetching starts. -/
  | hostIntakeGrant (c : Nat) (cells : List Nat)
  /-- ENQUEUE_RETRY (R59): A waiting enqueue is retried when the queue's occupancy or the shared pool's free cells change, and is admitted once room exists. -/
  | enqueueRetry (k : Nat)
  /-- HOLD_LIMIT_EXPIRY (R63): A down port's hold limit expires, and every frame in its shared queues is released, counted and logged. -/
  | holdLimitExpiry (p : Nat)
  /-- DISPATCH (R70): The head handle of a sector's dispatch list moves to the rig queue once its window is complete, the queue has room and its domain is open. -/
  | dispatch (k : Nat) (rest : List Byte)
  /-- AWL_TAKE_HANDLE (R71): An idle awl takes the handle at the head of its rig queue, with registers cleared, and starts at the image's entry address. -/
  | awlTakeHandle (w : Nat)
  /-- LOAD_MAP_REPORT (R77): Every 64 ns of raw time, each rig reports its queue depth on the load map. -/
  | loadMapReport
  /-- STEAL_REQUEST (R77): A dry rig sends steal requests to its upper neighbour, its lower neighbour and the deepest rig, in turn, and retries every 64 ns. -/
  | stealRequest (thief : Nat)
  /-- NOP (R110): The awl executes nop, which does nothing. -/
  | nop (w : Nat) (o : AwlOp)
  /-- ADD (R110): The awl adds A and the second operand into D. -/
  | add (w : Nat) (o : AwlOp)
  /-- SUB (R110): The awl subtracts the second operand from A into D. -/
  | sub (w : Nat) (o : AwlOp)
  /-- AND (R110): The awl takes the bitwise AND of A and the second operand into D. -/
  | and (w : Nat) (o : AwlOp)
  /-- OR (R110): The awl takes the bitwise OR of A and the second operand into D. -/
  | or (w : Nat) (o : AwlOp)
  /-- XOR (R110): The awl takes the bitwise XOR of A and the second operand into D. -/
  | xor (w : Nat) (o : AwlOp)
  /-- SHL (R110): The awl shifts A left by the second operand's bits [5:0] into D. -/
  | shl (w : Nat) (o : AwlOp)
  /-- SHR (R110): The awl shifts A logically right by the second operand's bits [5:0] into D. -/
  | shr (w : Nat) (o : AwlOp)
  /-- SAR (R110): The awl shifts A arithmetically right by the second operand's bits [5:0] into D. -/
  | sar (w : Nat) (o : AwlOp)
  /-- MUL (R110): The awl writes the low 64 bits of A times the second operand into D. -/
  | mul (w : Nat) (o : AwlOp)
  /-- MOVI (R110): The awl loads the sign-extended immediate into D. -/
  | movi (w : Nat) (o : AwlOp)
  /-- MOVH (R110): The awl loads the immediate into D[63:32] and keeps D[31:0]. -/
  | movh (w : Nat) (o : AwlOp)
  /-- CMP (R110): The awl compares A with the second operand under the condition in X and sets D and F. -/
  | cmp (w : Nat) (o : AwlOp)
  /-- CKA (R110): The awl forms the 16-bit ones'-complement sum of A and the second operand into D. -/
  | cka (w : Nat) (o : AwlOp)
  /-- HSH (R110): The awl computes a CRC-32C over window bytes into D. -/
  | hsh (w : Nat) (o : AwlOp)
  /-- HEX (R110): The awl extracts a bit field of the header window into D. -/
  | hex (w : Nat) (o : AwlOp)
  /-- HIN (R110): The awl writes the low bits of g[B] into a header window field. -/
  | hin (w : Nat) (o : AwlOp)
  /-- MLD (R110): The awl loads metadata bytes into D. -/
  | mld (w : Nat) (o : AwlOp)
  /-- MST (R110): The awl stores bytes of g[B] into the program area of metadata. -/
  | mst (w : Nat) (o : AwlOp)
  /-- HINS (R110): The awl inserts zero bytes into the header window at an offset. -/
  | hins (w : Nat) (o : AwlOp)
  /-- HDEL (R110): The awl deletes bytes from the header window at an offset. -/
  | hdel (w : Nat) (o : AwlOp)
  /-- SLD (R110): The awl loads naturally aligned rig scratch bytes into D. -/
  | sld (w : Nat) (o : AwlOp)
  /-- SST (R110): The awl stores bytes of g[B] into rig scratch. -/
  | sst (w : Nat) (o : AwlOp)
  /-- SADD (R110): The awl atomically adds g[B] to a 64-bit scratch word and returns the old value. -/
  | sadd (w : Nat) (o : AwlOp)
  /-- XLK (R110): The awl looks up a key in an exact-match table and sets D and F from the committed entry. -/
  | xlk (w : Nat) (o : AwlOp)
  /-- TLK (R110): The awl looks up a 320-bit key in a ternary partition and returns the action data of the lowest matching entry. -/
  | tlk (w : Nat) (o : AwlOp)
  /-- CRD (R110): The awl reads the committed value of a counter into D. -/
  | crd (w : Nat) (o : AwlOp)
  /-- XWR_INSERT (R110): The awl adds an effect that inserts or updates a key of an exact table at commit. -/
  | xwrInsert (w : Nat) (o : AwlOp)
  /-- XWR_DELETE (R110): The awl adds an effect that deletes a key of an exact table at commit. -/
  | xwrDelete (w : Nat) (o : AwlOp)
  /-- CNT_ADD (R110): The awl adds an effect that adds g[B] to a counter at commit. -/
  | cntAdd (w : Nat) (o : AwlOp)
  /-- CNT_FRAME (R110): The awl adds an effect that adds 1 and the frame length to a counter pair at commit. -/
  | cntFrame (w : Nat) (o : AwlOp)
  /-- MTR (R119): The awl adds a meter operation, charged at commit or resolved at retire according to its mode. -/
  | mtr (w : Nat) (o : AwlOp)
  /-- FWD (R110): The awl adds a copy to a queue, optionally stripping the outer VLAN tag. -/
  | fwd (w : Nat) (o : AwlOp)
  /-- REP (R117): The awl adds a copy for each valid entry of a copy list in the given class. -/
  | rep (w : Nat) (o : AwlOp)
  /-- MIR (R110): The awl adds a copy of the frame as received to a queue. -/
  | mir (w : Nat) (o : AwlOp)
  /-- DROP (R110): The awl removes every copy added so far and their replication entries. -/
  | drop (w : Nat) (o : AwlOp)
  /-- SPL (R177): The awl adds two copies that carry an R-TAG, and inserts the tag or overwrites it in place. -/
  | spl (w : Nat) (o : AwlOp)
  /-- RCV (R178): The awl reads the R-TAG sequence number into a recovery effect and optionally deletes the tag. -/
  | rcv (w : Nat) (o : AwlOp)
  /-- PCD (R124): The awl requests a postcard of its record to a target. -/
  | pcd (w : Nat) (o : AwlOp)
  /-- SVI (R125): The awl inserts 64 window bytes that egress fills with the copy's survey record. -/
  | svi (w : Nat) (o : AwlOp)
  /-- TSR (R110): The awl reads raw time or a domain's sync time into D. -/
  | tsr (w : Nat) (o : AwlOp)
  /-- BR (R110): The awl jumps unconditionally. -/
  | br (w : Nat) (o : AwlOp)
  /-- BZ (R110): The awl jumps if g[A] is 0. -/
  | bz (w : Nat) (o : AwlOp)
  /-- BNZ (R110): The awl jumps if g[A] is not 0. -/
  | bnz (w : Nat) (o : AwlOp)
  /-- BF (R110): The awl jumps if F is 1. -/
  | bf (w : Nat) (o : AwlOp)
  /-- BNF (R110): The awl jumps if F is 0. -/
  | bnf (w : Nat) (o : AwlOp)
  /-- CALL (R110): The awl saves the return address in D and jumps. -/
  | call (w : Nat) (o : AwlOp)
  /-- JR (R110): The awl jumps to the address in g[A]. -/
  | jr (w : Nat) (o : AwlOp)
  /-- YLD (R82): The awl ends the packet and sends its forwarding decision and effect list to the keeper of the ingress sector. -/
  | yld (w : Nat) (o : AwlOp)
  /-- RETIRE (R86): A keeper retires the next packet of a domain once its result has arrived, its predecessor has retired and its copies can be enqueued, taking a retire number. -/
  | retire (k : Nat)
  /-- COMMIT (R89): At the later of retirement and acceptance, the effect list goes to the owning islands, each applying it atomically with duplicate suppression. -/
  | commit (k : Nat)
  /-- POSTCARD_FLUSH (R124): POSTCARD_FLUSH after its first record, a partly filled postcard frame is offered to its queue. -/
  | postcardFlush (k : Nat)
  /-- AWL_WATCHDOG_EXPIRY (R94): An awl's cycle count reaches the watchdog limit plus 1, and the packet's result is discarded, the awl restarted and the handle re-dispatched or poisoned. -/
  | awlWatchdogExpiry (w : Nat)
  /-- AWL_PARITY_ERROR (R93): A register-file parity error fences the awl, discards its result and re-dispatches the handle. -/
  | awlParityError (w : Nat)
  /-- PROGRAM_STORE_ERROR (R96): An uncorrectable error in a rig's program store fences the rig. -/
  | programStoreError (r : Nat)
  /-- XM_AGE_SWEEP (R114): At each multiple of XM_AGE_TIME, entries not marked since the last sweep are removed and marks are cleared. -/
  | xmAgeSweep (t : Nat)
  /-- XM_INSERT (R506): A dictionary record of XM_ENTRY with byte 24 at 0 inserts or updates a key. -/
  | xmInsert (t : Nat) (record : List Byte)
  /-- XM_DELETE (R506): A dictionary record of XM_ENTRY with byte 24 at 1 deletes a key. -/
  | xmDelete (t : Nat) (record : List Byte)
  /-- PROGRAM_LOAD (R128): A write of 1 copies the staged image and starts its check and its copy into every rig's pending bank. -/
  | programLoad
  /-- PROGRAM_DEFAULT (R128): A write of 1 loads the default bridge into the pending bank, as for a load. -/
  | programDefault
  /-- PROGRAM_CHECK_DONE (R128): The image check and copy end, and the status reads LOADED or REJECTED with cause and offset. -/
  | programCheckDone
  /-- TX_SELECT (R136): At a transmit opportunity, the port island starts the head copy of the highest eligible class, applying the gate, guard-band and shaper tests. -/
  | txSelect (p : Nat) (launch : Raw) (pipe : Int) (bad : List CellFinding)
  /-- COPY_TX_END (R60): A copy finishes on the wire with a correct or complemented FCS, and cells that no copy reads are freed. -/
  | copyTxEnd (p : Nat) (pre : Bool)
  /-- GATE_ENTRY_CHANGE (R141): A gate list entry or cycle boundary falls due, and the port's gate and hold states change. -/
  | gateEntryChange (p : Nat)
  /-- GATE_CHANGE_TIME (R142): The change time falls due, the pending schedule becomes oper, and the change is counted. -/
  | gateChangeTime (p : Nat)
  /-- PMAC_HOLD_ASSERT (R150): PMAC_HOLD_ADVANCE before a Set-And-Hold-MAC entry, hold is asserted and preemptable frames stop or are preempted. -/
  | pmacHoldAssert (p : Nat)
  /-- STREAM_GATE_ENTRY_CHANGE (R157): A stream gate list entry or change time falls due, and the gate's oper state changes. -/
  | streamGateEntryChange (g : Nat)
  /-- STREAM_GATE_REOPEN (R158): A write of 1 clears both latches of a stream gate. -/
  | streamGateReopen (g : Nat)
  /-- QUEUE_SAMPLE (R162): At each multiple of QUEUE_SAMPLE_PERIOD, every queue is sampled, and at a window's end its statistics record is replaced. -/
  | queueSample
  /-- QUEUE_SAMPLE_CONFIG_WRITE (R164): A write to a sampling parameter ends the present window in that clock and reduces it. -/
  | queueSampleConfigWrite (which : Nat) (value : Nat)
  /-- GATE_WAKE (R165): At a wake-class gate opening minus the wake time and margin, the port begins waking its sleeping transmit direction. -/
  | gateWake (p : Nat)
  /-- RECOVERY_TIMER_EXPIRY (R185): A recovery function's reset timer expires, setting take_any, clearing history and counting a reset. -/
  | recoveryTimerExpiry (f : Nat)
  /-- RECOVERY_RESET (R185): A write of a function number resets that recovery function. -/
  | recoveryReset (f : Nat)
  /-- RECOVERY_FUNC_WRITE (R189): A write of a recovery function record is checked and, when it validates or changes the algorithm, resets the function. -/
  | recoveryFuncWrite (f : Nat) (record : List Byte)
  /-- SEQ_GEN_WRITE (R180): A write of the next number of a generation function is the sequence generation reset. -/
  | seqGenWrite (f : Nat) (record : List Byte)
  /-- LATENT_TEST (R188): At each latent test period, a function whose D exceeds the threshold counts and logs a latent error. -/
  | latentTest (f : Nat)
  /-- LATENT_RESET (R188): At each latent reset period, D is set to 0 and a latent reset is counted. -/
  | latentReset (f : Nat)
  /-- GUARANTEE_CLEAR (R198): A write of 1 clears the cause bits and sets the state to DEGRADED or HELD. -/
  | guaranteeClear
  /-- RETAINING_RESET (R193): A retaining reset re-initialises all island logic while it keeps the buffer, queue links, keeper, table and time state, and ends copies in transmission for resending. -/
  | retainingReset
  /-- RECOVERY_WALK (R196): After the logic leaves a retaining reset, the walk rebuilds queues, the free list, handles, intake and channels, and resumes service. -/
  | recoveryWalk (links : List (Nat × Nat)) (handles : List Nat)
  /-- PIVOT_RETAKE (R206): At least once per second, the meridian re-takes each domain's pivot, carrying the remainder. -/
  | pivotRetake (d : Nat)
  /-- TIME_SET (R210): A write sets a domain's sync time at the raw time of arrival, as a step. -/
  | timeSet (d : Nat) (value : Nat)
  /-- TIME_ADJUST (R210): A write steps a domain's sync time by a signed number of ru. -/
  | timeAdjust (d : Nat) (value : Int)
  /-- TIME_SLEW (R210): A write starts removing an offset by a rate deviation, replacing any remainder. -/
  | timeSlew (d : Nat) (value : Int)
  /-- TIME_RATE_SET (R210): A write sets a domain's rate while it is in FREE_RUN. -/
  | timeRateSet (d : Nat) (value : Int)
  /-- SLEW_END (R211): The slew remainder reaches 0, and the slew part of the rate ends. -/
  | slewEnd (d : Nat)
  /-- SERVO_SAMPLE (R213): An offset sample reaches a domain's servo and is rejected, or steps the time, or updates the integrator and rate. -/
  | servoSample (d : Nat) (x : ServoInput)
  /-- SERVO_HOLDOVER_TIMEOUT (R212): No sample has been accepted for SERVO_HOLDOVER_TIMEOUT, and the domain enters HOLDOVER. -/
  | servoHoldoverTimeout (d : Nat)
  /-- HOLDOVER_LIMIT (R212): A domain has run HOLDOVER_LIMIT without a sample; it sets TIME_FLAGS bit 0 and logs an event. -/
  | holdoverLimit (d : Nat)
  /-- TS_CALIBRATE (R222): A write of 1 starts a loopback calibration of the port's lanes, taking the port down. -/
  | tsCalibrate (p : Nat)
  /-- TS_CALIBRATION_DONE (R222): A calibration ends and writes a_rx and a_tx or leaves them unchanged. -/
  | tsCalibrationDone (p : Nat) (ok : Bool) (delays : List (Nat × Nat))
  /-- TIME_MESSAGE_RECEIVE (R225): A time message of an enabled domain is diverted to the time engine, or dropped if its queue is full. -/
  | timeMessageReceive (p : Nat) (frame : List Byte) (x : TimeArrival) (delay : Option Int)
  /-- PTP_SYNC_SEND (R226): At each Sync interval, the engine sends Sync, writing one-step fields as the frame leaves. -/
  | ptpSyncSend (p : Nat) (d : Nat) (launch : Raw) (pipe : Int)
  /-- PTP_ANNOUNCE_SEND (R285): At each Announce interval, the engine sends Announce with its roll-call TLV. -/
  | ptpAnnounceSend (p : Nat) (d : Nat)
  /-- PTP_PDELAY_SEND (R224): At each Pdelay interval, the engine sends a peer delay request. -/
  | ptpPdelaySend (p : Nat) (d : Nat)
  /-- ROLL_CALL_SIGNALING (R285): On a port with no Announce within ROLL_PERIOD, the roll-call TLV is sent in a Signaling message. -/
  | rollCallSignaling (p : Nat) (d : Nat)
  /-- ANNOUNCE_RECEIPT_TIMEOUT (R282): After three announce intervals without Announce, a port takes a new master. -/
  | announceReceiptTimeout (p : Nat) (d : Nat)
  /-- TIO_EDGE (R229): A time pin's leading edge falls due at its converted raw target, and the pulse begins. -/
  | tioEdge (n : Nat) (instant : Raw)
  /-- TIO_TRAILING_EDGE (R229): TIO_WIDTH after the leading edge, the pulse ends. -/
  | tioTrailingEdge (n : Nat)
  /-- TIO_CAPTURE_EDGE (R233): An input edge on a capture pin is timestamped and stored, or lost and counted. -/
  | tioCaptureEdge (n : Nat) (t : Raw) (rising : Bool)
  /-- TIO_CAPTURE_READ (R233): A read of TIO_CAPTURE returns and removes the oldest record. -/
  | tioCaptureRead (n : Nat)
  /-- TIME_SNAPSHOT (R235): A write of 1 latches raw time and all four domains' sync times in one meridian clock. -/
  | timeSnapshot
  /-- RING_GATHER_START (R261): At T_k minus the gather lead, the master reads the ready word and then begins gathering the send image. -/
  | ringGatherStart (m : Nat)
  /-- RING_GATHER_DONE (R261): The send image gather completes for the cycle. -/
  | ringGatherDone (m : Nat) (error : Bool)
  /-- RING_CYCLE_SEND (R261): At T_k, the master sends the cycle's frames, with twins when BROKEN, or a null cycle frame. -/
  | ringCycleSend (m : Nat) (first twin : OnWire)
  /-- RING_FRAME_RETURN (R263): A returning cycle frame is checked and its datagram data is committed to the receive image, or it is discarded. -/
  | ringFrameReturn (m : Nat) (onOut : Bool) (frame : List Byte) (stop : RxEnd) (capture : Raw) (pipe : Int)
  /-- RING_CYCLE_CLOSE (R268): After the last frame returns, or at the next send instant, the master scatters the receive image and writes status and the image-ready record. -/
  | ringCycleClose (m : Nat)
  /-- CYCLE_FRAME_PASS (R245): A pass-through pair serves a cycle frame on its first passage and forwards it. -/
  | cycleFramePass (k : Nat) (fromA : Bool) (frame : List Byte) (stop : RxEnd) (capture : Raw) (rxPipe : Int) (launch : Raw) (txPipe : Int)
  /-- PT_INPUT_SAMPLE (R256): At the input-sample instant, a pair starts gathering its input area. -/
  | ptInputSample (k : Nat)
  /-- PT_GATHER_DONE (R256): A pair's input gather completes for the cycle. -/
  | ptGatherDone (k : Nat)
  /-- PT_OUTPUT_LATCH (R256): At the output-latch instant, a pair scatters its output area and writes its status record. -/
  | ptOutputLatch (k : Nat)
  /-- LISTEN_TIMEOUT (R276): A STANDBY master ring sees no cycle frame for the listen time and enters CLAIMING. -/
  | listenTimeout (m : Nat)
  /-- CLAIM_SLOT (R276): At the start of each slot, a CLAIMING node sends a start claim. -/
  | claimSlot (m : Nat)
  /-- START_CLAIM_RETURN (R276): A node's own claim returns intact; after the set number of slots, the node enters STARTING. -/
  | startClaimReturn (m : Nat) (onOut : Bool) (frame : List Byte) (stop : RxEnd)
  /-- START_CLAIM_RECEIVED (R277): A claim or running frame with a higher or equal vector makes a claimant yield to STANDBY. -/
  | startClaimReceived (m : Nat) (frame : List Byte)
  /-- YIELD_TIMEOUT (R278): A yielded node sees no frame of the winner for the listen time and draws a random back-off. -/
  | yieldTimeout (m : Nat)
  /-- BACKOFF_END (R278): A back-off ends, and the node enters CLAIMING unless it saw a cycle frame. -/
  | backoffEnd (m : Nat)
  /-- REFERENCE_WATCH (R279): At T_k + C/2, a STANDBY ring counts a missing reference frame and takes over once the run is long enough. -/
  | referenceWatch (m : Nat)
  /-- DUEL_FRAME_RECEIVED (R281): A running master receives a cycle frame of another master and yields if its vector is lower or equal. -/
  | duelFrameReceived (m : Nat) (frame : List Byte)
  /-- ROLL_ADVANCE (R284): Every ROLL_PERIOD, a member advances its roll number. -/
  | rollAdvance (d : Nat)
  /-- ROLL_CALL_RECEIVE (R286): A roll-call body updates held roll numbers and last rises, and quorum is judged. -/
  | rollCallReceive (d : Nat) (body : List Byte)
  /-- MEMBER_AGE_OUT (R286): A member's last rise passes QUORUM_AGE, it is no longer seen, and quorum is judged. -/
  | memberAgeOut (d : Nat) (m : Nat)
  /-- SILENCE_HOLDOVER_TIMEOUT (R291): A stay in HOLDOVER or PARTITIONED longer than SILENCE_HOLDOVER silences the domain. -/
  | silenceHoldoverTimeout (d : Nat)
  /-- FUNCTION_LEVEL_RESET (R299): An FLR resets the host island, disables channels and abandons descriptors not yet written back. -/
  | functionLevelReset
  /-- PERSTN (R299): PERSTn resets the host island as an FLR does. -/
  | perstn
  /-- CHANNEL_DOORBELL (R304): A doorbell write starts a read of the channel's index block and descriptors, or is ignored and counted. -/
  | channelDoorbell (value : Nat) (whole : Bool)
  /-- DESCRIPTOR_FETCH_DONE (R304): The index block and descriptors return, and descriptors below the producer index with OWN set are accepted. -/
  | descriptorFetchDone
  /-- COMPLETION_DOORBELL (R317): A completion doorbell makes the device read the ring's consumer index. -/
  | completionDoorbell (value : Nat) (whole : Bool)
  /-- TRANSMIT_FRAME (R308): A transmit chain is fetched into the shared buffer under an intake reservation as one host frame. -/
  | transmitFrame (c : Nat)
  /-- RECEIVE_BUFFER (R313): A receive descriptor is accepted for use by received frames, or errors if shorter than B. -/
  | receiveBuffer (c : Nat)
  /-- HOST_RX_DELIVERY (R314): An eligible host-port copy is written into consecutive receive descriptors, store-and-forward. -/
  | hostRxDelivery (h : Nat) (bad : List CellFinding)
  /-- LAUNCH_TIME_REACHED (R310): A launch-timed copy's raw target falls due, and the copy becomes eligible. -/
  | launchTimeReached (h : Nat)
  /-- UNIT_WRITEBACK (R316): A finished unit is written back: data complete, descriptors, index block, completion record and interrupt request. -/
  | unitWriteback (c : Nat)
  /-- BACKLOG_DRAIN (R319): Room appears in a completion ring, and backlog records are written in order. -/
  | backlogDrain (r : Nat)
  /-- CRING_POLL (R317): Every 10 µs while the backlog holds records, the device reads the ring's consumer index. -/
  | cringPoll (r : Nat)
  /-- VECTOR_MESSAGE (R321): A vector's count or moderation timer makes its message due, and it is sent or held pending. -/
  | vectorMessage (v : Nat)
  /-- VECTOR_UNMASK (R322): Unmasking a vector with its pending bit set sends one message. -/
  | vectorUnmask (v : Nat) (masked : Bool)
  /-- POWER_STATE_CHANGE (R325): The function enters or leaves D3hot or Bus Master Enable changes, holding or releasing messages and work. -/
  | powerStateChange (d3 : Bool) (bme : Bool) (msix : Bool) (fmask : Bool) (pmeEn : Bool)
  /-- PME_SEND (R324): The pending age reaches PME_AGE_THRESHOLD, and the device sends PM_PME. -/
  | pmeSend
  /-- CHANNEL_ENTRY_LOAD (R332): A channel's entry is loaded into the cache, checked, and its progress kept or reset. -/
  | channelEntryLoad (c : Nat)
  /-- CH_INVALIDATE (R333): A write drops a channel's cached entry now, or once its accepted units are written back. -/
  | chInvalidate (value : Nat)
  /-- MOVE_COPY (R340): A move descriptor copies bytes, optionally through scatter-gather lists. -/
  | moveCopy (c : Nat)
  /-- INDEX_GATHER (R339): A move descriptor gathers indexed elements into a contiguous destination. -/
  | indexGather (c : Nat)
  /-- INDEX_SCATTER (R339): A move descriptor scatters a contiguous source into indexed elements. -/
  | indexScatter (c : Nat)
  /-- PLANE_SPLIT (R346): A move descriptor splits pixel-interleaved data into planes or bit-planes. -/
  | planeSplit (c : Nat)
  /-- PLANE_MERGE (R346): A move descriptor merges planes into pixel-interleaved data. -/
  | planeMerge (c : Nat)
  /-- CHUNK_DONE (R342): A chunk transfer through staging completes, and the next chunk may start when pacing allows. -/
  | chunkDone (c : Nat) (first : Nat) (corrected : List (Nat × Nat))
  /-- BUS_ERROR (R350): A failed access is retried, and once the retries are used up the unit errors and the channel halts. -/
  | busError (c : Nat) (x : BusFault)
  /-- CH_RESTART (R352): A write of 1 clears a halt and reads the index block. -/
  | chRestart (c : Nat) (value : Nat)
  /-- CH_ABORT (R353): A write aborts the unit that holds a descriptor if it is before its deciding point. -/
  | chAbort (value : Nat)
  /-- CH_SHADOW_ARM (R355): A write of 1 arms a copy of the shadow fields at the channel's next hand-over point. -/
  | chShadowArm (c : Nat) (value : Nat)
  /-- DMA_MODE_SWITCH (R344): Once the started units have finished after a DMA_MODE apply, the host island runs in the new mode. -/
  | dmaModeSwitch
  /-- CORMUS_MESSAGE (R376): A Cormus message is received, checked for header, tag, cache and replay, and its entries are executed in order. -/
  | cormusMessage (port : Nat) (frame : List Byte)
  /-- READ (R376): A Cormus READ returns a whole object or element. -/
  | read (idx : Nat) (subix : Nat) (tagged : Bool)
  /-- WRITE (R376): A Cormus WRITE writes a whole object or element. -/
  | write (idx : Nat) (subix : Nat) (data : List Byte) (tagged : Bool)
  /-- WRITE_GUARDED (R376): A Cormus WRITE_GUARDED writes an RWG object when the complement matches. -/
  | writeGuarded (idx : Nat) (subix : Nat) (data : List Byte) (tagged : Bool)
  /-- READ_RANGE (R376): A Cormus READ_RANGE returns bytes of a TABLE or OCTETS object. -/
  | readRange (idx : Nat) (subix : Nat) (off : Nat) (len : Nat) (tagged : Bool)
  /-- WRITE_RANGE (R376): A Cormus WRITE_RANGE writes whole records of a TABLE. -/
  | writeRange (idx : Nat) (subix : Nat) (off : Nat) (data : List Byte) (tagged : Bool)
  /-- DESCRIBE (R376): A Cormus DESCRIBE returns type, access, class, owner, size and factory default. -/
  | describe (idx : Nat) (subix : Nat) (off : Nat) (tagged : Bool)
  /-- ADDRESS_RESOLUTION (R375): The supervisor answers an ARP request or neighbour solicitation for its own addresses. -/
  | addressResolution (port : Nat) (frame : List Byte)
  /-- OBJECT_WRITE (R361): A write to an object with no row of its own takes effect in its owning island or enters the pending store. -/
  | objectWrite (idx : Nat) (subix : Nat) (data : List Byte)
  /-- MV_SLOT_LOW_READ (R383): A read of a slot's bytes 0–3 latches the whole value into the mailbox. -/
  | mvSlotLowRead (off : Nat) (n : Nat)
  /-- MV_SLOT_LOW_WRITE (R383): A write of a slot's bytes 0–3 commits the whole width with the staged bytes. -/
  | mvSlotLowWrite (off : Nat) (data : List Byte)
  /-- MV_STAGE_WRITE (R383): A write to slot bytes 4–15 or mailbox bytes 16–31 stages bytes. -/
  | mvStageWrite (off : Nat) (data : List Byte)
  /-- MV_IND_ADDR (R384): A write to MV_IND_ADDR sets the indirect address and discards incomplete staging. -/
  | mvIndAddr (off : Nat) (data : List Byte)
  /-- MV_IND_DATA_READ (R384): A read of MV_IND_DATA returns data at the indirect address and advances it. -/
  | mvIndDataRead (n : Nat)
  /-- MV_IND_DATA_WRITE (R384): A write of MV_IND_DATA writes at the indirect address and advances it. -/
  | mvIndDataWrite (data : List Byte)
  /-- GUARDED_VALUE_WRITE (R385): A write of an RWG value to slot bytes 0–7 is held awaiting its complement. -/
  | guardedValueWrite (off : Nat) (data : List Byte)
  /-- GUARDED_COMPLEMENT_WRITE (R385): A write of the complement to slot bytes 8–15 completes or fails the guarded write. -/
  | guardedComplementWrite (off : Nat) (data : List Byte)
  /-- GUARD_TIMEOUT (R385): No complement arrives within 1 ms, and the held value fails. -/
  | guardTimeout
  /-- IMAGE_SAVE (R370): SAVE writes the active values to the inactive slot, which becomes active. -/
  | imageSave
  /-- IMAGE_SELECT (R369): SELECT makes the inactive slot active for the next start. -/
  | imageSelect
  /-- IMAGE_RESTORE (R369): RESTORE writes every record of the active slot now. -/
  | imageRestore
  /-- IMAGE_FACTORY (R369): FACTORY writes factory defaults to every configuration object now. -/
  | imageFactory
  /-- IMAGE_ERASE (R369): ERASE clears the magic of the inactive slot. -/
  | imageErase
  /-- IMAGE_COMPARE (R372): COMPARE counts the records of the active slot that differ from active values. -/
  | imageCompare
  /-- IMAGE_INSTALL (R369): INSTALL checks the staged image and writes it to the inactive slot as active. -/
  | imageInstall
  /-- IMAGE_COMMAND_DONE (R369): An image command ends, and IMAGE_STATUS reads DONE or FAILED. -/
  | imageCommandDone
  /-- PLCA_FALLBACK (R387): A non-coordinator hears no BEACON for 400 µs and falls back to CSMA/CD. -/
  | plcaFallback
  /-- PLCA_BEACON (R387): A BEACON is heard, and a fallen-back node returns to PLCA. -/
  | plcaBeacon
  /-- T1S_FRAME_SEND (R387): The management port sends a frame under PLCA or CSMA/CD, counting collisions and dropping it at the attempt limit. -/
  | t1sFrameSend (collisions : Nat)
  /-- LANE_REF_FAIL (R393): A sector reference is absent or off frequency, and all its lanes go to OFF. -/
  | laneRefFail (k : Nat)
  /-- LANE_REF_GOOD (R393): The reference has stayed within ±200 ppm for 1 ms, and its status reads good. -/
  | laneRefGood (k : Nat)
  /-- LANE_SIGNAL_DETECT (R396): Signal present for 10 µs with no back-off running moves a lane from SEEK to ADAPT. -/
  | laneSignalDetect (l : Nat)
  /-- LANE_SIGNAL_LOSS (R396): No signal for 1 µs sends a lane to SEEK, with a back-off from ADAPT or LOCK. -/
  | laneSignalLoss (l : Nat)
  /-- LANE_ADAPT_CONVERGED (R396): Slicer error below the limit for 100 µs moves a lane to LOCK and records anchors. -/
  | laneAdaptConverged (l : Nat) (coeffs : List Byte)
  /-- LANE_ADAPT_TIMEOUT (R396): LANE_ADAPT_TIMEOUT passes in ADAPT, and the lane returns to SEEK with a back-off. -/
  | laneAdaptTimeout (l : Nat)
  /-- LANE_LOCK_TIMEOUT (R396): LANE_LOCK_TIMEOUT passes in LOCK, and the lane returns to SEEK with a back-off. -/
  | laneLockTimeout (l : Nat)
  /-- LANE_READY (R397): All lanes of a port have been ready for 1 ms, and they enter UP together. -/
  | laneReady (p : Nat) (anDone : Bool)
  /-- LANE_BLOCK_LOCK_LOSS (R396): Loss of block lock or a high bit-error state with signal present returns an UP lane to ADAPT. -/
  | laneBlockLockLoss (l : Nat)
  /-- LANE_BACKOFF_END (R398): A lane's back-off ends, and signal is heeded again. -/
  | laneBackoffEnd (l : Nat)
  /-- LANE_LINKUP_TIMEOUT (R399): The link-up timer expires, setting no partner or no link and logging one event. -/
  | laneLinkupTimeout (l : Nat)
  /-- IDLE_GUARD (R400): After LANE_IDLE_GUARD_TIME without frame data, the adaptation step falls to 1/16. -/
  | idleGuard (l : Nat)
  /-- LANE_ANCHOR_REFRESH (R401): At the end of each refresh period in UP, anchors are recorded if the period qualified. -/
  | laneAnchorRefresh (l : Nat) (coeffs : List Byte)
  /-- LANE_ANCHOR_RETAKE (R401): A write of 1 records the anchors in the next clock. -/
  | laneAnchorRetake (l : Nat)
  /-- PORT_TX_SLEEP (R403): After PORT_TX_SLEEP_IDLE with nothing to send, a port's transmit direction goes to sleep. -/
  | portTxSleep (p : Nat)
  /-- PORT_TX_WAKE (R403): A reason to send wakes a sleeping transmit direction, and the item waits for the wake time. -/
  | portTxWake (p : Nat)
  /-- QUIET_REFRESH (R405): At the end of each quiet period, a native port sends a 2 µs refresh. -/
  | quietRefresh (p : Nat)
  /-- QUIET_RECEIVE (R406): A native receiver takes a QUIET and ignores the silence for the announced period. -/
  | quietReceive (l : Nat) (tq : Nat) (refresh : Bool)
  /-- EYE_MARGIN_UPDATE (R407): Every 100 ms, an UP lane's eye margin is updated. -/
  | eyeMarginUpdate (l : Nat) (vertical : Nat) (horizontal : Nat) (coeffs : List Byte)
  /-- PRBS_CHECK (R408): The PRBS checker locks after 64 error-free bits, counts errors, or loses lock. -/
  | prbsCheck (l : Nat) (errors : List Bool)
  /-- MEM_RETRAIN_CHECK (R412): Every MEM_RETRAIN_PERIOD, the DQS oscillator is read, and drift above 2 % retrains the channel. -/
  | memRetrainCheck (c : Nat) (drift : Nat) (ok : Bool)
  /-- MEM_TEMP_POLL (R413): Every 16 ms, mode register 4 is read and the refresh interval set. -/
  | memTempPoll (c : Nat) (code : Nat) (hot : Bool)
  /-- MEM_CHANNEL_FAIL (R417): A channel fails, its partner serves the mirror region, and the state reads DEGRADED. -/
  | memChannelFail (c : Nat) (why : Nat)
  /-- MEM_CH_RESTORE (R418): A write of 1 starts retraining a failed channel and copying its mirror share. -/
  | memChRestore (c : Nat)
  /-- MEM_RESTORE_DONE (R418): The restore copy and poisoning end, and the channel returns to OK. -/
  | memRestoreDone (c : Nat) (ok : Bool)
  /-- MEM_SCRUB (R419): Once per MEM_SCRUB_PERIOD, every codeword is read and corrected or repaired. -/
  | memScrub (corrected : List (Nat × Nat)) (bad : List (Nat × Nat))
  /-- NV_UNIT_WRITE (R423): A 32-byte NV unit write completes and is read back, and is retried if it differs. -/
  | nvUnitWrite (which : NvWriter) (ok : Bool)
  /-- FW_INSTALL (R426): INSTALL verifies FW_STAGE and writes it to the slot not booted. -/
  | fwInstall
  /-- FW_SELECT (R426): SELECT prefers the slot not booted if it verifies. -/
  | fwSelect
  /-- FW_ERASE (R426): ERASE clears the magic of the slot not booted. -/
  | fwErase
  /-- ROOT_KEY_REVOKE (R430): A guarded write blows the revocation fuse of a root key. -/
  | rootKeyRevoke (value : Nat) (complement : Nat)
  /-- FW_MIN_SECURITY_RAISE (R430): A guarded write raises the fused minimum security version. -/
  | fwMinSecurityRaise (value : Nat) (complement : Nat)
  /-- OWNER_KEY_WRITE (R435): The first valid write of OWNER_KEY takes effect and locks. -/
  | ownerKeyWrite (key : List Byte)
  /-- QUOTE_REQUEST (R441): A write of 1 latches nonce and domain and starts collecting a quote. -/
  | quoteRequest
  /-- QUOTE_SIGNED (R446): A quote's signature completes, and QUOTE is replaced. -/
  | quoteSigned
  /-- BOTTOM_TREE_BUILD (R438): The next bottom tree finishes building in the background. -/
  | bottomTreeBuild
  /-- BENCHMARK_MEASURE (R448): Every hour, each benchmark pair is measured and the island's δ updated. -/
  | benchmarkMeasure (deltas : List (Nat × Int))
  /-- WEAR_INTEGRATE (R449): Every second, each island adds A_T × A_V to its wear. -/
  | wearIntegrate (temps : List Int) (rails : List Nat)
  /-- WEAR_HISTORY_WRITE (R450): Every hour, the wear integrals are written to NV and remaining life is computed. -/
  | wearHistoryWrite
  /-- AVS_MEASURE (R455): Every second, the rig margins are measured, and the AVS setpoint may step by 5 mV. -/
  | avsMeasure (margins : List Int) (naks : Nat)
  /-- RAIL_WARNING (R456): A rail falls below its warning level, begins a dip and sets SUPPLY_STATE to WARNING. -/
  | railWarning (r : Nat) (mv : Nat)
  /-- RAIL_DIP_END (R456): A rail stays above warning plus hysteresis for 1 ms, and its dip ends. -/
  | railDipEnd (r : Nat) (mv : Nat)
  /-- RAIL_RESET_LEVEL (R456): A rail at its reset level causes a device reset within 1 µs. -/
  | railResetLevel (r : Nat) (mv : Nat) (busy : Bool)
  /-- THERMAL_WARN (R457): The hottest sensor reaches THERMAL_WARN and logs a warning. -/
  | thermalWarn (n : Nat) (t : Int)
  /-- THERMAL_TRIP (R457): The hottest sensor reaches the trip level and causes a device reset. -/
  | thermalTrip (n : Nat) (t : Int)
  /-- PMBUS_ALERT (R487): A falling edge on PMB_ALERTn makes the device read and log STATUS_WORD. -/
  | pmbusAlert (status : Nat)
  /-- POWER_ON_RESET (R471): PORn low re-initialises everything except the NV store and fuses. -/
  | powerOnReset
  /-- POR_RELEASE (R468): PORn rises, straps are sampled, and the boot ROM starts. -/
  | porRelease (straps : Nat) (linear : Bool) (rails : List Nat)
  /-- START_UP_APPLY (R470): Once every image record is written, the firmware issues an immediate strobe to all groups and islands reach RUN. -/
  | startUpApply (failed : List Nat)
  /-- DEVICE_RESET (R471): RSTn low with RMODE low re-initialises the device as a power-on does. -/
  | deviceReset
  /-- RSTN_RETAINING (R472): RSTn low with RMODE high starts a retaining reset. -/
  | rstnRetaining
  /-- RESET_REQUEST_RETAINING (R472): A guarded write of 1 requests a retaining reset. -/
  | resetRequestRetaining
  /-- RESET_REQUEST_DEVICE (R472): A guarded write of 2 requests a device reset. -/
  | resetRequestDevice
  /-- SUPERVISOR_RESTART (R479): The supervisor watchdog expires and restarts the supervisor core, or escalates to a retaining reset. -/
  | supervisorRestart
  /-- EXTEST (R496): The TAP takes the EXTEST instruction. -/
  | extest
  /-- IDCODE (R496): The TAP takes the IDCODE instruction. -/
  | idcode
  /-- SAMPLE_PRELOAD (R496): The TAP takes the SAMPLE/PRELOAD instruction. -/
  | samplePreload
  /-- EXTEST_PULSE (R409): The TAP takes the EXTEST_PULSE instruction for AC-coupled lanes. -/
  | extestPulse
  /-- EXTEST_TRAIN (R409): The TAP takes the EXTEST_TRAIN instruction for AC-coupled lanes. -/
  | extestTrain
  /-- HIGHZ (R496): The TAP takes the HIGHZ instruction. -/
  | highz
  /-- CLAMP (R496): The TAP takes the CLAMP instruction. -/
  | clamp
  /-- BYPASS (R496): The TAP takes BYPASS, or any unlisted code. -/
  | bypass (code : Nat)
  /-- SUPERVISOR_RESTART_END (R386): The supervisor restart ends; the dictionary server is back in service, queued memory-view writes and held Cormus messages are carried out, and the supervisor-core fault ends. -/
  | supervisorRestartEnd
  /-- DEVICE_RESET_RELEASE (R468): A device reset ends (RSTn rises, or the rail or thermal hold ends), the straps are sampled again and start-up begins. -/
  | deviceResetRelease (straps : Nat) (linear : Bool) (rails : List Nat) (temps : List Int)
  /-- PERSTN_RELEASE (R469): PERSTn rises; the host island leaves reset and configuration space answers within 100 ms. -/
  | perstnRelease
  /-- PCIE_LINK_TRAINING (R345): The PCIe link trains, or trains again, at a width and rate that set R_bus for pacing; this includes the first training once the PCIe reference appears. -/
  | pcieLinkTraining (width : Nat) (rate : Nat)
  /-- ASPM_L1_ENTRY (R296): The idle PCIe link enters L1, L1.1 or L1.2. -/
  | aspmL1Entry (l : Nat)
  /-- L0_RETURN (R323): The link returns to L0 after the device requested it, and a held message or write-back is sent in the first clock of L0. -/
  | l0Return
  /-- PME_STATUS_CLEAR (R324): Software clears PME_Status, and the pending age is judged afresh so that a further PME can be sent. -/
  | pmeStatusClear
  /-- FW_COMMAND_DONE (R426): A firmware command ends, and FW_STATUS reads DONE or FAILED with its cause. -/
  | fwCommandDone
  /-- TEST_LOGIC_RESET (R496): TRSTn low, or the TMS sequence, puts the TAP in test-logic reset and selects IDCODE. -/
  | testLogicReset
  /-- T1S_FRAME_RECEIVE (R388): A frame received with a good FCS on the management port is checked against the wake patterns and passed on. -/
  | t1sFrameReceive (frame : List Byte)
  /-- PLCA_COORDINATOR_BEACON (R387): As PLCA coordinator (node ID 0), the port sends a BEACON and starts a cycle of T1S_PLCA_NODE_COUNT transmit opportunities. -/
  | plcaCoordinatorBeacon
  /-- RECEIVED_LPI (R402): A lane starts or stops receiving LPI from its partner, and its receive direction sleeps or wakes, holding or resuming adaptation. -/
  | receivedLpi (p : Nat) (start : Bool)
  /-- WAKE_SET_RECEIVE (R405): A native receiver takes WAKE sets from its partner, and its receive direction leaves sleep. -/
  | wakeSetReceive (l : Nat)
  /-- THERMAL_ALERT_RELEASE (R457): The hottest reading falls 3 °C below THERMAL_WARN; THERM_ALERTn releases and the warning event re-arms. -/
  | thermalAlertRelease (temps : List Int)
  /-- AVS_STEP_SETTLED (R455): The core rail has stayed within 1 % of a new AVS setpoint for 1 ms; the step is settled and the core levels follow the new setpoint. -/
  | avsStepSettled
  /-- MEM_REFRESH (R413): A channel's refresh interval expires and a per-bank refresh command is issued, delaying a pending access by at most one refresh command. -/
  | memRefresh (c : Nat)
  /-- CHUNK_BEGIN (R345): A paced channel's level reaches 0 or more and its next chunk begins, charging the level by the chunk's bytes. -/
  | chunkBegin (c : Nat)
  /-- MERIDIAN_REFERENCE_LOSS (R466): The meridian reference is missing or returns; while it is missing the start stops at the boot ROM with every island in RESET, and its return lets start-up proceed. -/
  | meridianReferenceLoss (present : Bool)
  deriving DecidableEq, Repr

end Sys2Proof
end

