-- ==== Sys2Proof/Decode.lean ====
section
/-! DEFINITION. The words of the spec's table of steps. The table gives no row any bits (every row's field list is empty), so no
word spells a command. -/

namespace Sys2Proof

/-- The command that a word of `nbits` bits spells by the table's bits: none, since the table gives no row bits. -/
def decodeTableWord (_nbits _w : Nat) : Option Instr := none

end Sys2Proof
end

