-- ==== Sys2Proof/Config.lean ====
section
/-! DEFINITION. The free values: constants without a body, one for each value the spec leaves open. No proof can see one. -/

namespace Sys2Proof

/-- A value the spec leaves open, as a number: applied to the state's draw counter, or to the operands it depends on. -/
opaque Config.freeNat : Nat → Nat

/-- A byte the spec leaves open. -/
opaque Config.freeByte : Nat → Byte

/-- Picoseconds that are no whole number of ru, brought to 1 ru: the spec states the step and no rounding (R221). -/
opaque Config.psRounded : Int → Int

/-- A fraction, numerator over denominator, brought to a whole unit where the spec states the unit and no rounding
(R213, R215). -/
opaque Config.fracRounded : Int → Nat → Int

/-- What the time messages carry that the spec does not state: clock identity (bytes 0 to 7), variance (8, 9), UTC offset
(10, 11) and time source (12) (R224). -/
opaque Config.timeByte : Nat → Byte

/-- Frame length in a survey record that is complete while its frame is still arriving, by bytes arrived (R121, R125). -/
opaque Config.openLength : Nat → Nat

/-- Bytes of the digest of the default bridge loaded with a set of methods, byte i at 256 · methods + i (R133, R172). -/
opaque Config.bridgeDigest : Nat → Byte

/-- Build number of the default bridge (R133). -/
opaque Config.bridgeBuild : Nat → Nat

/-- CTLE code a mode's adaptation begins at by default, and the gain code it begins at (R395). -/
opaque Config.ctleDefault : Nat → Byte
opaque Config.gainStart : Nat → Byte

/-- What manufacture puts into DEVICE_MAC_BASE (a number, its low 10 bits aside), SERIAL_NUMBER, SILICON_REVISION,
IDENTITY_PUBLIC_KEY and IDENTITY_CERT_CHAIN (R389, R436). -/
opaque Config.macBase : Nat
opaque Config.serialNumber : Nat
opaque Config.siliconRevision : Nat
opaque Config.identityKey : Nat
opaque Config.certChain : List Byte

/-- The present local clock of island i in MHz, where the spec states none (R27). -/
opaque Config.islandClock : Nat → Nat

/-- How far the time of a time-lost island stands from the raw counter, in ru, by island, beacon rate and raw time since
its last beacon (R17). -/
opaque Config.lostDrift : Nat → Nat → Nat → Int

/-- Byte i of the HSS signature that the identity key makes with leaf q over a message (R437, R442). -/
opaque Config.quoteSignature : Nat → List Byte → Nat → Byte

/-- 32-byte units of one copy of the wear history (R422, R450). -/
opaque Config.wearCopyUnits : Nat

/-- What firmware slot 0 and 1 and image slot 0 and 1 (at 2 and 3) hold when the device is made (R422). -/
opaque Config.factorySlot : Nat → List Byte

/-- The vendor root digests K0 to K3, byte i of Kk at 32 k + i (R429). -/
opaque Config.rootDigest : Nat → Byte

/-- Field class code of an object for which neither its table nor R362 gives a class (R362, R376). -/
opaque Config.fieldClass : Nat → Byte

end Sys2Proof
end

