-- ==== Sys2Proof/Machine/Bits.lean ====
section
/-! DEFINITION. Byte orders, signed fields, saturating counts, and the check codes and digests the spec names. -/

namespace Sys2Proof.Machine

/-- The `n` low bytes of `v`, least significant first (R8: structures in memory are little-endian). -/
def leBytes : Nat → Nat → List Byte
  | 0, _ => []
  | n + 1, v => BitVec.ofNat 8 v :: leBytes n (v / 256)

/-- The number a little-endian byte list spells. -/
def leNat : List Byte → Nat
  | [] => 0
  | b :: bs => b.toNat + 256 * leNat bs

/-- The `n` low bytes of `v`, most significant first (R8: frames are big-endian). -/
def beBytes (n v : Nat) : List Byte := (leBytes n v).reverse

/-- The number a big-endian byte list spells. -/
def beNat (bs : List Byte) : Nat := leNat bs.reverse

/-- Bytes `i` to `i + n - 1` of `bs`; bytes past the end read 0. -/
def slice (bs : List Byte) (i n : Nat) : List Byte :=
  let part := (bs.drop i).take n
  part ++ List.replicate (n - part.length) 0#8

/-- `bs` with the bytes at `i` replaced by `new`, not lengthened. -/
def patch (bs : List Byte) (i : Nat) (new : List Byte) : List Byte :=
  (bs.take i ++ new ++ bs.drop (i + new.length)).take bs.length

/-- Little-endian field of `n` bytes at offset `i`. -/
def leField (bs : List Byte) (i n : Nat) : Nat := leNat (slice bs i n)

/-- Big-endian field of `n` bytes at offset `i`. -/
def beField (bs : List Byte) (i n : Nat) : Nat := beNat (slice bs i n)

/-- Bits `hi` down to `lo` of `v`. -/
def bits (v hi lo : Nat) : Nat := v / 2 ^ lo % 2 ^ (hi - lo + 1)

/-- Bit `i` of `v`. -/
def bit (v i : Nat) : Bool := v / 2 ^ i % 2 == 1

/-- `v` with bit `i` set. -/
def setBit (v i : Nat) : Nat := if bit v i then v else v + 2 ^ i

/-- `v` with bit `i` clear. -/
def clearBit (v i : Nat) : Nat := if bit v i then v - 2 ^ i else v

/-- The bit `b` as a number. -/
def ofBool (b : Bool) : Nat := if b then 1 else 0

/-- The two's-complement value of a `w`-bit image. -/
def toSigned (w v : Nat) : Int := if v < 2 ^ (w - 1) then v else (v : Int) - 2 ^ w

/-- The `w`-bit two's-complement image of an integer. -/
def ofSigned (w : Nat) (i : Int) : Nat := (i % (2 ^ w : Nat)).toNat

/-- `i` held within `lo` and `hi`. -/
def clampInt (lo hi i : Int) : Int := if i < lo then lo else if hi < i then hi else i

/-- A count of `w` bits that wraps to 0. -/
def wrapAdd (w v n : Nat) : Nat := (v + n) % 2 ^ w

/-- A count of `w` bits that saturates. -/
def satAdd (w v n : Nat) : Nat := min (v + n) (2 ^ w - 1)

/-- ⌈a / b⌉. -/
def ceilDiv (a b : Nat) : Nat := if b = 0 then 0 else (a + b - 1) / b

/-- ⌈a / b⌉ over the integers, for a positive `b`. -/
def ceilDivInt (a : Int) (b : Nat) : Int := -((-a) / (b : Int))

/-- One step of a reflected CRC over one bit. -/
def crcBit (poly c : Nat) : Nat := if c % 2 = 1 then (c / 2) ^^^ poly else c / 2

/-- One byte of a reflected CRC. -/
def crcByte (poly c : Nat) (b : Byte) : Nat :=
  let c0 := c ^^^ b.toNat
  crcBit poly (crcBit poly (crcBit poly (crcBit poly (crcBit poly (crcBit poly (crcBit poly (crcBit poly c0)))))))

/-- A reflected 32-bit CRC with initial value all ones and the result complemented. -/
def crcReflected (poly : Nat) (bs : List Byte) : Nat :=
  bs.foldl (crcByte poly) 0xFFFFFFFF ^^^ 0xFFFFFFFF

/-- CRC-32C with the parameters of R72: polynomial 0x1EDC_6F41 (reflected 0x82F6_3B78). -/
def crc32c (bs : List Byte) : Nat := crcReflected 0x82F63B78 bs

/-- The Ethernet frame check sequence (IEEE 802.3, polynomial 0x04C1_1DB7), as its four bytes on the wire. -/
def fcsOf (bs : List Byte) : List Byte := leBytes 4 (crcReflected 0xEDB88320 bs)

/-- The bitwise complement of each byte: the stomp of R49. -/
def complementBytes (bs : List Byte) : List Byte := bs.map (~~~ ·)

/-- A frame, its FCS included, whose last four bytes are the FCS of the rest. -/
def fcsGood (frame : List Byte) : Bool :=
  decide (4 ≤ frame.length) && (fcsOf (frame.take (frame.length - 4)) == frame.drop (frame.length - 4))

/-- One bit of the CRC-16 of R388 (polynomial 0x1021, most significant bit first). -/
def crc16Bit (c : Nat) : Nat := if c / 0x8000 % 2 = 1 then (c * 2 % 0x10000) ^^^ 0x1021 else c * 2 % 0x10000

/-- One byte of the CRC-16 of R388. -/
def crc16Byte (c : Nat) (b : Byte) : Nat :=
  let c0 := c ^^^ (b.toNat * 256)
  crc16Bit (crc16Bit (crc16Bit (crc16Bit (crc16Bit (crc16Bit (crc16Bit (crc16Bit c0)))))))

/-- The CRC-16 of R388: initial value 0xFFFF, no final inversion. -/
def crc16 (bs : List Byte) : Nat := bs.foldl crc16Byte 0xFFFF

/-! ### SHA-256 and HMAC-SHA-256 (R367, R378: standards the spec names) -/

/-- The 32-bit big-endian words of a byte list whose length is a multiple of 4. -/
def beWords : List Byte → List (BitVec 32)
  | a :: b :: c :: d :: t => (a ++ b ++ c ++ d) :: beWords t
  | _ => []

/-- The hash value SHA-256 starts from: eight words in one number, the first word highest. -/
def shaStart : Nat := 0x6a09e667bb67ae853c6ef372a54ff53a510e527f9b05688c1f83d9ab5be0cd19

/-- The constants of eight rounds, packed as `shaStart` is. -/
def shaOctet : Nat → Nat
  | 0 => 0x428a2f9871374491b5c0fbcfe9b5dba53956c25b59f111f1923f82a4ab1c5ed5
  | 1 => 0xd807aa9812835b01243185be550c7dc372be5d7480deb1fe9bdc06a7c19bf174
  | 2 => 0xe49b69c1efbe47860fc19dc6240ca1cc2de92c6f4a7484aa5cb0a9dc76f988da
  | 3 => 0x983e5152a831c66db00327c8bf597fc7c6e00bf3d5a7914706ca635114292967
  | 4 => 0x27b70a852e1b21384d2c6dfc53380d13650a7354766a0abb81c2c92e92722c85
  | 5 => 0xa2bfe8a1a81a664bc24b8b70c76c51a3d192e819d6990624f40e3585106aa070
  | 6 => 0x19a4c1161e376c082748774c34b0bcb5391c0cb34ed8aa4a5b9cca4f682e6ff3
  | _ => 0x748f82ee78a5636f84c878148cc7020890befffaa4506cebbef9a3f7c67178f2

/-- The eight words of a packed number. -/
def unpack8 (v : Nat) : List (BitVec 32) := beWords (beBytes 32 v)

/-- Exclusive or of rotations of a word to the right. -/
def turned (x : BitVec 32) (by_ : List Nat) : BitVec 32 := (by_.map x.rotateRight).foldl (· ^^^ ·) 0

/-- Where two words differ the first or the second is chosen by a third. -/
def chosen (pick yes no : BitVec 32) : BitVec 32 := no ^^^ (pick &&& (yes ^^^ no))

/-- The message schedule continued by `n` words; `w` holds its last sixteen, oldest first. -/
def shaSchedule : Nat → List (BitVec 32) → List (BitVec 32)
  | 0, _ => []
  | n + 1, w =>
    let near := w.getD 14 0
    let far := w.getD 1 0
    let next := w.headD 0 + w.getD 9 0 + (turned far [7, 18] ^^^ far >>> 3) + (turned near [17, 19] ^^^ near >>> 10)
    next :: shaSchedule n (w.drop 1 ++ [next])

/-- The eight working words after a round that adds `kw`: all move down one place, the first and the fifth are made anew. -/
def shaRound (v : List (BitVec 32)) (kw : BitVec 32) : List (BitVec 32) :=
  let at_ (i : Nat) : BitVec 32 := v.getD i 0
  let low := at_ 7 + kw + turned (at_ 4) [6, 11, 25] + chosen (at_ 4) (at_ 5) (at_ 6)
  let high := turned (at_ 0) [2, 13, 22] + chosen (at_ 0 ^^^ at_ 1) (at_ 2) (at_ 0)
  (low + high) :: v.take 3 ++ (at_ 3 + low) :: (v.drop 4).take 3

/-- A block of sixteen words is taken into a hash value, eight rounds at a time. -/
def shaBlock (hash block : List (BitVec 32)) : List (BitVec 32) :=
  let w := block ++ shaSchedule 48 block
  let eight (v : List (BitVec 32)) (i : Nat) : List (BitVec 32) :=
    (List.zipWith (· + ·) (unpack8 (shaOctet i)) (w.drop (8 * i))).foldl shaRound v
  List.zipWith (· + ·) hash ((List.range 8).foldl eight hash)

/-- Blocks of sixteen words, `n` of them, are taken into a hash value. -/
def shaBlocks : Nat → List (BitVec 32) → List (BitVec 32) → List (BitVec 32)
  | 0, hash, _ => hash
  | n + 1, hash, ws => shaBlocks n (shaBlock hash (ws.take 16)) (ws.drop 16)

/-- SHA-256 of a byte list: padded to whole blocks with a one bit, zeros and its length in bits. -/
def sha256 (bs : List Byte) : List Byte :=
  let blocks := (bs.length + 72) / 64
  let fill := 64 * blocks - bs.length - 9
  let words := beWords (bs ++ 0x80#8 :: List.replicate fill 0#8 ++ beBytes 8 (8 * bs.length))
  (shaBlocks blocks (unpack8 shaStart) words).flatMap fun w => beBytes 4 w.toNat

/-- HMAC-SHA-256 (RFC 2104). -/
def hmacSha256 (key msg : List Byte) : List Byte :=
  let k := slice (if 64 < key.length then sha256 key else key) 0 64
  sha256 (k.map (· ^^^ 0x5c#8) ++ sha256 (k.map (· ^^^ 0x36#8) ++ msg))

end Sys2Proof.Machine
end

