-- ==== Sys2Proof/Machine/Catalog.lean ====
section
/-! DEFINITION. The object dictionary (R360 to R365 and the object tables of every chapter): each object's type, access
right, field class, element count, owning island, factory default and stated range. The constants of `Ix` are the
indices by name. -/

namespace Sys2Proof.Machine

/-- The types of R360. The numbers of `u` and `i` are widths in bytes; `table` gives record size and records. -/
inductive Ty where
  | bool | u (w : Nat) | i (w : Nat) | time80 | time96 | octets (n : Nat) | table (size count : Nat)
  deriving DecidableEq, Repr

/-- The access rights of R361. -/
inductive Access where
  | ro | rw | wo | rwb | rwg | wol | rc
  deriving DecidableEq, Repr

/-- The field classes of R362; `none` where neither the defining table nor R362 gives one (a WO object). -/
inductive FieldClass where
  | cfg | st | ct | sc | hv | lk | rc | none
  deriving DecidableEq, Repr

/-- What the subindex of an object counts (R2, R10, R56, R72, R170). -/
inductive Elements where
  | scalar | ports | lanes | sectors | queues | sources | streamGates | fixed (n : Nat)
  deriving DecidableEq, Repr

/-- Who owns each element (R13, R14). -/
inductive Owner where
  | island (i : Nat) | laneOf | portOf | laneSector | rigOf | queueOf | filterOf | streamGateOf
  deriving DecidableEq, Repr

/-- The values a write may carry: any, or a stated range with at most one value outside it. -/
inductive Range where
  | any | within (lo hi : Int) | withinOr (lo hi alt : Int)
  deriving DecidableEq, Repr

/-- One object of the dictionary. `fac` is the factory image of an element where no rule makes it depend on the element. -/
structure ObjDesc where
  idx : Nat
  ty : Ty
  acc : Access
  cls : FieldClass
  cnt : Elements
  own : Owner
  fac : Nat
  rng : Range
  deriving DecidableEq, Repr

/-! ### Indices by name -/

namespace Ix
abbrev deviceType : Nat := 0x1000
abbrev vendorId : Nat := 0x1001
abbrev serialNumber : Nat := 0x1002
abbrev firmwareVersion : Nat := 0x1003
abbrev siliconRevision : Nat := 0x1004
abbrev temperatureGrade : Nat := 0x1005
abbrev deviceMacBase : Nat := 0x1010
abbrev deviceIpv4 : Nat := 0x1011
abbrev deviceIpv6 : Nat := 0x1012
abbrev cormusEthertype : Nat := 0x1020
abbrev cormusUdpPort : Nat := 0x1021
abbrev cormusTagRequired : Nat := 0x1022
abbrev cormusTxClass : Nat := 0x1023
abbrev cormusRx : Nat := 0x1024
abbrev cormusRxDropped : Nat := 0x1025
abbrev cormusTagFails : Nat := 0x1026
abbrev cormusReplays : Nat := 0x1027
abbrev cormusCacheHits : Nat := 0x1028
abbrev t1sEnable : Nat := 0x1030
abbrev t1sPlcaEnable : Nat := 0x1031
abbrev t1sPlcaNodeId : Nat := 0x1032
abbrev t1sPlcaNodeCount : Nat := 0x1033
abbrev t1sPlcaToTimer : Nat := 0x1034
abbrev t1sPlcaBurstCount : Nat := 0x1035
abbrev t1sPlcaBurstTimer : Nat := 0x1036
abbrev t1sMode : Nat := 0x1037
abbrev t1sCollisions : Nat := 0x1038
abbrev t1sExcessCollisions : Nat := 0x1039
abbrev t1sPlcaFallbacks : Nat := 0x103A
abbrev wakeMask : Nat := 0x1040
abbrev wakeCrc : Nat := 0x1041
abbrev wakeAction : Nat := 0x1042
abbrev wakeMatches : Nat := 0x1043
abbrev wakeVector : Nat := 0x1044
abbrev mvDroppedWrites : Nat := 0x1060
abbrev mvLockedWrites : Nat := 0x1061
abbrev guardFailures : Nat := 0x1062
abbrev islandState : Nat := 0x2000
abbrev islandReset : Nat := 0x2001
abbrev islandClock : Nat := 0x2002
abbrev islandResetCount : Nat := 0x2003
abbrev timeBusLostCount : Nat := 0x2004
abbrev islandResetLast : Nat := 0x2005
abbrev applyGroup : Nat := 0x2010
abbrev applyNow : Nat := 0x2011
abbrev applyTime : Nat := 0x2012
abbrev applyDomain : Nat := 0x2013
abbrev applyArm : Nat := 0x2014
abbrev applyStatus : Nat := 0x2015
abbrev applyCount : Nat := 0x2016
abbrev applyLast : Nat := 0x2017
abbrev applyPending : Nat := 0x2018
abbrev applyDiscardCount : Nat := 0x2019
abbrev guaranteeState : Nat := 0x2020
abbrev guaranteeFaultPart : Nat := 0x2021
abbrev guaranteeLeftCount : Nat := 0x2022
abbrev guaranteeLeftCause : Nat := 0x2023
abbrev guaranteeClear : Nat := 0x2024
abbrev retainResetCount : Nat := 0x2025
abbrev walkHandlesRedispatched : Nat := 0x2026
abbrev walkPartialDiscards : Nat := 0x2027
abbrev walkLinkLost : Nat := 0x2028
abbrev resetResendCount : Nat := 0x2029
abbrev walkDuration : Nat := 0x202A
abbrev resetRequest : Nat := 0x2030
abbrev strapValues : Nat := 0x2031
abbrev supervisorWatchdogTime : Nat := 0x2032
abbrev supervisorRestartCount : Nat := 0x2033
abbrev startPhase : Nat := 0x2034
abbrev portMode : Nat := 0x3010
abbrev portFec : Nat := 0x3011
abbrev portFecActive : Nat := 0x3012
abbrev tsRxOffset : Nat := 0x3020
abbrev tsTxOffset : Nat := 0x3021
abbrev tsCalibrate : Nat := 0x3022
abbrev tsCalStatus : Nat := 0x3023
abbrev ptpPortDomains : Nat := 0x3024
abbrev ptpSyncInterval : Nat := 0x3025
abbrev ptpAnnounceInterval : Nat := 0x3026
abbrev ptpPdelayInterval : Nat := 0x3027
abbrev ptpAsymmetry : Nat := 0x3028
abbrev ptpPortState : Nat := 0x3029
abbrev ptpMeanLinkDelay : Nat := 0x302A
abbrev ptpRxMessages : Nat := 0x302B
abbrev ptpRxDropped : Nat := 0x302C
abbrev ptpTxClass : Nat := 0x302D
abbrev cormusPortEnable : Nat := 0x3030
abbrev portMaxFrame : Nat := 0x3100
abbrev portCutThrough : Nat := 0x3101
abbrev portPcpToTc : Nat := 0x3102
abbrev portDefaultTc : Nat := 0x3103
abbrev pmacEnable : Nat := 0x3110
abbrev pmacVerifyDisable : Nat := 0x3111
abbrev pmacVerifyTime : Nat := 0x3112
abbrev pmacAddFragSize : Nat := 0x3113
abbrev pmacVerifyStatus : Nat := 0x3114
abbrev rxAcceptedFrames : Nat := 0x3200
abbrev rxAcceptedOctets : Nat := 0x3201
abbrev rxRunt : Nat := 0x3202
abbrev rxOversize : Nat := 0x3203
abbrev rxFcsError : Nat := 0x3204
abbrev rxCodeError : Nat := 0x3205
abbrev rxNoIntake : Nat := 0x3206
abbrev rxReassemblyError : Nat := 0x3207
abbrev rxDuringReset : Nat := 0x3208
abbrev txFrames : Nat := 0x3209
abbrev txStomped : Nat := 0x320A
abbrev txSizeDrop : Nat := 0x320B
abbrev pmacFragmentsRx : Nat := 0x320C
abbrev pmacSmdError : Nat := 0x320D
abbrev fecCorrectedCw : Nat := 0x320E
abbrev fecUncorrectedCw : Nat := 0x320F
abbrev txBufferDrop : Nat := 0x3210
abbrev laneState : Nat := 0x3300
abbrev laneStatus : Nat := 0x3301
abbrev laneEnable : Nat := 0x3302
abbrev lanePolarity : Nat := 0x3303
abbrev laneTxFfe : Nat := 0x3304
abbrev laneRxCtleStart : Nat := 0x3305
abbrev laneRxCoeff : Nat := 0x3306
abbrev laneRxAnchor : Nat := 0x3307
abbrev laneAnchorWindow : Nat := 0x3308
abbrev laneIdleGuardTime : Nat := 0x3309
abbrev laneAnchorRefresh : Nat := 0x330A
abbrev laneAnchorRetake : Nat := 0x330B
abbrev laneLinkupTimeout : Nat := 0x330C
abbrev laneAdaptTimeout : Nat := 0x330D
abbrev laneLockTimeout : Nat := 0x330E
abbrev laneEyeMargin : Nat := 0x330F
abbrev laneTestMode : Nat := 0x3310
abbrev lanePrbsPattern : Nat := 0x3311
abbrev lanePrbsLock : Nat := 0x3312
abbrev lanePrbsErrors : Nat := 0x3313
abbrev laneLinkDownCount : Nat := 0x3314
abbrev laneBackoffs : Nat := 0x3315
abbrev laneCoeffReverts : Nat := 0x3316
abbrev laneTxSleepTime : Nat := 0x3317
abbrev laneRxSleepTime : Nat := 0x3318
abbrev laneAnEnable : Nat := 0x3319
abbrev tsCalARx : Nat := 0x3320
abbrev tsCalATx : Nat := 0x3321
abbrev portTxSleepEnable : Nat := 0x3340
abbrev portTxSleepIdle : Nat := 0x3341
abbrev portQuietPeriod : Nat := 0x3342
abbrev portTxWakes : Nat := 0x3343
abbrev laneRefStatus : Nat := 0x3380
abbrev laneRefLossCount : Nat := 0x3381
abbrev rigQueueDepth : Nat := 0x4000
abbrev stealEnable : Nat := 0x4001
abbrev stealLoadedDepth : Nat := 0x4002
abbrev stealBatch : Nat := 0x4003
abbrev awlWatchdogCycles : Nat := 0x4004
abbrev rigAutoReset : Nat := 0x4005
abbrev rigFenceLimit : Nat := 0x4006
abbrev awlsFenced : Nat := 0x4008
abbrev awlFenceMap : Nat := 0x4009
abbrev stealsBy : Nat := 0x4010
abbrev handlesStolenBy : Nat := 0x4011
abbrev handlesStolenFrom : Nat := 0x4012
abbrev awlParityFaults : Nat := 0x4013
abbrev awlWatchdogFaults : Nat := 0x4014
abbrev handlesRedispatched : Nat := 0x4015
abbrev rigFenceCount : Nat := 0x4016
abbrev stealRefused : Nat := 0x4017
abbrev programStage : Nat := 0x4020
abbrev programLoad : Nat := 0x4021
abbrev programStatus : Nat := 0x4022
abbrev programRejectCause : Nat := 0x4023
abbrev programSignedOnly : Nat := 0x4024
abbrev programDigest : Nat := 0x4025
abbrev programPendingDigest : Nat := 0x4026
abbrev programBuildId : Nat := 0x4027
abbrev programDefault : Nat := 0x4028
abbrev programRejectAt : Nat := 0x4029
abbrev xmKeyBits : Nat := 0x4100
abbrev xmCapacity : Nat := 0x4101
abbrev xmEntries : Nat := 0x4102
abbrev xmAgeTime : Nat := 0x4103
abbrev xmEntry : Nat := 0x4104
abbrev xmInsertFail : Nat := 0x4105
abbrev xmAged : Nat := 0x4106
abbrev tcPartFirst : Nat := 0x4110
abbrev tcPartSize : Nat := 0x4111
abbrev tcEntry : Nat := 0x4112
abbrev copyList : Nat := 0x4120
abbrev counter : Nat := 0x4130
abbrev bufferEccMode : Nat := 0x5000
abbrev bufferScrubPeriod : Nat := 0x5001
abbrev bufferCorrectedCount : Nat := 0x5002
abbrev bufferUncorrectableCount : Nat := 0x5003
abbrev bufferQuarantined : Nat := 0x5004
abbrev bufferFreeCells : Nat := 0x5005
abbrev guardIntakeCells : Nat := 0x5006
abbrev sharedPoolCells : Nat := 0x5008
abbrev queueMode : Nat := 0x5010
abbrev queueAlpha : Nat := 0x5011
abbrev queueGuardCells : Nat := 0x5012
abbrev queueDepthCells : Nat := 0x5013
abbrev intakeLimitCells : Nat := 0x5016
abbrev intakeGuarded : Nat := 0x5017
abbrev intakeCells : Nat := 0x5018
abbrev portHoldLimit : Nat := 0x5020
abbrev queueReleasedCount : Nat := 0x5021
abbrev orderMode : Nat := 0x5030
abbrev flowHashFields : Nat := 0x5031
abbrev keeperOutstanding : Nat := 0x5040
abbrev keeperWindowStalls : Nat := 0x5041
abbrev keeperFullStalls : Nat := 0x5042
abbrev keeperVoidRetires : Nat := 0x5043
abbrev keeperRetireNumber : Nat := 0x5044
abbrev enqueueDuplicateCount : Nat := 0x5045
abbrev commitDuplicateCount : Nat := 0x5046
abbrev programFaultCount : Nat := 0x5047
abbrev meterRefundCount : Nat := 0x5048
abbrev handleFaultLimit : Nat := 0x5049
abbrev packetPoisonCount : Nat := 0x504A
abbrev queueEnqueueSeq : Nat := 0x5050
abbrev programSwitch : Nat := 0x5060
abbrev programEpoch : Nat := 0x5061
abbrev queueSamplePeriod : Nat := 0x5070
abbrev queueSampleWindow : Nat := 0x5071
abbrev queueHistBase : Nat := 0x5072
abbrev queueStats : Nat := 0x5073
abbrev queueDepthBytes : Nat := 0x5074
abbrev queueHeadSojourn : Nat := 0x5075
abbrev portLengthOverhead : Nat := 0x5100
abbrev pmacExpressClasses : Nat := 0x5110
abbrev pmacHoldAdvance : Nat := 0x5111
abbrev pmacHoldState : Nat := 0x5112
abbrev pmacHoldCount : Nat := 0x5113
abbrev pmacPreempted : Nat := 0x5114
abbrev gateCycleTime : Nat := 0x5120
abbrev gateEnable : Nat := 0x5121
abbrev gateBaseTime : Nat := 0x5122
abbrev gateDomain : Nat := 0x5123
abbrev gateCycleExtension : Nat := 0x5124
abbrev gateInitialStates : Nat := 0x5125
abbrev gateAdminLength : Nat := 0x5126
abbrev gateAdminList : Nat := 0x5127
abbrev gateOperList : Nat := 0x5128
abbrev gateOperLength : Nat := 0x5129
abbrev gateOperCycleTime : Nat := 0x512A
abbrev gateOperBaseTime : Nat := 0x512B
abbrev gateChangeTime : Nat := 0x512C
abbrev gateConfigStatus : Nat := 0x512D
abbrev gateConfigChangeCount : Nat := 0x512E
abbrev gateConfigErrorCount : Nat := 0x512F
abbrev gateOperStates : Nat := 0x5130
abbrev gateGuardDeferrals : Nat := 0x5131
abbrev gateOverrunCount : Nat := 0x5132
abbrev gateWakeClasses : Nat := 0x5133
abbrev gateWakeMargin : Nat := 0x5134
abbrev cbsEnable : Nat := 0x5140
abbrev cbsIdleSlope : Nat := 0x5141
abbrev cbsCredit : Nat := 0x5142
abbrev tbEnable : Nat := 0x5143
abbrev tbRate : Nat := 0x5144
abbrev tbBurst : Nat := 0x5145
abbrev tbLevel : Nat := 0x5146
abbrev shaperForgive : Nat := 0x5147
abbrev streamFilter : Nat := 0x5200
abbrev streamFilterCounts : Nat := 0x5201
abbrev streamGateEnable : Nat := 0x5240
abbrev streamGateCycleTime : Nat := 0x5241
abbrev streamGateBaseTime : Nat := 0x5242
abbrev streamGateDomain : Nat := 0x5243
abbrev streamGateInitial : Nat := 0x5244
abbrev streamGateAdminLength : Nat := 0x5245
abbrev streamGateAdminList : Nat := 0x5246
abbrev streamGateFlags : Nat := 0x5247
abbrev streamGateState : Nat := 0x5248
abbrev streamGateReopen : Nat := 0x5249
abbrev streamGateEarly : Nat := 0x524A
abbrev streamGateLate : Nat := 0x524B
abbrev streamGateOctetsExceeded : Nat := 0x524C
abbrev streamGateConfigStatus : Nat := 0x524D
abbrev meter : Nat := 0x5280
abbrev streamIdMethods : Nat := 0x6000
abbrev rtagEthertype : Nat := 0x6001
abbrev streamHandle : Nat := 0x6010
abbrev recoveryFunc : Nat := 0x6020
abbrev recoveryCounts : Nat := 0x6021
abbrev recoveryReset : Nat := 0x6022
abbrev latentResetCount : Nat := 0x6023
abbrev seqGen : Nat := 0x6030
abbrev rawTime : Nat := 0x7000
abbrev meridianRefFreq : Nat := 0x7001
abbrev timeSnapshot : Nat := 0x7002
abbrev timeSnapshotValue : Nat := 0x7003
abbrev timeNow : Nat := 0x7010
abbrev timeRate : Nat := 0x7011
abbrev timeSet : Nat := 0x7012
abbrev timeAdjust : Nat := 0x7013
abbrev timeSlew : Nat := 0x7014
abbrev timeSlewRemaining : Nat := 0x7015
abbrev timeRateSet : Nat := 0x7016
abbrev timeStepCount : Nat := 0x7017
abbrev timeDomainState : Nat := 0x7018
abbrev timeRole : Nat := 0x7019
abbrev timeProfile : Nat := 0x701A
abbrev timePtpDomainNumber : Nat := 0x701B
abbrev timeTransport : Nat := 0x701C
abbrev timeTwoStep : Nat := 0x701D
abbrev timePriority1 : Nat := 0x701E
abbrev timePriority2 : Nat := 0x701F
abbrev timeClockClass : Nat := 0x7020
abbrev timeClockAccuracy : Nat := 0x7021
abbrev timeRateClamps : Nat := 0x7022
abbrev timeFlags : Nat := 0x7023
abbrev servoSource : Nat := 0x7040
abbrev servoSourceSel : Nat := 0x7041
abbrev servoKp : Nat := 0x7042
abbrev servoKi : Nat := 0x7043
abbrev servoStepThreshold : Nat := 0x7044
abbrev servoLockThreshold : Nat := 0x7045
abbrev servoLockCount : Nat := 0x7046
abbrev servoHoldoverTimeout : Nat := 0x7047
abbrev holdoverLimit : Nat := 0x7048
abbrev pdStepThreshold : Nat := 0x7049
abbrev pdStableIntervals : Nat := 0x704A
abbrev servoSlewLimit : Nat := 0x704B
abbrev servoAltPort : Nat := 0x704C
abbrev servoOffset : Nat := 0x704D
abbrev servoPathDelay : Nat := 0x704E
abbrev servoIntegrator : Nat := 0x704F
abbrev servoPathInUse : Nat := 0x7050
abbrev servoSamples : Nat := 0x7051
abbrev servoSamplesRejected : Nat := 0x7052
abbrev servoSteps : Nat := 0x7053
abbrev servoPdSteps : Nat := 0x7054
abbrev servoPathDisagree : Nat := 0x7055
abbrev servoAltOffset : Nat := 0x7056
abbrev quorumEnable : Nat := 0x7060
abbrev quorumMemberId : Nat := 0x7061
abbrev quorumWeights : Nat := 0x7062
abbrev quorumTiebreak : Nat := 0x7063
abbrev rollPeriod : Nat := 0x7064
abbrev quorumAge : Nat := 0x7065
abbrev quorumSeenWeight : Nat := 0x7066
abbrev quorumSeenMap : Nat := 0x7067
abbrev quorumState : Nat := 0x7068
abbrev quorumLosses : Nat := 0x7069
abbrev quorumConfigMismatch : Nat := 0x706A
abbrev rollCallOrgId : Nat := 0x706B
abbrev silenceThreshold : Nat := 0x7070
abbrev returnThreshold : Nat := 0x7071
abbrev returnIntervals : Nat := 0x7072
abbrev silenceClasses : Nat := 0x7073
abbrev silenceHoldover : Nat := 0x7074
abbrev silenceState : Nat := 0x7075
abbrev silenceCount : Nat := 0x7076
abbrev tioMode : Nat := 0x7100
abbrev tioDomain : Nat := 0x7101
abbrev tioStart : Nat := 0x7102
abbrev tioPeriod : Nat := 0x7103
abbrev tioWidth : Nat := 0x7104
abbrev tioConfig : Nat := 0x7105
abbrev tioEvent : Nat := 0x7106
abbrev tioOutDelay : Nat := 0x7107
abbrev tioInDelay : Nat := 0x7108
abbrev tioStatus : Nat := 0x7109
abbrev tioCapture : Nat := 0x710A
abbrev tioCaptureWaiting : Nat := 0x710B
abbrev tioCaptureLost : Nat := 0x710C
abbrev tioPpsOffset : Nat := 0x710D
abbrev tioEdges : Nat := 0x710E
abbrev henayRingEnable : Nat := 0x8000
abbrev henayRingId : Nat := 0x8001
abbrev henayTopology : Nat := 0x8002
abbrev henayOutPort : Nat := 0x8003
abbrev henayInPort : Nat := 0x8004
abbrev henayDomain : Nat := 0x8005
abbrev henayBaseTime : Nat := 0x8006
abbrev henayCycleTime : Nat := 0x8007
abbrev henayOutputOffset : Nat := 0x8008
abbrev henayInputOffset : Nat := 0x8009
abbrev henayGatherLead : Nat := 0x800A
abbrev henayRefDivider : Nat := 0x800B
abbrev henayLayout : Nat := 0x800C
abbrev henayLayoutCount : Nat := 0x800D
abbrev henayGatherBase : Nat := 0x800E
abbrev henayGatherSize : Nat := 0x800F
abbrev henayGatherList : Nat := 0x8010
abbrev henayScatterBase : Nat := 0x8011
abbrev henayScatterSize : Nat := 0x8012
abbrev henayScatterList : Nat := 0x8013
abbrev henayReadyAddr : Nat := 0x8014
abbrev henayReadyMode : Nat := 0x8015
abbrev henayStatusBase : Nat := 0x8016
abbrev henayStatusSlots : Nat := 0x8017
abbrev henayMsixVector : Nat := 0x8018
abbrev henayHealCycles : Nat := 0x8019
abbrev henayState : Nat := 0x801A
abbrev henayLayoutStatus : Nat := 0x801B
abbrev henayLayoutAt : Nat := 0x801C
abbrev henayCycleCounter : Nat := 0x801D
abbrev henayRoundTrip : Nat := 0x801E
abbrev henayLatchMargin : Nat := 0x801F
abbrev henayCyclesSent : Nat := 0x8020
abbrev henayNullSent : Nat := 0x8021
abbrev henayRxLate : Nat := 0x8022
abbrev henayRxDiscarded : Nat := 0x8023
abbrev henayRxMissing : Nat := 0x8024
abbrev henayRxOverrun : Nat := 0x8025
abbrev henayReceiptMismatch : Nat := 0x8026
abbrev henayTxDelayed : Nat := 0x8027
abbrev henayClaimsConfirmed : Nat := 0x8028
abbrev henayClaimsRefused : Nat := 0x8029
abbrev henayMasterRank : Nat := 0x8030
abbrev henayNodeId : Nat := 0x8031
abbrev henayMasterPriority : Nat := 0x8032
abbrev henayWatchPair : Nat := 0x8033
abbrev henayTakeoverMisses : Nat := 0x8034
abbrev henayListenTime : Nat := 0x8035
abbrev henayColdStart : Nat := 0x8036
abbrev henayClaimCycles : Nat := 0x8037
abbrev henaySafeImage : Nat := 0x8038
abbrev henayMasterNode : Nat := 0x8039
abbrev henayTakeovers : Nat := 0x803A
abbrev henayYields : Nat := 0x803B
abbrev henayBackoffs : Nat := 0x803C
abbrev henayDataInvalid : Nat := 0x803D
abbrev henayPtEnable : Nat := 0x8100
abbrev henayPtRingId : Nat := 0x8101
abbrev henayPtPortA : Nat := 0x8102
abbrev henayPtPortB : Nat := 0x8103
abbrev henayPtAddress : Nat := 0x8104
abbrev henayPtDomain : Nat := 0x8105
abbrev henayPtBaseTime : Nat := 0x8106
abbrev henayPtCycleTime : Nat := 0x8107
abbrev henayPtOutputOffset : Nat := 0x8108
abbrev henayPtInputOffset : Nat := 0x8109
abbrev henayPtGatherBase : Nat := 0x810A
abbrev henayPtGatherSize : Nat := 0x810B
abbrev henayPtGatherList : Nat := 0x810C
abbrev henayPtScatterBase : Nat := 0x810D
abbrev henayPtScatterSize : Nat := 0x810E
abbrev henayPtScatterList : Nat := 0x810F
abbrev henayPtStatusAddr : Nat := 0x8110
abbrev henayPtLinkDelayA : Nat := 0x8111
abbrev henayPtLinkDelayB : Nat := 0x8112
abbrev henayPtSampleDivider : Nat := 0x8113
abbrev henayPtClaim : Nat := 0x8114
abbrev henayPtClaimState : Nat := 0x8115
abbrev henayPtClaimSlot : Nat := 0x8116
abbrev henayPtState : Nat := 0x8117
abbrev henayPtResidence : Nat := 0x8118
abbrev henayPtFrames : Nat := 0x8119
abbrev henayPtServed : Nat := 0x811A
abbrev henayPtNotReady : Nat := 0x811B
abbrev henayPtRangeErrors : Nat := 0x811C
abbrev henayPtLateOutputs : Nat := 0x811D
abbrev henayPtNullSeen : Nat := 0x811E
abbrev henayPtOutOfStep : Nat := 0x811F
abbrev henayEthertype : Nat := 0x8F00
abbrev henayDestMac : Nat := 0x8F01
abbrev henayVlan : Nat := 0x8F02
abbrev henaySource : Nat := 0x8F10
abbrev hostPortMaxFrame : Nat := 0x9010
abbrev hostPortHomeSector : Nat := 0x9011
abbrev hostRxDefaultChannel : Nat := 0x9012
abbrev hostRxNoChannel : Nat := 0x9013
abbrev hostRxSizeDrop : Nat := 0x9014
abbrev pmeAgeThreshold : Nat := 0x9020
abbrev pmeSent : Nat := 0x9021
abbrev l1ExitForInterrupt : Nat := 0x9022
abbrev doorbellIgnored : Nat := 0x9030
abbrev ownMissingCount : Nat := 0x9031
abbrev flrAbandoned : Nat := 0x9032
abbrev launchLateSent : Nat := 0x9033
abbrev launchExpired : Nat := 0x9034
abbrev cringEnable : Nat := 0x9100
abbrev cringBase : Nat := 0x9101
abbrev cringSize : Nat := 0x9102
abbrev cringIndexAddr : Nat := 0x9103
abbrev cringBacklog : Nat := 0x9104
abbrev cringFullStalls : Nat := 0x9105
abbrev cringRecords : Nat := 0x9106
abbrev vecModCount : Nat := 0x9200
abbrev vecModTime : Nat := 0x9201
abbrev vecPending : Nat := 0x9202
abbrev vecMessages : Nat := 0x9203
abbrev dmaMode : Nat := 0x9300
abbrev chTableBase : Nat := 0x9301
abbrev chInvalidate : Nat := 0x9302
abbrev chAbort : Nat := 0x9303
abbrev dmaStageUsed : Nat := 0x9304
abbrev dmaCacheUsed : Nat := 0x9305
abbrev dmaCacheMisses : Nat := 0x9306
abbrev dmaCacheFull : Nat := 0x9307
abbrev chStatus : Nat := 0x9400
abbrev chHaltCause : Nat := 0x9401
abbrev chHaltIndex : Nat := 0x9402
abbrev chRestart : Nat := 0x9403
abbrev chCacheState : Nat := 0x9404
abbrev chShadow : Nat := 0x9405
abbrev chShadowArm : Nat := 0x9406
abbrev chEpoch : Nat := 0x9407
abbrev chEpochIndex : Nat := 0x9408
abbrev chAbortResult : Nat := 0x9409
abbrev chRetries : Nat := 0x940A
abbrev chBytes : Nat := 0x940B
abbrev chUnits : Nat := 0x940C
abbrev chRateLevel : Nat := 0x940D
abbrev memEnable : Nat := 0xA000
abbrev memRate : Nat := 0xA001
abbrev memChDensity : Nat := 0xA002
abbrev memMirrorSize : Nat := 0xA003
abbrev memState : Nat := 0xA004
abbrev memAddressLimit : Nat := 0xA005
abbrev memScrubPeriod : Nat := 0xA006
abbrev memScrubPasses : Nat := 0xA007
abbrev memRetrainPeriod : Nat := 0xA008
abbrev memChFailLimit : Nat := 0xA009
abbrev memChState : Nat := 0xA010
abbrev memChRestore : Nat := 0xA011
abbrev memCorrected : Nat := 0xA012
abbrev memUncorrectable : Nat := 0xA013
abbrev memMirrorRepairs : Nat := 0xA014
abbrev memRetrains : Nat := 0xA015
abbrev memRmw : Nat := 0xA016
abbrev memTemp : Nat := 0xA017
abbrev memChFails : Nat := 0xA018
abbrev imageCommand : Nat := 0xA100
abbrev imageStatus : Nat := 0xA101
abbrev imageActiveSlot : Nat := 0xA102
abbrev imageSequence : Nat := 0xA103
abbrev imageDigest : Nat := 0xA104
abbrev imageSkipped : Nat := 0xA105
abbrev imageDiffCount : Nat := 0xA106
abbrev imageDiffFirst : Nat := 0xA107
abbrev imageFailCause : Nat := 0xA108
abbrev imageStage : Nat := 0xA109
abbrev imageRead : Nat := 0xA10A
abbrev nvState : Nat := 0xA200
abbrev nvWritesHeld : Nat := 0xA201
abbrev nvHoldOverflow : Nat := 0xA202
abbrev nvBytesWritten : Nat := 0xA203
abbrev nvUser : Nat := 0xA204
abbrev fwStage : Nat := 0xA210
abbrev fwCommand : Nat := 0xA211
abbrev fwStatus : Nat := 0xA212
abbrev fwActiveSlot : Nat := 0xA213
abbrev fwSequence : Nat := 0xA214
abbrev fwFallback : Nat := 0xA215
abbrev fwFailCause : Nat := 0xA216
abbrev rootKeyStatus : Nat := 0xB001
abbrev rootKeyRevoke : Nat := 0xB002
abbrev fwSecurityVersion : Nat := 0xB003
abbrev fwMinSecurity : Nat := 0xB004
abbrev fwMinSecurityRaise : Nat := 0xB005
abbrev fwDigest : Nat := 0xB006
abbrev ownerKey : Nat := 0xB008
abbrev cormusKey : Nat := 0xB010
abbrev cormusKeyCounter : Nat := 0xB011
abbrev identityPublicKey : Nat := 0xB020
abbrev identityCertChain : Nat := 0xB021
abbrev signNextLeaf : Nat := 0xB022
abbrev signRemaining : Nat := 0xB023
abbrev signWarnLevel : Nat := 0xB024
abbrev quoteNonce : Nat := 0xB030
abbrev quoteDomain : Nat := 0xB031
abbrev quoteRequest : Nat := 0xB032
abbrev quoteStatus : Nat := 0xB033
abbrev quote : Nat := 0xB034
abbrev quoteMinInterval : Nat := 0xB035
abbrev quoteCount : Nat := 0xB036
abbrev eventLog : Nat := 0xC000
abbrev eventNewest : Nat := 0xC001
abbrev eventReadMark : Nat := 0xC002
abbrev eventOverrun : Nat := 0xC003
abbrev eventLost : Nat := 0xC004
abbrev eventVector : Nat := 0xC005
abbrev eventIrqSeverity : Nat := 0xC006
abbrev bootNumber : Nat := 0xC007
abbrev resetCauseLast : Nat := 0xC008
abbrev resetCauseRail : Nat := 0xC009
abbrev islandLifeDays : Nat := 0xC040
abbrev islandLifeLower : Nat := 0xC041
abbrev islandWearHours : Nat := 0xC042
abbrev islandTempHours : Nat := 0xC043
abbrev islandBenchDelta : Nat := 0xC044
abbrev islandTemp : Nat := 0xC045
abbrev deviceLifeDays : Nat := 0xC046
abbrev deviceLifeLower : Nat := 0xC047
abbrev wearGrade : Nat := 0xC048
abbrev wearWarnGrade : Nat := 0xC049
abbrev lifeWarnDays : Nat := 0xC04A
abbrev lifeIncludeEye : Nat := 0xC04B
abbrev eyeMarginFloor : Nat := 0xC04C
abbrev laneEyeDays : Nat := 0xC04D
abbrev tempSensor : Nat := 0xC050
abbrev railVoltage : Nat := 0xC080
abbrev railWarnPercent : Nat := 0xC081
abbrev railResetPercent : Nat := 0xC082
abbrev supplyHysteresis : Nat := 0xC083
abbrev supplyDipCount : Nat := 0xC084
abbrev railMinVoltage : Nat := 0xC085
abbrev supplyState : Nat := 0xC086
abbrev avsSetpoint : Nat := 0xC087
abbrev pmbusAddress : Nat := 0xC088
abbrev pmbusErrors : Nat := 0xC089
abbrev avsMargin : Nat := 0xC08A
abbrev avsMarginTarget : Nat := 0xC08B
abbrev thermalWarn : Nat := 0xC090
abbrev tempMax : Nat := 0xC091
abbrev thermalTrips : Nat := 0xC092
abbrev surveyEnable : Nat := 0xC100
abbrev surveyFlowBits : Nat := 0xC101
abbrev surveyFlowSample : Nat := 0xC102
abbrev surveyHistBase : Nat := 0xC103
abbrev surveyReduceLost : Nat := 0xC104
abbrev surveyFlowBase : Nat := 0xC105
abbrev postcardKind : Nat := 0xC110
abbrev postcardDest : Nat := 0xC111
abbrev postcardSample : Nat := 0xC112
abbrev postcardCondition : Nat := 0xC113
abbrev postcardThreshold : Nat := 0xC114
abbrev postcardEthertype : Nat := 0xC115
abbrev postcardMac : Nat := 0xC116
abbrev postcardSent : Nat := 0xC117
abbrev postcardDropped : Nat := 0xC118
abbrev postcardFlush : Nat := 0xC119
end Ix

/-- Objects at 1xxxh, part 1: identity, Cormus, management port. -/
def objects1a : List ObjDesc := [
  ⟨Ix.deviceType, .u 4, .ro, .hv, .scalar, .island 55, 0, .any⟩,
  ⟨Ix.vendorId, .u 2, .ro, .hv, .scalar, .island 55, 7994, .any⟩,
  ⟨Ix.serialNumber, .octets 16, .ro, .hv, .scalar, .island 55, 0, .any⟩,
  ⟨Ix.firmwareVersion, .u 4, .ro, .hv, .scalar, .island 55, 0, .any⟩,
  ⟨Ix.siliconRevision, .u 2, .ro, .hv, .scalar, .island 55, 0, .any⟩,
  ⟨Ix.temperatureGrade, .u 1, .ro, .hv, .scalar, .island 55, 0, .any⟩,
  ⟨Ix.deviceMacBase, .octets 6, .rw, .cfg, .scalar, .island 55, 0, .any⟩,
  ⟨Ix.deviceIpv4, .octets 4, .rw, .cfg, .scalar, .island 55, 0, .any⟩,
  ⟨Ix.deviceIpv6, .octets 16, .rw, .cfg, .scalar, .island 55, 0, .any⟩,
  ⟨Ix.cormusEthertype, .u 2, .rw, .cfg, .scalar, .island 55, 34997, .any⟩,
  ⟨Ix.cormusUdpPort, .u 2, .rw, .cfg, .scalar, .island 55, 48620, .any⟩,
  ⟨Ix.cormusTagRequired, .bool, .rw, .cfg, .scalar, .island 55, 0, .within 0 1⟩,
  ⟨Ix.cormusTxClass, .u 1, .rw, .cfg, .scalar, .island 55, 6, .within 0 7⟩,
  ⟨Ix.cormusRx, .u 8, .ro, .hv, .scalar, .island 55, 0, .any⟩,
  ⟨Ix.cormusRxDropped, .u 8, .ro, .hv, .scalar, .island 55, 0, .any⟩,
  ⟨Ix.cormusTagFails, .u 8, .ro, .hv, .scalar, .island 55, 0, .any⟩,
  ⟨Ix.cormusReplays, .u 8, .ro, .hv, .scalar, .island 55, 0, .any⟩,
  ⟨Ix.cormusCacheHits, .u 8, .ro, .hv, .scalar, .island 55, 0, .any⟩,
  ⟨Ix.t1sEnable, .bool, .rwb, .cfg, .scalar, .island 55, 1, .within 0 1⟩,
  ⟨Ix.t1sPlcaEnable, .bool, .rwb, .cfg, .scalar, .island 55, 0, .within 0 1⟩,
  ⟨Ix.t1sPlcaNodeId, .u 1, .rwb, .cfg, .scalar, .island 55, 1, .within 0 254⟩,
  ⟨Ix.t1sPlcaNodeCount, .u 1, .rwb, .cfg, .scalar, .island 55, 8, .within 1 255⟩,
  ⟨Ix.t1sPlcaToTimer, .u 1, .rwb, .cfg, .scalar, .island 55, 32, .within 1 255⟩,
  ⟨Ix.t1sPlcaBurstCount, .u 1, .rwb, .cfg, .scalar, .island 55, 0, .within 0 255⟩,
  ⟨Ix.t1sPlcaBurstTimer, .u 1, .rwb, .cfg, .scalar, .island 55, 128, .within 1 255⟩]

/-- Objects at 1xxxh, part 2: identity, Cormus, management port. -/
def objects1b : List ObjDesc := [
  ⟨Ix.t1sMode, .u 1, .ro, .hv, .scalar, .island 55, 0, .any⟩,
  ⟨Ix.t1sCollisions, .u 8, .ro, .hv, .scalar, .island 55, 0, .any⟩,
  ⟨Ix.t1sExcessCollisions, .u 8, .ro, .hv, .scalar, .island 55, 0, .any⟩,
  ⟨Ix.t1sPlcaFallbacks, .u 4, .ro, .hv, .scalar, .island 55, 0, .any⟩,
  ⟨Ix.wakeMask, .octets 128, .rw, .cfg, .fixed 8, .island 55, 0, .any⟩,
  ⟨Ix.wakeCrc, .u 2, .rw, .cfg, .fixed 8, .island 55, 0, .any⟩,
  ⟨Ix.wakeAction, .u 1, .rw, .cfg, .fixed 8, .island 55, 0, .within 0 7⟩,
  ⟨Ix.wakeMatches, .u 8, .ro, .hv, .fixed 8, .island 55, 0, .any⟩,
  ⟨Ix.wakeVector, .u 2, .rw, .cfg, .scalar, .island 55, 65535, .withinOr 0 2047 65535⟩,
  ⟨Ix.mvDroppedWrites, .u 8, .ro, .hv, .scalar, .island 55, 0, .any⟩,
  ⟨Ix.mvLockedWrites, .u 8, .ro, .hv, .scalar, .island 55, 0, .any⟩,
  ⟨Ix.guardFailures, .u 8, .ro, .hv, .scalar, .island 55, 0, .any⟩]

/-- Objects at 2xxxh, part 1: islands, apply, guarantee, resets. -/
def objects2a : List ObjDesc := [
  ⟨Ix.islandState, .u 1, .ro, .hv, .fixed 56, .island 55, 0, .any⟩,
  ⟨Ix.islandReset, .u 1, .rwg, .sc, .scalar, .island 55, 255, .any⟩,
  ⟨Ix.islandClock, .u 2, .ro, .hv, .fixed 56, .island 55, 0, .any⟩,
  ⟨Ix.islandResetCount, .u 4, .ro, .hv, .fixed 56, .island 55, 0, .any⟩,
  ⟨Ix.timeBusLostCount, .u 4, .ro, .hv, .fixed 56, .island 55, 0, .any⟩,
  ⟨Ix.islandResetLast, .u 1, .ro, .hv, .scalar, .island 55, 255, .any⟩,
  ⟨Ix.applyGroup, .u 1, .rw, .cfg, .fixed 56, .island 55, 0, .within 0 15⟩,
  ⟨Ix.applyNow, .u 2, .wo, .none, .scalar, .island 55, 0, .any⟩,
  ⟨Ix.applyTime, .time80, .rw, .cfg, .fixed 16, .island 55, 0, .any⟩,
  ⟨Ix.applyDomain, .u 1, .rw, .cfg, .fixed 16, .island 55, 0, .within 0 3⟩,
  ⟨Ix.applyArm, .u 1, .rw, .sc, .fixed 16, .island 55, 0, .within 0 1⟩,
  ⟨Ix.applyStatus, .u 1, .ro, .hv, .fixed 16, .island 55, 0, .any⟩,
  ⟨Ix.applyCount, .u 4, .ro, .hv, .fixed 16, .island 55, 0, .any⟩,
  ⟨Ix.applyLast, .time80, .ro, .hv, .fixed 16, .island 55, 0, .any⟩,
  ⟨Ix.applyPending, .u 2, .ro, .hv, .fixed 56, .island 55, 0, .any⟩,
  ⟨Ix.applyDiscardCount, .u 4, .ro, .hv, .fixed 56, .island 55, 0, .any⟩,
  ⟨Ix.guaranteeState, .u 1, .ro, .hv, .scalar, .island 55, 0, .any⟩,
  ⟨Ix.guaranteeFaultPart, .u 2, .ro, .hv, .scalar, .island 55, 65535, .any⟩,
  ⟨Ix.guaranteeLeftCount, .u 4, .ro, .hv, .scalar, .island 55, 0, .any⟩,
  ⟨Ix.guaranteeLeftCause, .u 2, .ro, .hv, .scalar, .island 55, 0, .any⟩,
  ⟨Ix.guaranteeClear, .u 1, .rw, .sc, .scalar, .island 55, 0, .within 0 1⟩,
  ⟨Ix.retainResetCount, .u 4, .ro, .hv, .scalar, .island 55, 0, .any⟩,
  ⟨Ix.walkHandlesRedispatched, .u 4, .ro, .hv, .scalar, .island 55, 0, .any⟩,
  ⟨Ix.walkPartialDiscards, .u 4, .ro, .hv, .scalar, .island 55, 0, .any⟩,
  ⟨Ix.walkLinkLost, .u 8, .ro, .hv, .scalar, .island 55, 0, .any⟩]

/-- Objects at 2xxxh, part 2: islands, apply, guarantee, resets. -/
def objects2b : List ObjDesc := [
  ⟨Ix.resetResendCount, .u 8, .ro, .hv, .scalar, .island 55, 0, .any⟩,
  ⟨Ix.walkDuration, .u 4, .ro, .hv, .scalar, .island 55, 0, .any⟩,
  ⟨Ix.resetRequest, .u 1, .rwg, .sc, .scalar, .island 55, 0, .within 1 2⟩,
  ⟨Ix.strapValues, .u 1, .ro, .hv, .scalar, .island 55, 0, .any⟩,
  ⟨Ix.supervisorWatchdogTime, .u 2, .rw, .cfg, .scalar, .island 55, 100, .within 10 10000⟩,
  ⟨Ix.supervisorRestartCount, .u 4, .ro, .hv, .scalar, .island 55, 0, .any⟩,
  ⟨Ix.startPhase, .u 1, .ro, .hv, .scalar, .island 55, 0, .any⟩]

/-- Objects at 3xxxh, part 1: lanes, ports, timestamps. -/
def objects3a : List ObjDesc := [
  ⟨Ix.portMode, .u 1, .rwb, .cfg, .ports, .laneOf, 4, .within 0 7⟩,
  ⟨Ix.portFec, .u 1, .rwb, .cfg, .ports, .laneOf, 2, .any⟩,
  ⟨Ix.portFecActive, .u 1, .ro, .hv, .ports, .laneOf, 0, .any⟩,
  ⟨Ix.tsRxOffset, .i 4, .rwb, .cfg, .ports, .laneOf, 0, .any⟩,
  ⟨Ix.tsTxOffset, .i 4, .rwb, .cfg, .ports, .laneOf, 0, .any⟩,
  ⟨Ix.tsCalibrate, .u 1, .rw, .sc, .ports, .laneOf, 0, .within 0 1⟩,
  ⟨Ix.tsCalStatus, .u 1, .ro, .hv, .ports, .laneOf, 0, .any⟩,
  ⟨Ix.ptpPortDomains, .u 1, .rwb, .cfg, .ports, .portOf, 0, .within 0 15⟩,
  ⟨Ix.ptpSyncInterval, .i 1, .rwb, .cfg, .ports, .portOf, 253, .within (-7) 4⟩,
  ⟨Ix.ptpAnnounceInterval, .i 1, .rwb, .cfg, .ports, .portOf, 0, .within (-3) 4⟩,
  ⟨Ix.ptpPdelayInterval, .i 1, .rwb, .cfg, .ports, .portOf, 0, .within (-7) 4⟩,
  ⟨Ix.ptpAsymmetry, .i 4, .rwb, .cfg, .ports, .portOf, 0, .any⟩,
  ⟨Ix.ptpPortState, .u 4, .ro, .hv, .ports, .portOf, 0, .any⟩,
  ⟨Ix.ptpMeanLinkDelay, .i 8, .ro, .hv, .ports, .portOf, 0, .any⟩,
  ⟨Ix.ptpRxMessages, .u 8, .ro, .hv, .ports, .portOf, 0, .any⟩,
  ⟨Ix.ptpRxDropped, .u 8, .ro, .hv, .ports, .portOf, 0, .any⟩,
  ⟨Ix.ptpTxClass, .u 1, .rwb, .cfg, .ports, .portOf, 6, .within 0 7⟩,
  ⟨Ix.cormusPortEnable, .bool, .rwb, .cfg, .ports, .portOf, 0, .within 0 1⟩,
  ⟨Ix.portMaxFrame, .u 2, .rwb, .cfg, .ports, .portOf, 2000, .within 64 16384⟩,
  ⟨Ix.portCutThrough, .bool, .rwb, .cfg, .ports, .portOf, 1, .within 0 1⟩,
  ⟨Ix.portPcpToTc, .u 4, .rwb, .cfg, .ports, .portOf, 1985229328, .any⟩,
  ⟨Ix.portDefaultTc, .u 1, .rwb, .cfg, .ports, .portOf, 0, .within 0 7⟩,
  ⟨Ix.pmacEnable, .bool, .rwb, .cfg, .ports, .portOf, 0, .within 0 1⟩,
  ⟨Ix.pmacVerifyDisable, .bool, .rwb, .cfg, .ports, .portOf, 0, .within 0 1⟩,
  ⟨Ix.pmacVerifyTime, .u 1, .rwb, .cfg, .ports, .portOf, 10, .within 1 128⟩]

/-- Objects at 3xxxh, part 2: lanes, ports, timestamps. -/
def objects3b : List ObjDesc := [
  ⟨Ix.pmacAddFragSize, .u 1, .rwb, .cfg, .ports, .portOf, 0, .within 0 3⟩,
  ⟨Ix.pmacVerifyStatus, .u 1, .ro, .hv, .ports, .portOf, 0, .any⟩,
  ⟨Ix.rxAcceptedFrames, .u 8, .ro, .hv, .ports, .portOf, 0, .any⟩,
  ⟨Ix.rxAcceptedOctets, .u 8, .ro, .hv, .ports, .portOf, 0, .any⟩,
  ⟨Ix.rxRunt, .u 8, .ro, .hv, .ports, .portOf, 0, .any⟩,
  ⟨Ix.rxOversize, .u 8, .ro, .hv, .ports, .portOf, 0, .any⟩,
  ⟨Ix.rxFcsError, .u 8, .ro, .hv, .ports, .portOf, 0, .any⟩,
  ⟨Ix.rxCodeError, .u 8, .ro, .hv, .ports, .portOf, 0, .any⟩,
  ⟨Ix.rxNoIntake, .u 8, .ro, .hv, .ports, .portOf, 0, .any⟩,
  ⟨Ix.rxReassemblyError, .u 8, .ro, .hv, .ports, .portOf, 0, .any⟩,
  ⟨Ix.rxDuringReset, .u 8, .ro, .hv, .ports, .portOf, 0, .any⟩,
  ⟨Ix.txFrames, .u 8, .ro, .hv, .ports, .portOf, 0, .any⟩,
  ⟨Ix.txStomped, .u 8, .ro, .hv, .ports, .portOf, 0, .any⟩,
  ⟨Ix.txSizeDrop, .u 8, .ro, .hv, .ports, .portOf, 0, .any⟩,
  ⟨Ix.pmacFragmentsRx, .u 8, .ro, .hv, .ports, .portOf, 0, .any⟩,
  ⟨Ix.pmacSmdError, .u 8, .ro, .hv, .ports, .portOf, 0, .any⟩,
  ⟨Ix.fecCorrectedCw, .u 8, .ro, .hv, .ports, .portOf, 0, .any⟩,
  ⟨Ix.fecUncorrectedCw, .u 8, .ro, .hv, .ports, .portOf, 0, .any⟩,
  ⟨Ix.txBufferDrop, .u 8, .ro, .hv, .ports, .portOf, 0, .any⟩,
  ⟨Ix.laneState, .u 1, .ro, .hv, .lanes, .laneOf, 0, .any⟩,
  ⟨Ix.laneStatus, .u 1, .ro, .hv, .lanes, .laneOf, 0, .any⟩,
  ⟨Ix.laneEnable, .bool, .rwb, .cfg, .lanes, .laneOf, 1, .within 0 1⟩,
  ⟨Ix.lanePolarity, .u 1, .rwb, .cfg, .lanes, .laneOf, 0, .within 0 3⟩,
  ⟨Ix.laneTxFfe, .u 4, .rwb, .cfg, .lanes, .laneOf, 0, .any⟩,
  ⟨Ix.laneRxCtleStart, .u 1, .rwb, .cfg, .lanes, .laneOf, 255, .withinOr 0 31 255⟩]

/-- Objects at 3xxxh, part 3: lanes, ports, timestamps. -/
def objects3c : List ObjDesc := [
  ⟨Ix.laneRxCoeff, .octets 16, .ro, .hv, .lanes, .laneOf, 0, .any⟩,
  ⟨Ix.laneRxAnchor, .octets 16, .ro, .hv, .lanes, .laneOf, 0, .any⟩,
  ⟨Ix.laneAnchorWindow, .u 1, .rwb, .cfg, .lanes, .laneOf, 8, .within 1 64⟩,
  ⟨Ix.laneIdleGuardTime, .u 4, .rwb, .cfg, .lanes, .laneOf, 50, .within 1 1000000⟩,
  ⟨Ix.laneAnchorRefresh, .u 4, .rwb, .cfg, .lanes, .laneOf, 600, .within 0 86400⟩,
  ⟨Ix.laneAnchorRetake, .u 1, .rw, .sc, .lanes, .laneOf, 0, .within 0 1⟩,
  ⟨Ix.laneLinkupTimeout, .u 4, .rwb, .cfg, .lanes, .laneOf, 500, .within 10 60000⟩,
  ⟨Ix.laneAdaptTimeout, .u 2, .rwb, .cfg, .lanes, .laneOf, 20, .within 1 1000⟩,
  ⟨Ix.laneLockTimeout, .u 2, .rwb, .cfg, .lanes, .laneOf, 10, .within 2 1000⟩,
  ⟨Ix.laneEyeMargin, .u 4, .ro, .hv, .lanes, .laneOf, 0, .any⟩,
  ⟨Ix.laneTestMode, .u 1, .rwb, .cfg, .lanes, .laneOf, 0, .within 0 4⟩,
  ⟨Ix.lanePrbsPattern, .u 1, .rwb, .cfg, .lanes, .laneOf, 5, .within 0 7⟩,
  ⟨Ix.lanePrbsLock, .bool, .ro, .hv, .lanes, .laneOf, 0, .within 0 1⟩,
  ⟨Ix.lanePrbsErrors, .u 8, .ro, .hv, .lanes, .laneOf, 0, .any⟩,
  ⟨Ix.laneLinkDownCount, .u 4, .ro, .hv, .lanes, .laneOf, 0, .any⟩,
  ⟨Ix.laneBackoffs, .u 4, .ro, .hv, .lanes, .laneOf, 0, .any⟩,
  ⟨Ix.laneCoeffReverts, .u 8, .ro, .hv, .lanes, .laneOf, 0, .any⟩,
  ⟨Ix.laneTxSleepTime, .u 8, .ro, .hv, .lanes, .laneOf, 0, .any⟩,
  ⟨Ix.laneRxSleepTime, .u 8, .ro, .hv, .lanes, .laneOf, 0, .any⟩,
  ⟨Ix.laneAnEnable, .bool, .rwb, .cfg, .lanes, .laneOf, 1, .within 0 1⟩,
  ⟨Ix.tsCalARx, .i 4, .rw, .cfg, .lanes, .laneOf, 0, .any⟩,
  ⟨Ix.tsCalATx, .i 4, .rw, .cfg, .lanes, .laneOf, 0, .any⟩,
  ⟨Ix.portTxSleepEnable, .bool, .rwb, .cfg, .ports, .laneOf, 0, .within 0 1⟩,
  ⟨Ix.portTxSleepIdle, .u 4, .rwb, .cfg, .ports, .laneOf, 100, .within 1 1000000⟩,
  ⟨Ix.portQuietPeriod, .u 2, .rwb, .cfg, .ports, .laneOf, 100, .within 10 1000⟩]

/-- Objects at 3xxxh, part 4: lanes, ports, timestamps. -/
def objects3d : List ObjDesc := [
  ⟨Ix.portTxWakes, .u 8, .ro, .hv, .ports, .laneOf, 0, .any⟩,
  ⟨Ix.laneRefStatus, .u 1, .ro, .hv, .sectors, .laneSector, 0, .any⟩,
  ⟨Ix.laneRefLossCount, .u 4, .ro, .hv, .sectors, .laneSector, 0, .any⟩]

/-- Objects at 4xxxh, part 1: rigs, programs, tables. -/
def objects4a : List ObjDesc := [
  ⟨Ix.rigQueueDepth, .u 2, .ro, .hv, .sectors, .rigOf, 0, .any⟩,
  ⟨Ix.stealEnable, .bool, .rwb, .cfg, .sectors, .rigOf, 1, .within 0 1⟩,
  ⟨Ix.stealLoadedDepth, .u 2, .rwb, .cfg, .sectors, .rigOf, 64, .within 16 960⟩,
  ⟨Ix.stealBatch, .u 1, .rwb, .cfg, .sectors, .rigOf, 16, .within 1 16⟩,
  ⟨Ix.awlWatchdogCycles, .u 4, .rwb, .cfg, .sectors, .rigOf, 2048, .within 256 1048576⟩,
  ⟨Ix.rigAutoReset, .bool, .rwb, .cfg, .sectors, .rigOf, 1, .within 0 1⟩,
  ⟨Ix.rigFenceLimit, .u 1, .rwb, .cfg, .sectors, .rigOf, 8, .within 1 255⟩,
  ⟨Ix.awlsFenced, .u 2, .ro, .hv, .sectors, .rigOf, 0, .any⟩,
  ⟨Ix.awlFenceMap, .octets 32, .ro, .hv, .sectors, .rigOf, 0, .any⟩,
  ⟨Ix.stealsBy, .u 8, .ro, .hv, .sectors, .rigOf, 0, .any⟩,
  ⟨Ix.handlesStolenBy, .u 8, .ro, .hv, .sectors, .rigOf, 0, .any⟩,
  ⟨Ix.handlesStolenFrom, .u 8, .ro, .hv, .sectors, .rigOf, 0, .any⟩,
  ⟨Ix.awlParityFaults, .u 8, .ro, .hv, .sectors, .rigOf, 0, .any⟩,
  ⟨Ix.awlWatchdogFaults, .u 8, .ro, .hv, .sectors, .rigOf, 0, .any⟩,
  ⟨Ix.handlesRedispatched, .u 8, .ro, .hv, .sectors, .rigOf, 0, .any⟩,
  ⟨Ix.rigFenceCount, .u 4, .ro, .hv, .sectors, .rigOf, 0, .any⟩,
  ⟨Ix.stealRefused, .u 8, .ro, .hv, .sectors, .rigOf, 0, .any⟩,
  ⟨Ix.programStage, .table 1 147456, .rw, .cfg, .scalar, .island 32, 0, .any⟩,
  ⟨Ix.programLoad, .u 1, .rw, .sc, .scalar, .island 32, 0, .within 0 1⟩,
  ⟨Ix.programStatus, .u 1, .ro, .hv, .scalar, .island 32, 0, .any⟩,
  ⟨Ix.programRejectCause, .u 1, .ro, .hv, .scalar, .island 32, 0, .any⟩,
  ⟨Ix.programSignedOnly, .bool, .wol, .lk, .scalar, .island 32, 0, .within 0 1⟩,
  ⟨Ix.programDigest, .octets 32, .ro, .hv, .scalar, .island 32, 0, .any⟩,
  ⟨Ix.programPendingDigest, .octets 32, .ro, .hv, .scalar, .island 32, 0, .any⟩,
  ⟨Ix.programBuildId, .u 4, .ro, .hv, .scalar, .island 32, 0, .any⟩]

/-- Objects at 4xxxh, part 2: rigs, programs, tables. -/
def objects4b : List ObjDesc := [
  ⟨Ix.programDefault, .u 1, .rw, .sc, .scalar, .island 32, 0, .within 0 1⟩,
  ⟨Ix.programRejectAt, .u 4, .ro, .hv, .scalar, .island 32, 0, .any⟩,
  ⟨Ix.xmKeyBits, .u 1, .rwb, .cfg, .fixed 64, .island 49, 0, .within 0 128⟩,
  ⟨Ix.xmCapacity, .u 4, .rwb, .cfg, .fixed 64, .island 49, 0, .any⟩,
  ⟨Ix.xmEntries, .u 4, .ro, .hv, .fixed 64, .island 49, 0, .any⟩,
  ⟨Ix.xmAgeTime, .u 4, .rwb, .cfg, .fixed 64, .island 49, 0, .within 0 1000000⟩,
  ⟨Ix.xmEntry, .table 32 2097152, .rw, .cfg, .fixed 64, .island 49, 0, .any⟩,
  ⟨Ix.xmInsertFail, .u 8, .ro, .hv, .fixed 64, .island 49, 0, .any⟩,
  ⟨Ix.xmAged, .u 8, .ro, .hv, .fixed 64, .island 49, 0, .any⟩,
  ⟨Ix.tcPartFirst, .u 2, .rwb, .cfg, .fixed 16, .island 49, 0, .any⟩,
  ⟨Ix.tcPartSize, .u 4, .rwb, .cfg, .fixed 16, .island 49, 0, .within 0 65536⟩,
  ⟨Ix.tcEntry, .table 96 65536, .rw, .cfg, .fixed 16, .island 49, 0, .any⟩,
  ⟨Ix.copyList, .table 128 16384, .rw, .cfg, .scalar, .island 49, 0, .any⟩,
  ⟨Ix.counter, .table 8 4063232, .rw, .ct, .scalar, .island 50, 0, .any⟩]

/-- Objects at 5xxxh, part 1: buffer, queues, keepers, gates, shapers, policing. -/
def objects5a : List ObjDesc := [
  ⟨Ix.bufferEccMode, .u 1, .rw, .cfg, .scalar, .island 48, 0, .within 0 1⟩,
  ⟨Ix.bufferScrubPeriod, .u 4, .rw, .cfg, .scalar, .island 48, 1000, .within 10 3600000⟩,
  ⟨Ix.bufferCorrectedCount, .u 8, .ro, .hv, .scalar, .island 48, 0, .any⟩,
  ⟨Ix.bufferUncorrectableCount, .u 8, .ro, .hv, .scalar, .island 48, 0, .any⟩,
  ⟨Ix.bufferQuarantined, .u 2, .ro, .hv, .scalar, .island 48, 0, .any⟩,
  ⟨Ix.bufferFreeCells, .u 4, .ro, .hv, .scalar, .island 48, 0, .any⟩,
  ⟨Ix.guardIntakeCells, .u 4, .rwb, .cfg, .scalar, .island 48, 16384, .any⟩,
  ⟨Ix.sharedPoolCells, .u 4, .ro, .hv, .scalar, .island 48, 0, .any⟩,
  ⟨Ix.queueMode, .u 1, .rwb, .cfg, .queues, .island 48, 0, .within 0 1⟩,
  ⟨Ix.queueAlpha, .u 1, .rwb, .cfg, .queues, .island 48, 5, .within 0 9⟩,
  ⟨Ix.queueGuardCells, .u 4, .rwb, .cfg, .queues, .island 48, 0, .any⟩,
  ⟨Ix.queueDepthCells, .u 4, .ro, .hv, .queues, .island 48, 0, .any⟩,
  ⟨Ix.intakeLimitCells, .u 4, .rwb, .cfg, .queues, .island 48, 1024, .any⟩,
  ⟨Ix.intakeGuarded, .bool, .rwb, .cfg, .queues, .island 48, 0, .within 0 1⟩,
  ⟨Ix.intakeCells, .u 4, .ro, .hv, .queues, .island 48, 0, .any⟩,
  ⟨Ix.portHoldLimit, .u 4, .rwb, .cfg, .ports, .island 48, 10000, .within 0 60000000⟩,
  ⟨Ix.queueReleasedCount, .u 8, .ro, .hv, .queues, .island 48, 0, .any⟩,
  ⟨Ix.orderMode, .u 1, .rwb, .cfg, .sources, .island 48, 0, .within 0 1⟩,
  ⟨Ix.flowHashFields, .u 1, .rwb, .cfg, .sources, .island 48, 31, .within 0 63⟩,
  ⟨Ix.keeperOutstanding, .u 2, .ro, .hv, .sectors, .island 48, 0, .any⟩,
  ⟨Ix.keeperWindowStalls, .u 8, .ro, .hv, .sectors, .island 48, 0, .any⟩,
  ⟨Ix.keeperFullStalls, .u 8, .ro, .hv, .sectors, .island 48, 0, .any⟩,
  ⟨Ix.keeperVoidRetires, .u 8, .ro, .hv, .sectors, .island 48, 0, .any⟩,
  ⟨Ix.keeperRetireNumber, .u 8, .ro, .hv, .sectors, .island 48, 0, .any⟩,
  ⟨Ix.enqueueDuplicateCount, .u 8, .ro, .hv, .sectors, .island 48, 0, .any⟩]

/-- Objects at 5xxxh, part 2: buffer, queues, keepers, gates, shapers, policing. -/
def objects5b : List ObjDesc := [
  ⟨Ix.commitDuplicateCount, .u 8, .ro, .hv, .sectors, .island 48, 0, .any⟩,
  ⟨Ix.programFaultCount, .u 8, .ro, .hv, .sectors, .island 48, 0, .any⟩,
  ⟨Ix.meterRefundCount, .u 8, .ro, .hv, .sectors, .island 48, 0, .any⟩,
  ⟨Ix.handleFaultLimit, .u 1, .rw, .cfg, .scalar, .island 48, 3, .within 1 15⟩,
  ⟨Ix.packetPoisonCount, .u 8, .ro, .hv, .sectors, .island 48, 0, .any⟩,
  ⟨Ix.queueEnqueueSeq, .u 8, .ro, .hv, .queues, .island 48, 0, .any⟩,
  ⟨Ix.programSwitch, .u 1, .rwb, .cfg, .scalar, .island 48, 0, .within 0 1⟩,
  ⟨Ix.programEpoch, .u 4, .ro, .hv, .scalar, .island 48, 0, .any⟩,
  ⟨Ix.queueSamplePeriod, .u 4, .rw, .cfg, .scalar, .island 48, 1000, .within 100 1000000000⟩,
  ⟨Ix.queueSampleWindow, .u 4, .rw, .cfg, .scalar, .island 48, 1000, .within 1 1000000⟩,
  ⟨Ix.queueHistBase, .u 4, .rw, .cfg, .scalar, .island 48, 250, .within 1 1000000⟩,
  ⟨Ix.queueStats, .table 128 4128, .ro, .hv, .scalar, .island 48, 0, .any⟩,
  ⟨Ix.queueDepthBytes, .u 4, .ro, .hv, .queues, .island 48, 0, .any⟩,
  ⟨Ix.queueHeadSojourn, .u 4, .ro, .hv, .queues, .island 48, 0, .any⟩,
  ⟨Ix.portLengthOverhead, .i 1, .rwb, .cfg, .ports, .portOf, 20, .within (-24) 63⟩,
  ⟨Ix.pmacExpressClasses, .u 1, .rwb, .cfg, .ports, .portOf, 255, .any⟩,
  ⟨Ix.pmacHoldAdvance, .u 4, .rwb, .cfg, .ports, .portOf, 0, .within 0 1000000⟩,
  ⟨Ix.pmacHoldState, .u 1, .ro, .hv, .ports, .portOf, 0, .any⟩,
  ⟨Ix.pmacHoldCount, .u 8, .ro, .hv, .ports, .portOf, 0, .any⟩,
  ⟨Ix.pmacPreempted, .u 8, .ro, .hv, .ports, .portOf, 0, .any⟩,
  ⟨Ix.gateCycleTime, .u 4, .rwb, .cfg, .ports, .portOf, 1000000, .within 1000 4294967295⟩,
  ⟨Ix.gateEnable, .bool, .rwb, .cfg, .ports, .portOf, 0, .within 0 1⟩,
  ⟨Ix.gateBaseTime, .time80, .rwb, .cfg, .ports, .portOf, 0, .any⟩,
  ⟨Ix.gateDomain, .u 1, .rwb, .cfg, .ports, .portOf, 0, .within 0 3⟩,
  ⟨Ix.gateCycleExtension, .u 4, .rwb, .cfg, .ports, .portOf, 0, .within 0 4294967295⟩]

/-- Objects at 5xxxh, part 3: buffer, queues, keepers, gates, shapers, policing. -/
def objects5c : List ObjDesc := [
  ⟨Ix.gateInitialStates, .u 1, .rwb, .cfg, .ports, .portOf, 255, .any⟩,
  ⟨Ix.gateAdminLength, .u 2, .rwb, .cfg, .ports, .portOf, 0, .within 0 1024⟩,
  ⟨Ix.gateAdminList, .table 8 1024, .rwb, .cfg, .ports, .portOf, 0, .any⟩,
  ⟨Ix.gateOperList, .table 8 1024, .ro, .hv, .ports, .portOf, 0, .any⟩,
  ⟨Ix.gateOperLength, .u 2, .ro, .hv, .ports, .portOf, 0, .any⟩,
  ⟨Ix.gateOperCycleTime, .u 4, .ro, .hv, .ports, .portOf, 0, .any⟩,
  ⟨Ix.gateOperBaseTime, .time80, .ro, .hv, .ports, .portOf, 0, .any⟩,
  ⟨Ix.gateChangeTime, .time80, .ro, .hv, .ports, .portOf, 0, .any⟩,
  ⟨Ix.gateConfigStatus, .u 1, .ro, .hv, .ports, .portOf, 0, .any⟩,
  ⟨Ix.gateConfigChangeCount, .u 4, .ro, .hv, .ports, .portOf, 0, .any⟩,
  ⟨Ix.gateConfigErrorCount, .u 4, .ro, .hv, .ports, .portOf, 0, .any⟩,
  ⟨Ix.gateOperStates, .u 1, .ro, .hv, .ports, .portOf, 255, .any⟩,
  ⟨Ix.gateGuardDeferrals, .u 8, .ro, .hv, .ports, .portOf, 0, .any⟩,
  ⟨Ix.gateOverrunCount, .u 8, .ro, .hv, .ports, .portOf, 0, .any⟩,
  ⟨Ix.gateWakeClasses, .u 1, .rwb, .cfg, .ports, .portOf, 0, .any⟩,
  ⟨Ix.gateWakeMargin, .u 4, .rwb, .cfg, .ports, .portOf, 200, .within 0 1000000⟩,
  ⟨Ix.cbsEnable, .bool, .rwb, .cfg, .queues, .queueOf, 0, .within 0 1⟩,
  ⟨Ix.cbsIdleSlope, .u 4, .rwb, .cfg, .queues, .queueOf, 0, .within 0 200000000⟩,
  ⟨Ix.cbsCredit, .i 8, .ro, .hv, .queues, .queueOf, 0, .any⟩,
  ⟨Ix.tbEnable, .bool, .rwb, .cfg, .queues, .queueOf, 0, .within 0 1⟩,
  ⟨Ix.tbRate, .u 4, .rwb, .cfg, .queues, .queueOf, 0, .within 0 200000000⟩,
  ⟨Ix.tbBurst, .u 4, .rwb, .cfg, .queues, .queueOf, 16384, .within 0 16777216⟩,
  ⟨Ix.tbLevel, .i 8, .ro, .hv, .queues, .queueOf, 0, .any⟩,
  ⟨Ix.shaperForgive, .bool, .rwb, .cfg, .queues, .queueOf, 0, .within 0 1⟩,
  ⟨Ix.streamFilter, .table 16 65536, .rw, .cfg, .scalar, .filterOf, 0, .any⟩]

/-- Objects at 5xxxh, part 4: buffer, queues, keepers, gates, shapers, policing. -/
def objects5d : List ObjDesc := [
  ⟨Ix.streamFilterCounts, .table 48 65536, .ro, .hv, .scalar, .island 50, 0, .any⟩,
  ⟨Ix.streamGateEnable, .bool, .rwb, .cfg, .streamGates, .streamGateOf, 0, .within 0 1⟩,
  ⟨Ix.streamGateCycleTime, .u 4, .rwb, .cfg, .streamGates, .streamGateOf, 1000000, .within 1000 4294967295⟩,
  ⟨Ix.streamGateBaseTime, .time80, .rwb, .cfg, .streamGates, .streamGateOf, 0, .any⟩,
  ⟨Ix.streamGateDomain, .u 1, .rwb, .cfg, .streamGates, .streamGateOf, 0, .within 0 3⟩,
  ⟨Ix.streamGateInitial, .u 1, .rwb, .cfg, .streamGates, .streamGateOf, 1, .within 0 1⟩,
  ⟨Ix.streamGateAdminLength, .u 1, .rwb, .cfg, .streamGates, .streamGateOf, 0, .within 0 64⟩,
  ⟨Ix.streamGateAdminList, .table 12 64, .rwb, .cfg, .streamGates, .streamGateOf, 0, .any⟩,
  ⟨Ix.streamGateFlags, .u 1, .rwb, .cfg, .streamGates, .streamGateOf, 0, .within 0 3⟩,
  ⟨Ix.streamGateState, .u 1, .ro, .hv, .streamGates, .streamGateOf, 1, .any⟩,
  ⟨Ix.streamGateReopen, .u 1, .rw, .sc, .streamGates, .streamGateOf, 0, .within 0 1⟩,
  ⟨Ix.streamGateEarly, .u 8, .ro, .hv, .streamGates, .streamGateOf, 0, .any⟩,
  ⟨Ix.streamGateLate, .u 8, .ro, .hv, .streamGates, .streamGateOf, 0, .any⟩,
  ⟨Ix.streamGateOctetsExceeded, .u 8, .ro, .hv, .streamGates, .streamGateOf, 0, .any⟩,
  ⟨Ix.streamGateConfigStatus, .u 1, .ro, .hv, .streamGates, .streamGateOf, 0, .any⟩,
  ⟨Ix.meter, .table 32 262144, .rw, .cfg, .scalar, .island 50, 0, .any⟩]

/-- Objects at 6xxxh, part 1: redundancy. -/
def objects6a : List ObjDesc := [
  ⟨Ix.streamIdMethods, .u 1, .rw, .cfg, .scalar, .island 49, 0, .within 0 31⟩,
  ⟨Ix.rtagEthertype, .u 2, .rwb, .cfg, .scalar, .island 49, 61889, .any⟩,
  ⟨Ix.streamHandle, .table 32 262144, .rw, .cfg, .scalar, .island 50, 0, .any⟩,
  ⟨Ix.recoveryFunc, .table 32 262144, .rw, .cfg, .scalar, .island 50, 0, .any⟩,
  ⟨Ix.recoveryCounts, .table 64 262144, .ro, .hv, .scalar, .island 50, 0, .any⟩,
  ⟨Ix.recoveryReset, .u 4, .wo, .none, .scalar, .island 50, 0, .within 0 262143⟩,
  ⟨Ix.latentResetCount, .table 8 262144, .ro, .hv, .scalar, .island 50, 0, .any⟩,
  ⟨Ix.seqGen, .table 16 262144, .rw, .cfg, .scalar, .island 49, 0, .any⟩]

/-- Objects at 7xxxh, part 1: time, quorum, silence. -/
def objects7a : List ObjDesc := [
  ⟨Ix.rawTime, .u 8, .ro, .hv, .scalar, .island 51, 0, .any⟩,
  ⟨Ix.meridianRefFreq, .u 1, .rw, .cfg, .scalar, .island 51, 2, .within 0 3⟩,
  ⟨Ix.timeSnapshot, .u 1, .rw, .sc, .scalar, .island 51, 0, .within 0 1⟩,
  ⟨Ix.timeSnapshotValue, .octets 56, .ro, .hv, .scalar, .island 51, 0, .any⟩,
  ⟨Ix.timeNow, .time96, .ro, .hv, .fixed 4, .island 51, 0, .any⟩,
  ⟨Ix.timeRate, .i 8, .ro, .hv, .fixed 4, .island 51, 0, .any⟩,
  ⟨Ix.timeSet, .time96, .wo, .none, .fixed 4, .island 51, 0, .any⟩,
  ⟨Ix.timeAdjust, .i 8, .wo, .none, .fixed 4, .island 51, 0, .any⟩,
  ⟨Ix.timeSlew, .i 8, .wo, .none, .fixed 4, .island 51, 0, .any⟩,
  ⟨Ix.timeSlewRemaining, .i 8, .ro, .hv, .fixed 4, .island 51, 0, .any⟩,
  ⟨Ix.timeRateSet, .i 8, .rw, .cfg, .fixed 4, .island 51, 0, .within (-549755813888) 549755813887⟩,
  ⟨Ix.timeStepCount, .u 4, .ro, .hv, .fixed 4, .island 51, 0, .any⟩,
  ⟨Ix.timeDomainState, .u 1, .ro, .hv, .fixed 4, .island 51, 0, .any⟩,
  ⟨Ix.timeRole, .u 1, .rwb, .cfg, .fixed 4, .island 51, 0, .within 0 2⟩,
  ⟨Ix.timeProfile, .u 1, .rwb, .cfg, .fixed 4, .island 51, 0, .within 0 2⟩,
  ⟨Ix.timePtpDomainNumber, .u 1, .rwb, .cfg, .fixed 4, .island 51, 0, .within 0 255⟩,
  ⟨Ix.timeTransport, .u 1, .rwb, .cfg, .fixed 4, .island 51, 0, .within 0 2⟩,
  ⟨Ix.timeTwoStep, .bool, .rwb, .cfg, .fixed 4, .island 51, 1, .within 0 1⟩,
  ⟨Ix.timePriority1, .u 1, .rwb, .cfg, .fixed 4, .island 51, 248, .any⟩,
  ⟨Ix.timePriority2, .u 1, .rwb, .cfg, .fixed 4, .island 51, 248, .any⟩,
  ⟨Ix.timeClockClass, .u 1, .rwb, .cfg, .fixed 4, .island 51, 248, .any⟩,
  ⟨Ix.timeClockAccuracy, .u 1, .rwb, .cfg, .fixed 4, .island 51, 254, .any⟩,
  ⟨Ix.timeRateClamps, .u 4, .ro, .hv, .fixed 4, .island 51, 0, .any⟩,
  ⟨Ix.timeFlags, .u 1, .ro, .hv, .fixed 4, .island 51, 0, .any⟩,
  ⟨Ix.servoSource, .u 1, .rwb, .cfg, .fixed 4, .island 51, 0, .within 0 3⟩]

/-- Objects at 7xxxh, part 2: time, quorum, silence. -/
def objects7b : List ObjDesc := [
  ⟨Ix.servoSourceSel, .u 1, .rwb, .cfg, .fixed 4, .island 51, 0, .within 0 31⟩,
  ⟨Ix.servoKp, .u 1, .rwb, .cfg, .fixed 4, .island 51, 1, .within 0 15⟩,
  ⟨Ix.servoKi, .u 1, .rwb, .cfg, .fixed 4, .island 51, 3, .within 0 20⟩,
  ⟨Ix.servoStepThreshold, .u 4, .rwb, .cfg, .fixed 4, .island 51, 1000, .within 0 4294967295⟩,
  ⟨Ix.servoLockThreshold, .u 4, .rwb, .cfg, .fixed 4, .island 51, 100, .any⟩,
  ⟨Ix.servoLockCount, .u 1, .rwb, .cfg, .fixed 4, .island 51, 8, .within 1 255⟩,
  ⟨Ix.servoHoldoverTimeout, .u 4, .rwb, .cfg, .fixed 4, .island 51, 1000, .within 10 60000⟩,
  ⟨Ix.holdoverLimit, .u 4, .rwb, .cfg, .fixed 4, .island 51, 60, .within 1 86400⟩,
  ⟨Ix.pdStepThreshold, .u 4, .rwb, .cfg, .fixed 4, .island 51, 50, .within 1 1000000⟩,
  ⟨Ix.pdStableIntervals, .u 1, .rwb, .cfg, .fixed 4, .island 51, 8, .within 1 255⟩,
  ⟨Ix.servoSlewLimit, .u 4, .rwb, .cfg, .fixed 4, .island 51, 10000, .within 1 1953125⟩,
  ⟨Ix.servoAltPort, .u 2, .rwb, .cfg, .fixed 4, .island 51, 65535, .any⟩,
  ⟨Ix.servoOffset, .i 8, .ro, .hv, .fixed 4, .island 51, 0, .any⟩,
  ⟨Ix.servoPathDelay, .i 8, .ro, .hv, .fixed 4, .island 51, 0, .any⟩,
  ⟨Ix.servoIntegrator, .i 8, .ro, .hv, .fixed 4, .island 51, 0, .any⟩,
  ⟨Ix.servoPathInUse, .u 1, .ro, .hv, .fixed 4, .island 51, 0, .any⟩,
  ⟨Ix.servoSamples, .u 8, .ro, .hv, .fixed 4, .island 51, 0, .any⟩,
  ⟨Ix.servoSamplesRejected, .u 8, .ro, .hv, .fixed 4, .island 51, 0, .any⟩,
  ⟨Ix.servoSteps, .u 4, .ro, .hv, .fixed 4, .island 51, 0, .any⟩,
  ⟨Ix.servoPdSteps, .u 4, .ro, .hv, .fixed 4, .island 51, 0, .any⟩,
  ⟨Ix.servoPathDisagree, .u 4, .ro, .hv, .fixed 4, .island 51, 0, .any⟩,
  ⟨Ix.servoAltOffset, .i 8, .ro, .hv, .fixed 4, .island 51, 0, .any⟩,
  ⟨Ix.quorumEnable, .bool, .rwb, .cfg, .fixed 4, .island 51, 0, .within 0 1⟩,
  ⟨Ix.quorumMemberId, .u 1, .rwb, .cfg, .fixed 4, .island 51, 255, .withinOr 0 31 255⟩,
  ⟨Ix.quorumWeights, .octets 32, .rwb, .cfg, .fixed 4, .island 51, 0, .any⟩]

/-- Objects at 7xxxh, part 3: time, quorum, silence. -/
def objects7c : List ObjDesc := [
  ⟨Ix.quorumTiebreak, .u 1, .rwb, .cfg, .fixed 4, .island 51, 255, .withinOr 0 31 255⟩,
  ⟨Ix.rollPeriod, .u 2, .rwb, .cfg, .fixed 4, .island 51, 125, .within 16 1000⟩,
  ⟨Ix.quorumAge, .u 2, .rwb, .cfg, .fixed 4, .island 51, 500, .within 32 60000⟩,
  ⟨Ix.quorumSeenWeight, .u 2, .ro, .hv, .fixed 4, .island 51, 0, .any⟩,
  ⟨Ix.quorumSeenMap, .u 4, .ro, .hv, .fixed 4, .island 51, 0, .any⟩,
  ⟨Ix.quorumState, .u 1, .ro, .hv, .fixed 4, .island 51, 0, .any⟩,
  ⟨Ix.quorumLosses, .u 4, .ro, .hv, .fixed 4, .island 51, 0, .any⟩,
  ⟨Ix.quorumConfigMismatch, .u 8, .ro, .hv, .fixed 4, .island 51, 0, .any⟩,
  ⟨Ix.rollCallOrgId, .u 4, .rwb, .cfg, .fixed 4, .island 51, 14306905, .within 0 16777215⟩,
  ⟨Ix.silenceThreshold, .u 4, .rwb, .cfg, .fixed 4, .island 51, 250, .any⟩,
  ⟨Ix.returnThreshold, .u 4, .rwb, .cfg, .fixed 4, .island 51, 100, .any⟩,
  ⟨Ix.returnIntervals, .u 1, .rwb, .cfg, .fixed 4, .island 51, 8, .within 1 255⟩,
  ⟨Ix.silenceClasses, .u 1, .rwb, .cfg, .fixed 4, .island 51, 128, .any⟩,
  ⟨Ix.silenceHoldover, .u 4, .rwb, .cfg, .fixed 4, .island 51, 0, .within 0 3600000⟩,
  ⟨Ix.silenceState, .u 1, .ro, .hv, .fixed 4, .island 51, 0, .any⟩,
  ⟨Ix.silenceCount, .u 4, .ro, .hv, .fixed 4, .island 51, 0, .any⟩,
  ⟨Ix.tioMode, .u 1, .rwb, .cfg, .fixed 32, .island 51, 0, .within 0 4⟩,
  ⟨Ix.tioDomain, .u 1, .rwb, .cfg, .fixed 32, .island 51, 0, .within 0 3⟩,
  ⟨Ix.tioStart, .time96, .rwb, .cfg, .fixed 32, .island 51, 0, .any⟩,
  ⟨Ix.tioPeriod, .u 8, .rwb, .cfg, .fixed 32, .island 51, 65536000000000, .any⟩,
  ⟨Ix.tioWidth, .u 4, .rwb, .cfg, .fixed 32, .island 51, 1600000, .any⟩,
  ⟨Ix.tioConfig, .u 1, .rwb, .cfg, .fixed 32, .island 51, 0, .within 0 5⟩,
  ⟨Ix.tioEvent, .u 1, .rwb, .cfg, .fixed 32, .island 51, 0, .within 0 47⟩,
  ⟨Ix.tioOutDelay, .i 4, .rwb, .cfg, .fixed 32, .island 51, 0, .any⟩,
  ⟨Ix.tioInDelay, .i 4, .rwb, .cfg, .fixed 32, .island 51, 0, .any⟩]

/-- Objects at 7xxxh, part 4: time, quorum, silence. -/
def objects7d : List ObjDesc := [
  ⟨Ix.tioStatus, .u 1, .ro, .hv, .fixed 32, .island 51, 0, .any⟩,
  ⟨Ix.tioCapture, .octets 24, .rc, .rc, .fixed 32, .island 51, 0, .any⟩,
  ⟨Ix.tioCaptureWaiting, .u 1, .ro, .hv, .fixed 32, .island 51, 0, .any⟩,
  ⟨Ix.tioCaptureLost, .u 8, .ro, .hv, .fixed 32, .island 51, 0, .any⟩,
  ⟨Ix.tioPpsOffset, .i 4, .rwb, .cfg, .fixed 32, .island 51, 0, .any⟩,
  ⟨Ix.tioEdges, .u 8, .ro, .hv, .fixed 32, .island 51, 0, .any⟩]

/-- Objects at 8xxxh, part 1: Henay rings. -/
def objects8a : List ObjDesc := [
  ⟨Ix.henayRingEnable, .bool, .rwb, .cfg, .fixed 16, .island 54, 0, .within 0 1⟩,
  ⟨Ix.henayRingId, .u 2, .rwb, .cfg, .fixed 16, .island 54, 0, .any⟩,
  ⟨Ix.henayTopology, .u 1, .rwb, .cfg, .fixed 16, .island 54, 0, .within 0 1⟩,
  ⟨Ix.henayOutPort, .u 2, .rwb, .cfg, .fixed 16, .island 54, 65535, .any⟩,
  ⟨Ix.henayInPort, .u 2, .rwb, .cfg, .fixed 16, .island 54, 65535, .any⟩,
  ⟨Ix.henayDomain, .u 1, .rwb, .cfg, .fixed 16, .island 54, 0, .within 0 3⟩,
  ⟨Ix.henayBaseTime, .time80, .rwb, .cfg, .fixed 16, .island 54, 0, .any⟩,
  ⟨Ix.henayCycleTime, .u 4, .rwb, .cfg, .fixed 16, .island 54, 1000000, .within 10000 1000000000⟩,
  ⟨Ix.henayOutputOffset, .i 4, .rwb, .cfg, .fixed 16, .island 54, 500000, .any⟩,
  ⟨Ix.henayInputOffset, .i 4, .rwb, .cfg, .fixed 16, .island 54, 4294917296, .any⟩,
  ⟨Ix.henayGatherLead, .u 4, .rwb, .cfg, .fixed 16, .island 54, 20000, .within 1000 1000000000⟩,
  ⟨Ix.henayRefDivider, .u 2, .rwb, .cfg, .fixed 16, .island 54, 1, .any⟩,
  ⟨Ix.henayLayout, .table 16 4096, .rwb, .cfg, .fixed 16, .island 54, 0, .any⟩,
  ⟨Ix.henayLayoutCount, .u 2, .rwb, .cfg, .fixed 16, .island 54, 0, .within 0 4096⟩,
  ⟨Ix.henayGatherBase, .u 8, .rwb, .cfg, .fixed 16, .island 54, 0, .any⟩,
  ⟨Ix.henayGatherSize, .u 2, .rwb, .cfg, .fixed 16, .island 54, 8, .within 1 4096⟩,
  ⟨Ix.henayGatherList, .table 4 65536, .rwb, .cfg, .fixed 16, .island 54, 0, .any⟩,
  ⟨Ix.henayScatterBase, .u 8, .rwb, .cfg, .fixed 16, .island 54, 0, .any⟩,
  ⟨Ix.henayScatterSize, .u 2, .rwb, .cfg, .fixed 16, .island 54, 8, .within 1 4096⟩,
  ⟨Ix.henayScatterList, .table 4 65536, .rwb, .cfg, .fixed 16, .island 54, 0, .any⟩,
  ⟨Ix.henayReadyAddr, .u 8, .rwb, .cfg, .fixed 16, .island 54, 0, .any⟩,
  ⟨Ix.henayReadyMode, .u 1, .rwb, .cfg, .fixed 16, .island 54, 0, .within 0 1⟩,
  ⟨Ix.henayStatusBase, .u 8, .rwb, .cfg, .fixed 16, .island 54, 0, .any⟩,
  ⟨Ix.henayStatusSlots, .u 2, .rwb, .cfg, .fixed 16, .island 54, 16, .within 2 32768⟩,
  ⟨Ix.henayMsixVector, .u 2, .rwb, .cfg, .fixed 16, .island 54, 65535, .withinOr 0 2047 65535⟩]

/-- Objects at 8xxxh, part 2: Henay rings. -/
def objects8b : List ObjDesc := [
  ⟨Ix.henayHealCycles, .u 2, .rwb, .cfg, .fixed 16, .island 54, 16, .within 1 65535⟩,
  ⟨Ix.henayState, .u 1, .ro, .hv, .fixed 16, .island 54, 0, .any⟩,
  ⟨Ix.henayLayoutStatus, .u 1, .ro, .hv, .fixed 16, .island 54, 0, .any⟩,
  ⟨Ix.henayLayoutAt, .u 2, .ro, .hv, .fixed 16, .island 54, 0, .any⟩,
  ⟨Ix.henayCycleCounter, .u 4, .ro, .hv, .fixed 16, .island 54, 0, .any⟩,
  ⟨Ix.henayRoundTrip, .u 4, .ro, .hv, .fixed 16, .island 54, 0, .any⟩,
  ⟨Ix.henayLatchMargin, .i 4, .ro, .hv, .fixed 16, .island 54, 0, .any⟩,
  ⟨Ix.henayCyclesSent, .u 8, .ro, .hv, .fixed 16, .island 54, 0, .any⟩,
  ⟨Ix.henayNullSent, .u 8, .ro, .hv, .fixed 16, .island 54, 0, .any⟩,
  ⟨Ix.henayRxLate, .u 8, .ro, .hv, .fixed 16, .island 54, 0, .any⟩,
  ⟨Ix.henayRxDiscarded, .u 8, .ro, .hv, .fixed 16, .island 54, 0, .any⟩,
  ⟨Ix.henayRxMissing, .u 8, .ro, .hv, .fixed 16, .island 54, 0, .any⟩,
  ⟨Ix.henayRxOverrun, .u 8, .ro, .hv, .fixed 16, .island 54, 0, .any⟩,
  ⟨Ix.henayReceiptMismatch, .u 8, .ro, .hv, .fixed 16, .island 54, 0, .any⟩,
  ⟨Ix.henayTxDelayed, .u 8, .ro, .hv, .fixed 16, .island 54, 0, .any⟩,
  ⟨Ix.henayClaimsConfirmed, .u 8, .ro, .hv, .fixed 16, .island 54, 0, .any⟩,
  ⟨Ix.henayClaimsRefused, .u 8, .ro, .hv, .fixed 16, .island 54, 0, .any⟩,
  ⟨Ix.henayMasterRank, .u 1, .rwb, .cfg, .fixed 16, .island 54, 0, .within 0 4⟩,
  ⟨Ix.henayNodeId, .u 2, .rwb, .cfg, .fixed 16, .island 54, 1, .within 1 65534⟩,
  ⟨Ix.henayMasterPriority, .u 1, .rwb, .cfg, .fixed 16, .island 54, 128, .any⟩,
  ⟨Ix.henayWatchPair, .u 2, .rwb, .cfg, .fixed 16, .island 54, 65535, .withinOr 0 255 65535⟩,
  ⟨Ix.henayTakeoverMisses, .u 1, .rwb, .cfg, .fixed 16, .island 54, 3, .within 1 255⟩,
  ⟨Ix.henayListenTime, .u 4, .rwb, .cfg, .fixed 16, .island 54, 0, .any⟩,
  ⟨Ix.henayColdStart, .bool, .rwb, .cfg, .fixed 16, .island 54, 1, .within 0 1⟩,
  ⟨Ix.henayClaimCycles, .u 1, .rwb, .cfg, .fixed 16, .island 54, 3, .within 1 255⟩]

/-- Objects at 8xxxh, part 3: Henay rings. -/
def objects8c : List ObjDesc := [
  ⟨Ix.henaySafeImage, .table 1 131072, .rwb, .cfg, .fixed 16, .island 54, 0, .any⟩,
  ⟨Ix.henayMasterNode, .u 2, .ro, .hv, .fixed 16, .island 54, 0, .any⟩,
  ⟨Ix.henayTakeovers, .u 8, .ro, .hv, .fixed 16, .island 54, 0, .any⟩,
  ⟨Ix.henayYields, .u 8, .ro, .hv, .fixed 16, .island 54, 0, .any⟩,
  ⟨Ix.henayBackoffs, .u 8, .ro, .hv, .fixed 16, .island 54, 0, .any⟩,
  ⟨Ix.henayDataInvalid, .u 1, .ro, .hv, .fixed 16, .island 54, 0, .any⟩,
  ⟨Ix.henayPtEnable, .bool, .rwb, .cfg, .fixed 256, .island 54, 0, .within 0 1⟩,
  ⟨Ix.henayPtRingId, .u 2, .rwb, .cfg, .fixed 256, .island 54, 0, .any⟩,
  ⟨Ix.henayPtPortA, .u 2, .rwb, .cfg, .fixed 256, .island 54, 65535, .any⟩,
  ⟨Ix.henayPtPortB, .u 2, .rwb, .cfg, .fixed 256, .island 54, 65535, .any⟩,
  ⟨Ix.henayPtAddress, .u 2, .rwb, .cfg, .fixed 256, .island 54, 0, .within 0 1024⟩,
  ⟨Ix.henayPtDomain, .u 1, .rwb, .cfg, .fixed 256, .island 54, 0, .within 0 3⟩,
  ⟨Ix.henayPtBaseTime, .time80, .rwb, .cfg, .fixed 256, .island 54, 0, .any⟩,
  ⟨Ix.henayPtCycleTime, .u 4, .rwb, .cfg, .fixed 256, .island 54, 1000000, .within 10000 1000000000⟩,
  ⟨Ix.henayPtOutputOffset, .i 4, .rwb, .cfg, .fixed 256, .island 54, 500000, .any⟩,
  ⟨Ix.henayPtInputOffset, .i 4, .rwb, .cfg, .fixed 256, .island 54, 4294917296, .any⟩,
  ⟨Ix.henayPtGatherBase, .u 8, .rwb, .cfg, .fixed 256, .island 54, 0, .any⟩,
  ⟨Ix.henayPtGatherSize, .u 2, .rwb, .cfg, .fixed 256, .island 54, 8, .within 1 4096⟩,
  ⟨Ix.henayPtGatherList, .table 4 65536, .rwb, .cfg, .fixed 256, .island 54, 0, .any⟩,
  ⟨Ix.henayPtScatterBase, .u 8, .rwb, .cfg, .fixed 256, .island 54, 0, .any⟩,
  ⟨Ix.henayPtScatterSize, .u 2, .rwb, .cfg, .fixed 256, .island 54, 8, .within 1 4096⟩,
  ⟨Ix.henayPtScatterList, .table 4 65536, .rwb, .cfg, .fixed 256, .island 54, 0, .any⟩,
  ⟨Ix.henayPtStatusAddr, .u 8, .rwb, .cfg, .fixed 256, .island 54, 0, .any⟩,
  ⟨Ix.henayPtLinkDelayA, .i 4, .rwb, .cfg, .fixed 256, .island 54, 0, .any⟩,
  ⟨Ix.henayPtLinkDelayB, .i 4, .rwb, .cfg, .fixed 256, .island 54, 0, .any⟩]

/-- Objects at 8xxxh, part 4: Henay rings. -/
def objects8d : List ObjDesc := [
  ⟨Ix.henayPtSampleDivider, .u 2, .rwb, .cfg, .fixed 256, .island 54, 1024, .any⟩,
  ⟨Ix.henayPtClaim, .u 4, .rwb, .cfg, .fixed 256, .island 54, 0, .any⟩,
  ⟨Ix.henayPtClaimState, .u 1, .ro, .hv, .fixed 256, .island 54, 0, .any⟩,
  ⟨Ix.henayPtClaimSlot, .u 2, .ro, .hv, .fixed 256, .island 54, 65535, .any⟩,
  ⟨Ix.henayPtState, .u 1, .ro, .hv, .fixed 256, .island 54, 0, .any⟩,
  ⟨Ix.henayPtResidence, .u 4, .ro, .hv, .fixed 256, .island 54, 0, .any⟩,
  ⟨Ix.henayPtFrames, .u 8, .ro, .hv, .fixed 256, .island 54, 0, .any⟩,
  ⟨Ix.henayPtServed, .u 8, .ro, .hv, .fixed 256, .island 54, 0, .any⟩,
  ⟨Ix.henayPtNotReady, .u 8, .ro, .hv, .fixed 256, .island 54, 0, .any⟩,
  ⟨Ix.henayPtRangeErrors, .u 8, .ro, .hv, .fixed 256, .island 54, 0, .any⟩,
  ⟨Ix.henayPtLateOutputs, .u 8, .ro, .hv, .fixed 256, .island 54, 0, .any⟩,
  ⟨Ix.henayPtNullSeen, .u 8, .ro, .hv, .fixed 256, .island 54, 0, .any⟩,
  ⟨Ix.henayPtOutOfStep, .u 8, .ro, .hv, .fixed 256, .island 54, 0, .any⟩,
  ⟨Ix.henayEthertype, .u 2, .rwb, .cfg, .scalar, .island 54, 34998, .any⟩,
  ⟨Ix.henayDestMac, .octets 6, .rwb, .cfg, .scalar, .island 54, 383565252611, .any⟩,
  ⟨Ix.henayVlan, .u 2, .rwb, .cfg, .scalar, .island 54, 0, .any⟩,
  ⟨Ix.henaySource, .u 2, .rw, .cfg, .fixed 16, .island 54, 0, .any⟩]

/-- Objects at 9xxxh, part 1: host, channels, DMA. -/
def objects9a : List ObjDesc := [
  ⟨Ix.hostPortMaxFrame, .u 2, .rwb, .cfg, .fixed 4, .island 52, 16384, .within 64 16384⟩,
  ⟨Ix.hostPortHomeSector, .u 1, .rwb, .cfg, .fixed 4, .island 52, 0, .any⟩,
  ⟨Ix.hostRxDefaultChannel, .u 2, .rwb, .cfg, .fixed 32, .island 52, 65535, .withinOr 0 4095 65535⟩,
  ⟨Ix.hostRxNoChannel, .u 8, .ro, .hv, .fixed 32, .island 52, 0, .any⟩,
  ⟨Ix.hostRxSizeDrop, .u 8, .ro, .hv, .fixed 32, .island 52, 0, .any⟩,
  ⟨Ix.pmeAgeThreshold, .u 4, .rw, .cfg, .scalar, .island 52, 1000, .within 1 1000000⟩,
  ⟨Ix.pmeSent, .u 4, .ro, .hv, .scalar, .island 52, 0, .any⟩,
  ⟨Ix.l1ExitForInterrupt, .u 8, .ro, .hv, .scalar, .island 52, 0, .any⟩,
  ⟨Ix.doorbellIgnored, .u 8, .ro, .hv, .scalar, .island 52, 0, .any⟩,
  ⟨Ix.ownMissingCount, .u 8, .ro, .hv, .scalar, .island 52, 0, .any⟩,
  ⟨Ix.flrAbandoned, .u 4, .ro, .hv, .scalar, .island 52, 0, .any⟩,
  ⟨Ix.launchLateSent, .u 8, .ro, .hv, .scalar, .island 52, 0, .any⟩,
  ⟨Ix.launchExpired, .u 8, .ro, .hv, .scalar, .island 52, 0, .any⟩,
  ⟨Ix.cringEnable, .bool, .rw, .cfg, .fixed 1024, .island 52, 0, .within 0 1⟩,
  ⟨Ix.cringBase, .u 8, .rw, .cfg, .fixed 1024, .island 52, 0, .any⟩,
  ⟨Ix.cringSize, .u 4, .rw, .cfg, .fixed 1024, .island 52, 16, .within 16 65536⟩,
  ⟨Ix.cringIndexAddr, .u 8, .rw, .cfg, .fixed 1024, .island 52, 0, .any⟩,
  ⟨Ix.cringBacklog, .u 1, .ro, .hv, .fixed 1024, .island 52, 0, .any⟩,
  ⟨Ix.cringFullStalls, .u 8, .ro, .hv, .fixed 1024, .island 52, 0, .any⟩,
  ⟨Ix.cringRecords, .u 8, .ro, .hv, .fixed 1024, .island 52, 0, .any⟩,
  ⟨Ix.vecModCount, .u 2, .rw, .cfg, .fixed 2048, .island 52, 1, .within 1 65535⟩,
  ⟨Ix.vecModTime, .u 4, .rw, .cfg, .fixed 2048, .island 52, 0, .within 0 10000000⟩,
  ⟨Ix.vecPending, .u 2, .ro, .hv, .fixed 2048, .island 52, 0, .any⟩,
  ⟨Ix.vecMessages, .u 8, .ro, .hv, .fixed 2048, .island 52, 0, .any⟩,
  ⟨Ix.dmaMode, .u 1, .rwb, .cfg, .scalar, .island 52, 1, .within 0 1⟩]

/-- Objects at 9xxxh, part 2: host, channels, DMA. -/
def objects9b : List ObjDesc := [
  ⟨Ix.chTableBase, .u 8, .rw, .cfg, .scalar, .island 52, 0, .any⟩,
  ⟨Ix.chInvalidate, .u 2, .wo, .none, .scalar, .island 52, 0, .withinOr 0 4095 65535⟩,
  ⟨Ix.chAbort, .u 8, .wo, .none, .scalar, .island 52, 0, .any⟩,
  ⟨Ix.dmaStageUsed, .u 2, .ro, .hv, .scalar, .island 52, 0, .any⟩,
  ⟨Ix.dmaCacheUsed, .u 2, .ro, .hv, .scalar, .island 52, 0, .any⟩,
  ⟨Ix.dmaCacheMisses, .u 8, .ro, .hv, .scalar, .island 52, 0, .any⟩,
  ⟨Ix.dmaCacheFull, .u 8, .ro, .hv, .scalar, .island 52, 0, .any⟩,
  ⟨Ix.chStatus, .u 1, .ro, .hv, .fixed 4096, .island 52, 0, .any⟩,
  ⟨Ix.chHaltCause, .u 1, .ro, .hv, .fixed 4096, .island 52, 0, .any⟩,
  ⟨Ix.chHaltIndex, .u 4, .ro, .hv, .fixed 4096, .island 52, 0, .any⟩,
  ⟨Ix.chRestart, .u 1, .rw, .sc, .fixed 4096, .island 52, 0, .within 0 1⟩,
  ⟨Ix.chCacheState, .u 1, .ro, .hv, .fixed 4096, .island 52, 0, .any⟩,
  ⟨Ix.chShadow, .octets 128, .rw, .cfg, .fixed 4096, .island 52, 0, .any⟩,
  ⟨Ix.chShadowArm, .u 1, .rw, .sc, .fixed 4096, .island 52, 0, .within 0 1⟩,
  ⟨Ix.chEpoch, .u 4, .ro, .hv, .fixed 4096, .island 52, 0, .any⟩,
  ⟨Ix.chEpochIndex, .u 4, .ro, .hv, .fixed 4096, .island 52, 0, .any⟩,
  ⟨Ix.chAbortResult, .u 1, .ro, .hv, .fixed 4096, .island 52, 0, .any⟩,
  ⟨Ix.chRetries, .u 8, .ro, .hv, .fixed 4096, .island 52, 0, .any⟩,
  ⟨Ix.chBytes, .u 8, .ro, .hv, .fixed 4096, .island 52, 0, .any⟩,
  ⟨Ix.chUnits, .u 8, .ro, .hv, .fixed 4096, .island 52, 0, .any⟩,
  ⟨Ix.chRateLevel, .i 4, .ro, .hv, .fixed 4096, .island 52, 0, .any⟩]

/-- Objects at Axxxh, part 1: LPDDR4X, NV store, images, firmware. -/
def objectsAa : List ObjDesc := [
  ⟨Ix.memEnable, .bool, .rw, .cfg, .scalar, .island 53, 1, .within 0 1⟩,
  ⟨Ix.memRate, .u 1, .rw, .cfg, .scalar, .island 53, 2, .within 0 2⟩,
  ⟨Ix.memChDensity, .u 1, .rw, .cfg, .scalar, .island 53, 3, .within 0 5⟩,
  ⟨Ix.memMirrorSize, .u 4, .rw, .cfg, .scalar, .island 53, 0, .any⟩,
  ⟨Ix.memState, .u 1, .ro, .hv, .scalar, .island 53, 0, .any⟩,
  ⟨Ix.memAddressLimit, .u 8, .ro, .hv, .scalar, .island 53, 0, .any⟩,
  ⟨Ix.memScrubPeriod, .u 4, .rw, .cfg, .scalar, .island 53, 86400, .within 3600 604800⟩,
  ⟨Ix.memScrubPasses, .u 4, .ro, .hv, .scalar, .island 53, 0, .any⟩,
  ⟨Ix.memRetrainPeriod, .u 2, .rw, .cfg, .scalar, .island 53, 100, .within 10 10000⟩,
  ⟨Ix.memChFailLimit, .u 2, .rw, .cfg, .scalar, .island 53, 16, .within 1 65535⟩,
  ⟨Ix.memChState, .u 1, .ro, .hv, .fixed 8, .island 53, 0, .any⟩,
  ⟨Ix.memChRestore, .u 1, .rw, .sc, .fixed 8, .island 53, 0, .within 0 1⟩,
  ⟨Ix.memCorrected, .u 8, .ro, .hv, .fixed 8, .island 53, 0, .any⟩,
  ⟨Ix.memUncorrectable, .u 8, .ro, .hv, .fixed 8, .island 53, 0, .any⟩,
  ⟨Ix.memMirrorRepairs, .u 8, .ro, .hv, .fixed 8, .island 53, 0, .any⟩,
  ⟨Ix.memRetrains, .u 4, .ro, .hv, .fixed 8, .island 53, 0, .any⟩,
  ⟨Ix.memRmw, .u 8, .ro, .hv, .fixed 8, .island 53, 0, .any⟩,
  ⟨Ix.memTemp, .u 1, .ro, .hv, .fixed 8, .island 53, 0, .any⟩,
  ⟨Ix.memChFails, .u 4, .ro, .hv, .fixed 8, .island 53, 0, .any⟩,
  ⟨Ix.imageCommand, .u 1, .wo, .none, .scalar, .island 55, 0, .any⟩,
  ⟨Ix.imageStatus, .u 1, .ro, .hv, .scalar, .island 55, 0, .any⟩,
  ⟨Ix.imageActiveSlot, .u 1, .ro, .hv, .scalar, .island 55, 0, .any⟩,
  ⟨Ix.imageSequence, .u 4, .ro, .hv, .scalar, .island 55, 0, .any⟩,
  ⟨Ix.imageDigest, .octets 32, .ro, .hv, .scalar, .island 55, 0, .any⟩,
  ⟨Ix.imageSkipped, .u 4, .ro, .hv, .scalar, .island 55, 0, .any⟩]

/-- Objects at Axxxh, part 2: LPDDR4X, NV store, images, firmware. -/
def objectsAb : List ObjDesc := [
  ⟨Ix.imageDiffCount, .u 4, .ro, .hv, .scalar, .island 55, 0, .any⟩,
  ⟨Ix.imageDiffFirst, .u 4, .ro, .hv, .scalar, .island 55, 4294967295, .any⟩,
  ⟨Ix.imageFailCause, .u 1, .ro, .hv, .scalar, .island 55, 0, .any⟩,
  ⟨Ix.imageStage, .table 1 1048576, .rw, .cfg, .scalar, .island 55, 0, .any⟩,
  ⟨Ix.imageRead, .table 1 1048576, .ro, .hv, .scalar, .island 55, 0, .any⟩,
  ⟨Ix.nvState, .u 1, .ro, .hv, .scalar, .island 55, 0, .any⟩,
  ⟨Ix.nvWritesHeld, .u 4, .ro, .hv, .scalar, .island 55, 0, .any⟩,
  ⟨Ix.nvHoldOverflow, .u 8, .ro, .hv, .scalar, .island 55, 0, .any⟩,
  ⟨Ix.nvBytesWritten, .u 8, .ro, .hv, .scalar, .island 55, 0, .any⟩,
  ⟨Ix.nvUser, .table 32 131072, .rw, .cfg, .scalar, .island 55, 0, .any⟩,
  ⟨Ix.fwStage, .table 1 3145728, .rw, .cfg, .scalar, .island 55, 0, .any⟩,
  ⟨Ix.fwCommand, .u 1, .wo, .none, .scalar, .island 55, 0, .any⟩,
  ⟨Ix.fwStatus, .u 1, .ro, .hv, .scalar, .island 55, 0, .any⟩,
  ⟨Ix.fwActiveSlot, .u 1, .ro, .hv, .scalar, .island 55, 0, .any⟩,
  ⟨Ix.fwSequence, .u 4, .ro, .hv, .scalar, .island 55, 0, .any⟩,
  ⟨Ix.fwFallback, .bool, .ro, .hv, .scalar, .island 55, 0, .within 0 1⟩,
  ⟨Ix.fwFailCause, .u 1, .ro, .hv, .scalar, .island 55, 0, .any⟩]

/-- Objects at Bxxxh, part 1: security and keys. -/
def objectsBa : List ObjDesc := [
  ⟨Ix.rootKeyStatus, .u 1, .ro, .hv, .scalar, .island 55, 0, .any⟩,
  ⟨Ix.rootKeyRevoke, .u 1, .rwg, .sc, .scalar, .island 55, 255, .any⟩,
  ⟨Ix.fwSecurityVersion, .u 4, .ro, .hv, .scalar, .island 55, 0, .any⟩,
  ⟨Ix.fwMinSecurity, .u 1, .ro, .hv, .scalar, .island 55, 0, .any⟩,
  ⟨Ix.fwMinSecurityRaise, .u 1, .rwg, .sc, .scalar, .island 55, 255, .any⟩,
  ⟨Ix.fwDigest, .octets 32, .ro, .hv, .scalar, .island 55, 0, .any⟩,
  ⟨Ix.ownerKey, .octets 60, .wol, .lk, .scalar, .island 55, 0, .any⟩,
  ⟨Ix.cormusKey, .octets 32, .wo, .none, .fixed 4, .island 55, 0, .any⟩,
  ⟨Ix.cormusKeyCounter, .u 4, .ro, .hv, .fixed 4, .island 55, 0, .any⟩,
  ⟨Ix.identityPublicKey, .octets 60, .ro, .hv, .scalar, .island 55, 0, .any⟩,
  ⟨Ix.identityCertChain, .table 1 24576, .ro, .hv, .scalar, .island 55, 0, .any⟩,
  ⟨Ix.signNextLeaf, .u 4, .ro, .hv, .scalar, .island 55, 0, .any⟩,
  ⟨Ix.signRemaining, .u 4, .ro, .hv, .scalar, .island 55, 1073741824, .any⟩,
  ⟨Ix.signWarnLevel, .u 4, .rw, .cfg, .scalar, .island 55, 1048576, .within 0 1073741824⟩,
  ⟨Ix.quoteNonce, .octets 32, .rw, .cfg, .scalar, .island 55, 0, .any⟩,
  ⟨Ix.quoteDomain, .u 1, .rw, .cfg, .scalar, .island 55, 0, .within 0 3⟩,
  ⟨Ix.quoteRequest, .u 1, .rw, .sc, .scalar, .island 55, 0, .within 0 1⟩,
  ⟨Ix.quoteStatus, .u 1, .ro, .hv, .scalar, .island 55, 0, .any⟩,
  ⟨Ix.quote, .table 1 5664, .ro, .hv, .scalar, .island 55, 0, .any⟩,
  ⟨Ix.quoteMinInterval, .u 4, .rw, .cfg, .scalar, .island 55, 1000, .within 10 3600000⟩,
  ⟨Ix.quoteCount, .u 8, .ro, .hv, .scalar, .island 55, 0, .any⟩]

/-- Objects at Cxxxh, part 1: events, ageing, supply, survey. -/
def objectsCa : List ObjDesc := [
  ⟨Ix.eventLog, .table 32 32768, .ro, .hv, .scalar, .island 55, 0, .any⟩,
  ⟨Ix.eventNewest, .u 4, .ro, .hv, .scalar, .island 55, 0, .any⟩,
  ⟨Ix.eventReadMark, .u 4, .rw, .cfg, .scalar, .island 55, 0, .any⟩,
  ⟨Ix.eventOverrun, .u 8, .ro, .hv, .scalar, .island 55, 0, .any⟩,
  ⟨Ix.eventLost, .u 8, .ro, .hv, .scalar, .island 55, 0, .any⟩,
  ⟨Ix.eventVector, .u 2, .rw, .cfg, .scalar, .island 55, 65535, .withinOr 0 2047 65535⟩,
  ⟨Ix.eventIrqSeverity, .u 1, .rw, .cfg, .scalar, .island 55, 2, .within 0 4⟩,
  ⟨Ix.bootNumber, .u 2, .ro, .hv, .scalar, .island 55, 0, .any⟩,
  ⟨Ix.resetCauseLast, .u 1, .ro, .hv, .scalar, .island 55, 0, .any⟩,
  ⟨Ix.resetCauseRail, .u 1, .ro, .hv, .scalar, .island 55, 255, .any⟩,
  ⟨Ix.islandLifeDays, .u 4, .ro, .hv, .fixed 56, .island 55, 4294967295, .any⟩,
  ⟨Ix.islandLifeLower, .u 4, .ro, .hv, .fixed 56, .island 55, 4294967295, .any⟩,
  ⟨Ix.islandWearHours, .u 8, .ro, .hv, .fixed 56, .island 55, 0, .any⟩,
  ⟨Ix.islandTempHours, .u 8, .ro, .hv, .fixed 56, .island 55, 0, .any⟩,
  ⟨Ix.islandBenchDelta, .i 4, .ro, .hv, .fixed 56, .island 55, 0, .any⟩,
  ⟨Ix.islandTemp, .i 2, .ro, .hv, .fixed 56, .island 55, 0, .any⟩,
  ⟨Ix.deviceLifeDays, .u 4, .ro, .hv, .scalar, .island 55, 4294967295, .any⟩,
  ⟨Ix.deviceLifeLower, .u 4, .ro, .hv, .scalar, .island 55, 4294967295, .any⟩,
  ⟨Ix.wearGrade, .u 1, .ro, .hv, .scalar, .island 55, 0, .any⟩,
  ⟨Ix.wearWarnGrade, .u 1, .rw, .cfg, .scalar, .island 55, 80, .within 1 100⟩,
  ⟨Ix.lifeWarnDays, .u 4, .rw, .cfg, .scalar, .island 55, 365, .within 0 100000⟩,
  ⟨Ix.lifeIncludeEye, .bool, .rw, .cfg, .scalar, .island 55, 0, .within 0 1⟩,
  ⟨Ix.eyeMarginFloor, .u 2, .rw, .cfg, .scalar, .island 55, 20, .within 1 500⟩,
  ⟨Ix.laneEyeDays, .u 4, .ro, .hv, .lanes, .island 55, 4294967295, .any⟩,
  ⟨Ix.tempSensor, .i 2, .ro, .hv, .fixed 48, .island 55, 0, .any⟩]

/-- Objects at Cxxxh, part 2: events, ageing, supply, survey. -/
def objectsCb : List ObjDesc := [
  ⟨Ix.railVoltage, .u 2, .ro, .hv, .fixed 7, .island 55, 0, .any⟩,
  ⟨Ix.railWarnPercent, .u 1, .rw, .cfg, .fixed 7, .island 55, 5, .any⟩,
  ⟨Ix.railResetPercent, .u 1, .ro, .hv, .fixed 7, .island 55, 10, .any⟩,
  ⟨Ix.supplyHysteresis, .u 1, .rw, .cfg, .scalar, .island 55, 1, .within 1 3⟩,
  ⟨Ix.supplyDipCount, .u 4, .ro, .hv, .fixed 7, .island 55, 0, .any⟩,
  ⟨Ix.railMinVoltage, .u 2, .rc, .rc, .fixed 7, .island 55, 65535, .any⟩,
  ⟨Ix.supplyState, .u 1, .ro, .hv, .scalar, .island 55, 0, .any⟩,
  ⟨Ix.avsSetpoint, .u 2, .ro, .hv, .scalar, .island 55, 0, .any⟩,
  ⟨Ix.pmbusAddress, .u 1, .rw, .cfg, .scalar, .island 55, 64, .within 8 119⟩,
  ⟨Ix.pmbusErrors, .u 4, .ro, .hv, .scalar, .island 55, 0, .any⟩,
  ⟨Ix.avsMargin, .i 2, .ro, .hv, .scalar, .island 55, 0, .any⟩,
  ⟨Ix.avsMarginTarget, .u 1, .rw, .cfg, .scalar, .island 55, 3, .within 1 10⟩,
  ⟨Ix.thermalWarn, .i 1, .rw, .cfg, .scalar, .island 55, 95, .any⟩,
  ⟨Ix.tempMax, .i 2, .ro, .hv, .scalar, .island 55, 0, .any⟩,
  ⟨Ix.thermalTrips, .u 4, .ro, .hv, .scalar, .island 55, 0, .any⟩,
  ⟨Ix.surveyEnable, .bool, .rw, .cfg, .scalar, .island 55, 1, .within 0 1⟩,
  ⟨Ix.surveyFlowBits, .u 1, .rwb, .cfg, .scalar, .island 55, 16, .within 12 22⟩,
  ⟨Ix.surveyFlowSample, .u 2, .rw, .cfg, .scalar, .island 55, 16, .within 1 65535⟩,
  ⟨Ix.surveyHistBase, .u 4, .rw, .cfg, .scalar, .island 55, 250, .within 1 1000000⟩,
  ⟨Ix.surveyReduceLost, .u 8, .ro, .hv, .scalar, .island 55, 0, .any⟩,
  ⟨Ix.surveyFlowBase, .u 8, .ro, .hv, .scalar, .island 55, 0, .any⟩,
  ⟨Ix.postcardKind, .u 1, .rw, .cfg, .fixed 16, .island 55, 0, .within 0 2⟩,
  ⟨Ix.postcardDest, .u 2, .rw, .cfg, .fixed 16, .island 55, 0, .within 0 4127⟩,
  ⟨Ix.postcardSample, .u 4, .rw, .cfg, .fixed 16, .island 55, 0, .any⟩,
  ⟨Ix.postcardCondition, .u 2, .rw, .cfg, .fixed 16, .island 55, 0, .within 0 1023⟩]

/-- Objects at Cxxxh, part 3: events, ageing, supply, survey. -/
def objectsCc : List ObjDesc := [
  ⟨Ix.postcardThreshold, .u 4, .rw, .cfg, .fixed 16, .island 55, 10000, .any⟩,
  ⟨Ix.postcardEthertype, .u 2, .rw, .cfg, .scalar, .island 55, 0, .any⟩,
  ⟨Ix.postcardMac, .octets 12, .rw, .cfg, .scalar, .island 55, 0, .any⟩,
  ⟨Ix.postcardSent, .u 8, .ro, .hv, .fixed 16, .island 55, 0, .any⟩,
  ⟨Ix.postcardDropped, .u 8, .ro, .hv, .fixed 16, .island 55, 0, .any⟩,
  ⟨Ix.postcardFlush, .u 2, .rw, .cfg, .scalar, .island 55, 100, .within 1 10000⟩]

/-- The objects of one range of R365. -/
def objectsOf (range : Nat) : List ObjDesc :=
  match range with
  | 1 => objects1a ++ objects1b
  | 2 => objects2a ++ objects2b
  | 3 => objects3a ++ objects3b ++ objects3c ++ objects3d
  | 4 => objects4a ++ objects4b
  | 5 => objects5a ++ objects5b ++ objects5c ++ objects5d
  | 6 => objects6a
  | 7 => objects7a ++ objects7b ++ objects7c ++ objects7d
  | 8 => objects8a ++ objects8b ++ objects8c ++ objects8d
  | 9 => objects9a ++ objects9b
  | 10 => objectsAa ++ objectsAb
  | 11 => objectsBa
  | 12 => objectsCa ++ objectsCb ++ objectsCc
  | _ => []

/-- The object at an index, if one is assigned. -/
def objAt (idx : Nat) : Option ObjDesc := (objectsOf (idx / 0x1000)).find? fun o => o.idx == idx

/-- Width in bytes of an object or element (R360); the record size of a TABLE. -/
def Ty.width : Ty → Nat
  | .bool => 1
  | .u w => w
  | .i w => w
  | .time80 => 10
  | .time96 => 12
  | .octets n => n
  | .table size _ => size

/-- Type code of R360. -/
def Ty.code : Ty → Nat
  | .bool => 0x01
  | .u w => if w = 1 then 0x02 else if w = 2 then 0x03 else if w = 4 then 0x04 else 0x05
  | .i w => if w = 1 then 0x06 else if w = 2 then 0x07 else if w = 4 then 0x08 else 0x09
  | .time80 => 0x0A
  | .time96 => 0x0B
  | .octets _ => 0x0C
  | .table _ _ => 0x0E

/-- A TABLE object. -/
def Ty.isTable : Ty → Bool
  | .table _ _ => true
  | _ => false

/-- Access code of DESCRIBE (R376). -/
def Access.code : Access → Nat
  | .ro => 1 | .rw => 2 | .wo => 3 | .rwb => 4 | .rwg => 5 | .wol => 6 | .rc => 7

end Sys2Proof.Machine
end

