-- ==== Sys2Proof/Machine/Store.lean ====
section
/-! DEFINITION. The operations of sparse tables: the one reader and the one writer every table of State goes through. -/

namespace Sys2Proof.Machine

/-- What key `k` holds in `t`, if it is listed. -/
def tget {α : Type} : Tbl α → Nat → Option α
  | [], _ => none
  | (j, v) :: t, k => if j = k then some v else tget t k

/-- What key `k` holds in `t`, `d` where it is not listed. -/
def tgetD {α : Type} (t : Tbl α) (k : Nat) (d : α) : α := (tget t k).getD d

/-- `t` with key `k` not listed. -/
def terase {α : Type} : Tbl α → Nat → Tbl α
  | [], _ => []
  | (j, v) :: t, k => if j = k then terase t k else (j, v) :: terase t k

/-- `t` with key `k` listed as holding `v`; keys stay rising. -/
def tset {α : Type} : Tbl α → Nat → α → Tbl α
  | [], k, v => [(k, v)]
  | (j, w) :: t, k, v =>
    if k < j then (k, v) :: (j, w) :: t
    else if k = j then (k, v) :: t
    else (j, w) :: tset t k v

/-- The canonical write: a key that comes to hold the default `d` is not listed. -/
def tput {α : Type} [DecidableEq α] (d : α) (t : Tbl α) (k : Nat) (v : α) : Tbl α :=
  if v = d then terase t k else tset t k v

/-- The canonical update of one key. -/
def tmod {α : Type} [DecidableEq α] (d : α) (t : Tbl α) (k : Nat) (f : α → α) : Tbl α :=
  tput d t k (f (tgetD t k d))

/-- The keys of a table, in rising order. -/
def tkeys {α : Type} (t : Tbl α) : List Nat := t.map Prod.fst

/-- The entries of `t` whose key and value pass `p`. -/
def tfilter {α : Type} (p : Nat → α → Bool) (t : Tbl α) : Tbl α := t.filter fun e => p e.1 e.2

/-- Keys rise strictly: the canonical order of a table. -/
def tsorted {α : Type} : Tbl α → Bool
  | [] => true
  | [_] => true
  | (j, _) :: (k, w) :: t => decide (j < k) && tsorted ((k, w) :: t)

end Sys2Proof.Machine
end

