-- ==== Sys2Proof/Machine/State.lean ====
section
/-! DEFINITION. The state of the TVR-8512: every object of the dictionary, every queue, buffer and engine the spec names,
and the queue of commands that wait. Plain data throughout; one record per unit of the device. -/

namespace Sys2Proof.Machine

/-- Why the machine would stop with a fault: no rule of the spec makes the device stop, so there is no reason to name, and
no command raises one. A command that names a part the variant does not have (R2, R8, R10, R56) is answered with "no such
object" where it is a write, and is no event of this device, leaving the state as it is, where it is not (DESIGN CHOICE,
notes/assumptions/9.md). Safe. -/
inductive Fault where
  deriving DecidableEq, Repr

/-- Why the machine refuses a command. -/
inductive Refusal where
  /-- Raised by the arm of a command this model gives no meaning to. Safe. -/
  | notModelled (mnemonic : String)
  deriving DecidableEq, Repr

/-- The variant on the die and its temperature grade (R1, R3): fixed at manufacture, never written. -/
inductive Variant where
  | tvr8512 | tvr8256 | tvr8128
  deriving DecidableEq, Repr

/-! ### Islands and the apply strobe (chapter 1) -/

/-- A pending write of an island's store (R19): a parameter, or a staged TABLE with the records written so far. -/
structure PendWrite where
  idx : Nat
  sub : Nat
  recs : List (Nat × Nat)
  deriving DecidableEq, Repr

/-- What an island holds beside the objects it owns: its pending store (R19), the last beacon it received (R15), and when it
was last time-lost (R17). -/
structure Island where
  pend : List PendWrite := []
  /-- The raw time the last beacon carried, at which it was sent, and the raw time at which it was received. -/
  beacon : Raw := 0
  heard : Stamp := 0
  /-- The raw-counter rate the last beacon carried: the nominal period of the reference, in fifths of a ru. -/
  beaconRate : Nat := 0
  /-- The last time-lost interval: when it was entered, and when it was left (R17, R25). -/
  lost : Option (Raw × Option Raw) := none
  deriving DecidableEq, Repr

/-- An immediate strobe under way (R21): the islands it has not reached yet. -/
structure Strobe where
  waiting : List Nat
  /-- Sync time of its arrival at the meridian, as a TIME80 image (R27, APPLY_LAST). -/
  arrival : Nat
  deriving DecidableEq, Repr

/-- A scheduled strobe that is armed (R22, R23). -/
structure Armed where
  /-- The target as written, TIME80 image, and its domain. -/
  target : Nat
  domain : Nat
  /-- The raw target in force (R24). -/
  raw : Raw
  /-- Islands that hold the target, and islands that have not received it yet. -/
  held : List Nat
  unsent : List Nat
  /-- An island applied late, or the group applied at once (R23, R24, R25). -/
  late : Bool
  deriving DecidableEq, Repr

/-- The state of one apply group beyond its objects. -/
structure ApplyGroup where
  strobes : List Strobe := []
  armed : Option Armed := none
  deriving DecidableEq, Repr

/-! ### Frames, cells and handles (chapters 2 to 4) -/

/-- A frame at a receive MAC (R36, R45): the express MAC of port p at key p, the preemptable MAC at key 512 + p. -/
structure RxFrame where
  /-- Ingress timestamp and its invalid flag (R220, R221, R223). -/
  ts : Raw
  tsInvalid : Bool
  /-- The frame began while its port island or the device was in reset (R37). -/
  duringReset : Bool
  /-- Bytes received so far. -/
  bytes : List Byte
  /-- Its handle, once the first cell has been granted. -/
  pkt : Option Nat
  /-- It has failed a check and has been counted (R36). -/
  failed : Bool
  /-- Preemptable MAC: the final fragment has been received (R45). -/
  complete : Bool
  /-- Its port island has diverted it: it has no handle, and only its checks go on (R225, R374). -/
  diverted : Bool := false
  /-- CORMUS_ETHERTYPE and CORMUS_UDP_PORT as its first byte found them (R374). -/
  cormusIds : Nat × Nat := (0, 0)
  deriving DecidableEq, Repr

/-- The preemptable MAC of a port (R45, R46): the fragment it expects next and the verify machine. -/
structure PMac where
  /-- A frame is being reassembled: its SMD frame number and the next fragment count. -/
  smd : Nat := 0
  nextFrag : Nat := 0
  reassembling : Bool := false
  /-- Verify mPackets sent in this attempt and the raw time of the last one. -/
  attempts : Nat := 0
  lastVerify : Stamp := 0
  /-- Respond mPackets sent. -/
  responds : Nat := 0
  /-- A frame number for the next preemptable frame sent. -/
  txFrame : Nat := 0
  deriving DecidableEq, Repr

/-- One copy named by a forwarding decision (R82). -/
structure CopySpec where
  queue : Nat
  strip : Bool
  /-- A `mir` copy: the frame as received (R105). -/
  asReceived : Bool
  deriving DecidableEq, Repr

/-- One buffered side effect of a packet (R83, R110). -/
inductive Effect where
  | xmInsert (table key data : Nat)
  | xmDelete (table key : Nat)
  | cntAdd (index amount : Nat)
  | cntFrame (index : Nat)
  | meter (index mode : Nat)
  | replicate
  /-- `rcv`: the recovery function and the number read from the R-TAG, if the window held one (R178). -/
  | recover (function : Nat) (number : Option Nat)
  | postcard (target : Nat)
  | inBand (offset : Nat)
  deriving DecidableEq, Repr

/-- The result an awl sends to the keeper (R82): the edited window, the decision and the effect list. -/
structure Result where
  window : List Byte
  copies : List CopySpec
  effects : List Effect
  /-- The generation function of the last `spl` (R120). -/
  splitFn : Option Nat
  /-- The policing word, metadata bytes 60 to 63 (R155). -/
  police : Nat
  /-- The receive channel word, metadata bytes 56 to 59 (R311). -/
  rxChan : Nat
  /-- Survey outcome so far: 0 forwarded, 2 dropped by program, 3 program fault (R121). -/
  outcome : Nat
  cycles : Nat
  rig : Nat
  awl : Nat
  /-- Raw time of its arrival at the keeper. -/
  arrived : Raw
  deriving DecidableEq, Repr

/-- Where a handle is (R70, R71, R74, R82, R86); `reserved` is a host frame's reservation whose first cell has not been
written (R57, R68). -/
inductive Stage where
  | reserved | dispatchList | holdList | rigQueue (rig : Nat) | onAwl (awl : Nat) | atKeeper | enqueuing | retired
  deriving DecidableEq, Repr

/-- A deciding or policing charge taken for a packet at retire, kept for its refund (R92, R160). -/
structure Charge where
  meter : Nat
  amount : Nat
  /-- 0 green (from Tc), 1 yellow (from Te), 2 red. -/
  colour : Nat
  deriving DecidableEq, Repr

/-- A frame the device holds, with its handle (R68). -/
structure Packet where
  /-- Ingress source: 0–511 port, 512–515 internal host port; and the traffic class (R55). -/
  src : Nat
  cls : Nat
  preempt : Bool
  /-- Host channel and, for a launch-timed frame, its target (R310). -/
  chan : Nat
  unit : Nat
  /-- The sector it is dispatched to, whose keeper retires it (R69). -/
  home : Nat
  /-- Bytes stored so far, and the length L once it is known. -/
  bytes : List Byte
  ended : Bool
  len : Nat
  /-- Ingress timestamp. -/
  ts : Raw
  /-- The header window as dispatched is complete (R68). -/
  windowDone : Bool
  cells : List Nat
  /-- The reservation of R57: account, cells, drawn on the guarded pool, and whether it has been returned. -/
  account : Nat
  reserved : Nat
  guarded : Bool
  returned : Bool
  /-- Order domain, its sequence number, the R-TAG EtherType and program epoch fixed at creation. -/
  domain : Nat
  domSeq : Nat
  rtag : Nat
  epoch : Nat
  /-- The order setting of its source it was created under (R75). -/
  orderGen : Nat
  flowHash : Nat
  stage : Stage
  accepted : Bool
  acceptedAt : Raw
  failed : Bool
  stolen : Bool
  redispatched : Bool
  faults : Nat
  result : Option Result
  /-- Retire: its number once taken, copies still to be admitted with their list index, and what was decided. -/
  retireNo : Option Nat
  toEnqueue : List (Nat × CopySpec)
  decided : Bool
  retiredAt : Raw
  charges : List Charge
  /-- The number drawn for its R-TAG (R120, R179). -/
  drawn : Option Nat
  /-- DEI is set on every copy (R119, R156). -/
  dei : Bool
  committed : Bool
  surveyDone : Bool
  /-- Survey fields taken at the first copy's enqueue (R121): queue, sequence and depth, and the copies decided. -/
  firstQueue : Nat
  firstSeq : Nat
  firstDepth : Nat
  decidedCopies : Nat
  /-- Stream filter counts to be made at commit: filter and field (R156). -/
  filterCounts : List (Nat × Nat)
  /-- Launch time: the sync target in ru, its domain, the late limit in ns, and whether its raw target has fallen due (R310). -/
  launch : Option (Int × Nat × Nat)
  launchDue : Bool
  /-- Its transmit descriptor asked for an egress timestamp (R309). -/
  tsWanted : Bool
  /-- The parts counted as faulted until this handle retires (R192). -/
  faultParts : List Nat := []
  /-- Its ingress timestamp was taken by a time-lost island (R17, R223). -/
  tsInvalid : Bool := false
  /-- Its first copy was cut through (R121). -/
  firstCut : Bool := false
  /-- When its frame failed (R86, R90). -/
  failedAt : Raw := 0
  /-- Copies that have been admitted to their queues and are enqueued when it retires (R59, R86), and the function its number
  is drawn from then (R179). -/
  admitted : List (Nat × CopySpec) := []
  drawFrom : Option Nat := none
  deriving DecidableEq, Repr

/-- A copy in an egress queue (R88). -/
structure QCopy where
  pkt : Nat
  index : Nat
  spec : CopySpec
  seq : Nat
  enqueued : Stamp
  /-- It was enqueued while its queue held no other frame (R48). -/
  alone : Bool
  /-- It has been counted in GATE_GUARD_DEFERRALS (R146). -/
  deferred : Bool
  /-- Receive channel of a host copy (R311). -/
  chan : Nat := 0xFFFF
  /-- QUEUE_DEPTH_CELLS of its queue just before its enqueue (R121, R125). -/
  depth : Nat := 0
  /-- A bad cell has been logged for it (R53). -/
  lossLogged : Bool := false
  deriving DecidableEq, Repr

/-- A copy in transmission at a port (R136, R137): the express MAC at key p, a preempted or running preemptable frame at
key 512 + p. -/
structure TxCopy where
  copy : QCopy
  queue : Nat
  /-- Its window as sent; the frame's bytes from offset 256 follow. -/
  bytes : List Byte
  started : Raw
  /-- When the present stretch on the wire began, and the bytes sent in the stretches before it (R137). -/
  resumed : Stamp
  sent : Nat
  /-- Egress timestamp (R220, R221), and the frame length charged to its shapers (R151). -/
  ts : Raw
  charged : Nat
  cutThrough : Bool
  /-- It must end with a complemented FCS, after this many bytes where a bad cell cuts it (R49, R53). -/
  stomp : Bool
  cutAt : Option Nat
  /-- Preemptable MAC: the frame is preempted at present, and has been counted in PMAC_PREEMPTED. -/
  preempted : Bool
  countedPre : Bool
  /-- Its gate has closed under it and the overrun has been counted (R147). -/
  overrun : Bool
  deriving DecidableEq, Repr

/-- What a port's transmitter last put on the wire: the frame's bytes with its FCS. -/
structure Wire where
  frame : List Byte := []
  stomped : Bool := false
  ts : Raw := 0
  deriving DecidableEq, Repr

/-- The hold limit of a port (R62, R63): down since, expired, and what each queue has released since it expired. -/
structure HoldTimer where
  running : Bool := false
  started : Stamp := 0
  /-- Time already elapsed when a retaining reset stopped it (R195). -/
  elapsed : Nat := 0
  expired : Bool := false
  /-- Queue, last sequence released, number released. -/
  released : List (Nat × Nat × Nat) := []
  deriving DecidableEq, Repr

/-- One awl (R104). A key that is not listed is an idle, unfenced awl. -/
structure Awl where
  pkt : Option Nat := none
  regs : Tbl (BitVec 64) := []
  flag : Bool := false
  pc : Nat := 0
  window : List Byte := []
  /-- The 64 metadata bytes (R106). -/
  md : List Byte := []
  copies : List CopySpec := []
  effects : List Effect := []
  splitFn : Option Nat := none
  cycles : Nat := 0
  fenced : Bool := false
  /-- Restarting after a watchdog expiry since this raw time (R94). -/
  restart : Option Stamp := none
  deriving DecidableEq, Repr

/-- A rig beyond its objects: its automatic resets within the last 60 s (R97), what the load map shows of it (R77), and
the raw time before which it sends no further steal request. -/
structure Rig where
  autoResets : List Stamp := []
  mapDepth : Nat := 0
  stealWait : Option Stamp := none
  deriving DecidableEq, Repr

/-- One order domain (R73): the next number, and the raw time its last packet retired. -/
structure OrderDomain where
  nextSeq : Nat := 0
  lastRetire : Option Raw := none
  /-- It has been counted closed and has not opened since (R74). -/
  closed : Bool := false
  deriving DecidableEq, Repr

/-- One keeper (R86, R87, R89): its last enqueue, its last commit, and the records counted towards each sampling target. -/
structure Keeper where
  lastEnq : Option (Nat × Nat) := none
  lastCommit : Option Nat := none
  full : Bool := false
  sampleFlow : Nat := 0
  samplePost : Tbl Nat := []
  deriving DecidableEq, Repr

/-- A buffer cell the codec or scrubber has found something in (R53, R54). -/
structure CellMark where
  bad : Bool := false
  /-- Scrub passes in a row in which it was corrected; three of them condemn it: it is quarantined when it is next freed. -/
  runs : Nat := 0
  condemned : Bool := false
  deriving DecidableEq, Repr

/-! ### Packet programs and tables (chapter 4) -/

/-- A program image in a bank (R126). -/
structure Program where
  instrs : List (BitVec 64) := []
  entry : Nat := 0
  decls : List Byte := []
  scratch : List Byte := []
  build : Nat := 0
  digest : List Byte := []
  /-- The default bridge, whose instructions the spec does not list, and the methods it identifies streams by (R172). -/
  isDefault : Bool := true
  methods : Nat := 0
  /-- The image it came from, as SAVE keeps it (R370). -/
  image : List Byte := []
  deriving DecidableEq, Repr

/-- The program banks (R128, R129) and a check in progress with the copy of the stage it took. -/
structure Programs where
  active : Program := {}
  old : Option Program := none
  pending : Option Program := none
  checking : Option (List Byte) := none
  checkingDefault : Option Nat := none
  deriving DecidableEq, Repr

/-- One entry of an exact-match table (R113, R114). -/
structure XmEntry where
  data : Nat
  marked : Bool
  /-- Raw time of the commit that last wrote it (R115), turns counted. -/
  wroteAt : Nat := 0
  deriving DecidableEq, Repr

/-- The exact-match memory: entries of table t by key, the raw time of the last multiple its ageing counts from (R114), and the
keys the last sweep removed, with its raw time (R115); raw times with turns counted. -/
structure XmTable where
  entries : Tbl XmEntry := []
  t0 : Nat := 0
  swept : Nat := 0
  aged : List Nat := []
  deriving DecidableEq, Repr

/-- A meter's levels (R160) in the units of `Shaper`, with the raw time they were brought up to. -/
structure Meter where
  tc : Nat := 0
  te : Nat := 0
  upTo : Nat := 0
  deriving DecidableEq, Repr

/-- A survey record complete at its outcome event (R121, R122), 64 bytes. -/
abbrev Survey := List Byte

/-- A postcard frame being filled for a queue target (R124). -/
structure Postcard where
  records : List Survey := []
  first : Stamp := 0
  deriving DecidableEq, Repr

/-! ### Gates, shapers, policing and sampling (chapter 5) -/

/-- A gate schedule, of a port or of a stream gate (R139, R157). Entries are their 8- or 12-byte images. -/
structure Schedule where
  base : Nat := 0
  cycle : Nat := 0
  extension : Nat := 0
  domain : Nat := 0
  entries : List Nat := []
  deriving DecidableEq, Repr

/-- The gate machine of a port, or of a stream gate: oper and pending schedules, the change time as sync ns, and what the
gates show now. -/
structure Gate where
  oper : Option Schedule := none
  pending : Option Schedule := none
  change : Nat := 0
  /-- The apply that made the pending schedule, in sync ns of the oper schedule's domain: an old cycle that had begun by then
  goes on (R143). -/
  pendingFrom : Int := 0
  states : Nat := 0xFF
  hold : Bool := false
  /-- Stream gates: the previous oper list, when it was replaced, and octets passed by occurrence of an entry of the oper
  list and of the previous one (R157, R158). -/
  previous : Option Schedule := none
  changedAt : Stamp := 0
  octets : Tbl Nat := []
  octetsBefore : Tbl Nat := []
  occurrence : Option Nat := none
  latchClosed : Bool := false
  latchOctets : Bool := false
  deriving DecidableEq, Repr

/-- A shaper of a queue (R152, R153): credit and level in units of 1/(65,536 × 8,000,000) byte, which is what 1 kbit/s
brings in 1 ru, brought up to raw time `upTo`; `owed` is what the frame in transmission still takes from the credit. -/
structure Shaper where
  credit : Int := 0
  /-- Full at power-on: TB_BURST of 16,384 bytes (R153). -/
  level : Int := 8589934592000000
  owed : Nat := 0
  upTo : Nat := 0
  deriving DecidableEq, Repr

/-- The running window of queue sampling for one queue (R162, R163): counts, sums and bins. -/
structure QWindow where
  minCells : Nat := 0
  maxCells : Nat := 0
  sumCells : Nat := 0
  minBytes : Nat := 0
  maxBytes : Nat := 0
  sumBytes : Nat := 0
  minSojourn : Nat := 0
  maxSojourn : Nat := 0
  sumSojourn : Nat := 0
  bins : List Nat := []
  deriving DecidableEq, Repr

/-- The sampling unit: samples taken in the window, its number, the last sample's raw time, and the queues' windows. -/
structure Sampling where
  samples : Nat := 0
  number : Nat := 0
  last : Raw := 0
  queues : Tbl QWindow := []
  /-- The last window that ended (R163): its number, last sample, samples and reductions. -/
  ended : Bool := false
  endNumber : Nat := 0
  endLast : Raw := 0
  endSamples : Nat := 0
  endQueues : Tbl QWindow := []
  deriving DecidableEq, Repr

/-! ### Redundancy (chapter 6) -/

/-- A sequence recovery function's running state beyond its record (R183 to R188). -/
structure Recovery where
  timerRunning : Bool := false
  lastPass : Nat := 0
  /-- Raw times of the last latent test and reset multiples (R188), turns counted. -/
  testFrom : Nat := 0
  resetFrom : Nat := 0
  deriving DecidableEq, Repr

/-! ### The units of the device, chapters 1 to 6 -/

/-- Frames from the receive MACs to their cells and queues (chapters 2, 3 and 5). -/
structure FrameUnit where
  rx : Tbl RxFrame := []
  /-- Frames counted by the lane islands while a port island was in reset, by port (R37). -/
  rxDuringReset : Tbl Nat := []
  pmac : Tbl PMac := []
  /-- Every frame that holds a handle, by handle number in creation order. -/
  pkts : Tbl Packet := []
  nextPkt : Nat := 0
  /-- Dispatch list of sector s, hold list of an order domain, rig queue of rig s: handle numbers, head first. -/
  dispatchQ : Tbl (List Nat) := []
  holdQ : Tbl (List Nat) := []
  rigQ : Tbl (List Nat) := []
  orderDomains : Tbl OrderDomain := []
  orderGens : Tbl Nat := []
  keepers : Tbl Keeper := []
  /-- Egress queue q: its copies, head first. -/
  queues : Tbl (List QCopy) := []
  tx : Tbl TxCopy := []
  wire : Tbl Wire := []
  hold : Tbl HoldTimer := []
  cells : Tbl CellMark := []
  quarantine : List Nat := []
  /-- The buffer code in force (R52), and the raw time of the last scrub pass (R54). -/
  eccInForce : Nat := 0
  scrubbed : Stamp := 0
  /-- Last complete survey record of each keeper, and postcard frames being filled. -/
  surveys : Tbl Survey := []
  postcards : Tbl Postcard := []
  sampling : Sampling := {}
  deriving DecidableEq, Repr

/-- Rigs, awls and their programs (chapters 3 and 4). -/
structure RigUnit where
  rigs : Tbl Rig := []
  /-- Awl a of rig s at key 256 s + a. -/
  awls : Tbl Awl := []
  /-- Scratch byte b of rig s at key 262,144 s + b (R107). -/
  scratch : Tbl Byte := []
  progs : Programs := {}
  /-- Raw time of the last report on the load map (R77). -/
  lastReport : Raw := 0
  deriving DecidableEq, Repr

/-- Exact-match tables, meters and recovery timers: what the table islands hold beside their TABLE objects. -/
structure TableUnit where
  xm : Tbl XmTable := []
  meters : Tbl Meter := []
  recovery : Tbl Recovery := []
  deriving DecidableEq, Repr

/-- Gates and shapers: port p's gate at key p, stream gate g at key 512 + g; shaper of queue q at key q. -/
structure EgressUnit where
  gates : Tbl Gate := []
  shapers : Tbl Shaper := []
  deriving DecidableEq, Repr

/-- Islands and apply groups. -/
structure IslandUnit where
  islands : Tbl Island := []
  groups : Tbl ApplyGroup := []
  /-- Parts counted as faulted, by their code in GUARANTEE_FAULT_PART (R192). -/
  faultParts : List Nat := []
  deriving DecidableEq, Repr

/-! ### The event log (chapter 16) -/

/-- One entry of the event log (R459). -/
structure LogEntry where
  seq : Nat
  boot : Nat
  code : Nat
  raw : Raw
  island : Nat
  severity : Nat
  afterHold : Bool
  cut : Bool
  count : Nat
  params : List Byte
  deriving DecidableEq, Repr

/-- A command that writes the NV store (R369, R423, R426): its code, the bytes it writes, 32-byte units still to write,
failed read-backs in a row, and the cause it fails with, 0 for none. -/
structure NvJob where
  code : Nat
  data : List Byte
  left : Nat
  retries : Nat := 0
  cause : Nat := 0
  deriving DecidableEq, Repr

/-- A quote being made (R441 to R446): the nonce, domain and instants latched, collections made, and its commit. -/
structure QuoteJob where
  nonce : List Byte
  domain : Nat
  raw : Raw
  sync : Nat
  /-- Leaf index committed for it, once it is. -/
  leaf : Option Nat := none
  /-- The change counts read before collecting, and the signed part collected, without its leaf index (R445). -/
  watch : List Nat := []
  body : List Byte := []
  retries : Nat := 0
  failed : Bool := false
  deriving DecidableEq, Repr

/-- A daily record of the wear history (R450): W and its temperature part in 2^-40 s, and δ in ppm, by island. -/
structure WearDay where
  wear : Tbl Nat
  heat : Tbl Nat
  delta : Tbl Int
  deriving DecidableEq, Repr

/-- The non-volatile store and what it holds (chapters 14 to 16), and the fuses (R429). A slot that is not listed holds what
was put there at manufacture. -/
structure NvUnit where
  /-- The event log, newest entry first, and the events that wait while writes are held (R424, R460). -/
  log : List LogEntry := []
  heldEvents : List LogEntry := []
  /-- WOL objects that have been written and locked, by their dictionary keys (R364). -/
  locked : List Nat := []
  /-- Firmware and image slots 0 and 1 (R368, R422, R425), and the commands under way. -/
  fwSlots : Tbl (List Byte) := []
  imgSlots : Tbl (List Byte) := []
  fwJob : Option NvJob := none
  imgJob : Option NvJob := none
  /-- Revoked root keys as a mask, and the fused minimum security version (R429). -/
  revoked : Nat := 0
  minSecurity : Nat := 0
  /-- Committed next leaf index, and the bottom tree that has been built in the background (R437, R438). -/
  nextLeaf : Nat := 0
  builtTree : Nat := 0
  quote : Option QuoteJob := none
  /-- Raw time of the last quote that reached DONE (R441); the warnings of R439 have been logged. -/
  lastQuote : Option Stamp := none
  /-- QUOTE as it reads (R446). -/
  quoteOut : List Byte := []
  signWarned : Bool := false
  exhaustedLogged : Bool := false
  /-- Cormus counters committed, by key (R378). -/
  cormusCounters : Tbl Nat := []
  /-- The reset-cause unit (R458): 0 "running", else a cause; with its rail or sensor. -/
  cause : Nat := 0
  causeRail : Nat := 0xFF
  /-- BOOT_NUMBER as last written (R458). -/
  boots : Nat := 0
  /-- Wear as last written, the daily records, newest first, and an hourly write that waits while writes are held (R450). -/
  wear : WearDay := ⟨[], [], []⟩
  days : List WearDay := []
  wearHeld : Bool := false
  /-- The user area by 32-byte record (R422). -/
  user : Tbl Nat := []
  deriving DecidableEq, Repr
/-! ### Interrupt vectors and the host island (chapters 10 and 11) -/

/-- One MSI-X vector (R321, R322, R324). -/
structure Vec where
  count : Nat := 0
  timer : Stamp := 0
  /-- Raw time of the oldest completion behind a pending message or request (R324). -/
  since : Stamp := 0
  masked : Bool := false
  pending : Bool := false
  /-- A due message that waits for L0 (R323) or for the power state (R324). -/
  held : Bool := false
  /-- Address and data of its entry in the MSI-X table (R297). -/
  addr : Nat := 0
  data : Nat := 0
  deriving DecidableEq, Repr

/-- One transfer of at most a chunk (R342): `n` bytes from one address to another; pixels `i` to `i + n - 1` of a plane
split or merge (R346); `n` bytes of a frame from offset `off`, fetched or delivered. -/
inductive Xfer where
  | copy (src dst n : Nat)
  | split (i n : Nat)
  | merge (i n : Nat)
  | fetch (off n : Nat)
  | deliver (off n : Nat)
  deriving DecidableEq, Repr

/-- Where a unit is: accepted; a receive descriptor ready for use; a transmit frame that waits for its reservation (R57);
its transfers under way; finished, its outcome standing until its write-back. -/
inductive HStage where
  | accepted | usable | waiting | started | finished
  deriving DecidableEq, Repr

/-- A completion unit (R316): a transmit chain, a received frame, a postcard record or a move descriptor; a receive
descriptor that no frame has taken is a unit of its own. -/
structure HUnit where
  /-- 0 transmit, 1 receive, 2 move, 3 postcard: the type of its completion record. -/
  kind : Nat
  /-- Its descriptors as read, 32 bytes each, with their indices; `first` is the first index. -/
  first : Nat
  descs : List (Nat × List Byte)
  stage : HStage := .accepted
  outcome : Nat := 0
  cause : Nat := 0
  /-- Data bytes done (R301), transfers not begun, and chunks in flight, oldest first. -/
  done : Nat := 0
  todo : List Xfer := []
  flying : List Xfer := []
  /-- A successful abort stops further chunks (R354). -/
  aborted : Bool := false
  /-- The handle that carries a transmit frame's reservation and then the frame, and the host copy of a received frame. -/
  pkt : Option Nat := none
  copy : Option QCopy := none
  /-- Bytes fetched so far, or the bytes to deliver. -/
  data : List Byte := []
  /-- Timestamp of its record, whether no time-lost island took it (R223), and launch late (R318). -/
  ts : Option (Raw × Bool) := none
  late : Bool := false
  cls : Nat := 0
  source : Nat := 0x3FF
  length : Nat := 0
  /-- Repetitions of the access under way (R350). -/
  retries : Nat := 0
  /-- A move whose source and destination overlap (R191). -/
  meets : Bool := false
  /-- The arbiter's turn in which it was accepted (R307). -/
  turn : Nat := 0
  /-- What ends it has happened; it finishes once the rest of its frame has been fetched (R309). -/
  ended : Bool := false
  deriving DecidableEq, Repr

/-- A transfer channel (R300 to R307, R329 to R359). -/
structure Channel where
  /-- The cached entry in force, 128 bytes, and the entry last held (R332, R334). -/
  entry : Option (List Byte) := none
  last : Option (List Byte) := none
  used : Stamp := 0
  /-- A doorbell waits for its entry; an index-block read is in flight; a further read has been asked for (R304, R332). -/
  ringing : Bool := false
  reading : Bool := false
  again : Bool := false
  /-- Descriptors below the producer index last read are still to be taken (R307). -/
  more : Bool := false
  /-- Progress: descriptors accepted, written back, posted; units finished; mark of the last request (R303). -/
  accepted : Nat := 0
  consumer : Nat := 0
  producer : Nat := 0
  finished : Nat := 0
  mark : Nat := 0
  /-- Units accepted and not written back, in ring order; a receive descriptor without a frame is a unit of stage 0. -/
  units : List HUnit := []
  /-- The channel accepts nothing more: it halts (R352), with cause and index. -/
  halting : Option (Nat × Nat) := none
  entryBad : Bool := false
  /-- An invalidation waits for the accepted units (R333); its doorbell's wait for room has been counted (R332). -/
  dropping : Bool := false
  counted : Bool := false
  /-- Repetitions of the index-block or descriptor read under way (R350). -/
  retries : Nat := 0
  /-- Pacing level in the units of `paceUnit`, and its raw time with the turns of the counter (R345). -/
  level : Int := 0
  levelAt : Nat := 0
  /-- The event of R317 for a disabled or absent ring has been logged. -/
  ringLogged : Bool := false
  deriving DecidableEq, Repr

/-- A completion ring (R317, R319). -/
structure CRing where
  producer : Nat := 0
  consumer : Nat := 0
  backlog : List (List Byte) := []
  lastPoll : Stamp := 0
  deriving DecidableEq, Repr

/-- The host island (chapters 10 and 11). -/
structure HostUnit where
  vecs : Tbl Vec := []
  channels : Tbl Channel := []
  crings : Tbl CRing := []
  /-- Link: 0 L0, 1 L1, 2 L1.1, 3 L1.2; trained width and transfer rate in MT/s; reference present. -/
  link : Nat := 0
  l0Wanted : Bool := false
  width : Nat := 0
  rate : Nat := 0
  d3hot : Bool := false
  busMaster : Bool := false
  msixEnable : Bool := false
  functionMask : Bool := false
  pmeEnable : Bool := false
  pmeStatus : Bool := false
  /-- PERSTn is low. -/
  perst : Bool := false
  /-- The arbiter (R307): the channel it visits and the turns left of its visit. -/
  visit : Option (Nat × Nat) := none
  /-- Turns granted so far. -/
  turnCount : Nat := 0
  /-- DMA mode in which the island runs, and a change that waits for the started units (R344). -/
  dmaOper : Option Nat := none
  dmaNext : Option Nat := none
  deriving DecidableEq, Repr

/-! ### Lanes (chapter 13) -/

/-- A lane's timers and flags beside its objects (R396 to R408). -/
structure Lane where
  entered : Stamp := 0
  /-- Link-up timer: its start, and whether a signal was seen since (R399). -/
  linkTimer : Option Stamp := none
  signalSeen : Bool := false
  /-- Back-off: its start and length in ms, and failures in a row since UP (R398). -/
  backoff : Option (Stamp × Nat) := none
  failures : Nat := 0
  /-- Adaptation runs at the idle-guard step (R400), since when, and the last frame data. -/
  guard : Bool := false
  guardSince : Stamp := 0
  lastData : Stamp := 0
  /-- The anchor refresh period (R401): its start, idle-guard time before the present guard, and the port's
  FEC_UNCORRECTED_CW at its start. -/
  refreshFrom : Stamp := 0
  /-- When its eye was last measured (R407). -/
  eyeAt : Stamp := 0
  guardTime : Nat := 0
  fecAt : Nat := 0
  /-- Raw time of the last reversion event (R400). -/
  revertLogged : Option Stamp := none
  rxAsleep : Bool := false
  rxSince : Stamp := 0
  txSince : Stamp := 0
  /-- Announced quiet period in µs and the raw time its silence counts from (R406). -/
  quiet : Option (Nat × Stamp) := none
  /-- PRBS checker: error-free bits before lock, and the error flags of the last 1,024 bits while locked, newest first. -/
  prbsRun : Nat := 0
  prbsWin : List Bool := []
  deriving DecidableEq, Repr

/-- A port's transmit direction (R402 to R405): asleep, waking until, and the time it last had something to send. -/
structure PortLink where
  asleep : Bool := false
  wakeDone : Option Stamp := none
  idleSince : Stamp := 0
  /-- Native quiet: the raw time the present quiet period began. -/
  quietFrom : Stamp := 0
  deriving DecidableEq, Repr

/-- Lanes and port transmit directions. -/
structure LaneUnit where
  lanes : Tbl Lane := []
  ports : Tbl PortLink := []
  deriving DecidableEq, Repr


/-! ### Time (chapters 7 and 9) -/

/-- An exact fraction, in lowest terms, for values the spec computes without stating a resolution (R213). -/
structure Frac where
  num : Int := 0
  den : Nat := 1
  deriving DecidableEq, Repr

/-- A domain's correction (R204, R206): sync = S + delta + ⌊(ρ delta + rem) / 2^48⌋, with the floor's remainder carried. -/
structure Correction where
  pivot : Raw := 0
  sync : Int := 0
  rem : Nat := 0
  rho : Int := 0
  deriving DecidableEq, Repr

/-- An offset sample at a servo path (R218): its θ and when it came. -/
structure PathSample where
  theta : Int := 0
  taken : Stamp := 0
  seen : Bool := false
  deriving DecidableEq, Repr

/-- The servo of a domain (R212 to R218). -/
structure Servo where
  lastAccepted : Stamp := 0
  /-- A sample has been accepted since FREE_RUN was left or entered: T is defined (R213). -/
  hasSample : Bool := false
  integ : Frac := {}
  output : Int := 0
  /-- Integrator as it stood when holdover, or the slew-limited mode, was entered. -/
  heldI : Frac := {}
  lockRun : Nat := 0
  missRun : Nat := 0
  delays : List Int := []
  settling : Option (List Int) := none
  /-- A settling run has ended: the new mean is in force and the next accepted sample is the first after the step. -/
  settled : Bool := false
  oldMean : Int := 0
  holdoverByStep : Bool := false
  slewLimited : Bool := false
  main : PathSample := {}
  alt : PathSample := {}
  disagreeRun : Nat := 0
  inEpisode : Bool := false
  suspect : Option Nat := none
  suspectRun : List Int := []
  /-- The path-delay detector is active (R215). -/
  detector : Bool := false
  /-- Quorum has been regained and the first sample after it is awaited (R290). -/
  healing : Bool := false
  deriving DecidableEq, Repr

/-- Quorum of a domain (R284 to R290): roll numbers held and their last rises by member, its own roll number. -/
structure Quorum where
  roll : Nat := 0
  held : Tbl Nat := []
  rises : Tbl Stamp := []
  /-- Members seen (R286), itself apart. -/
  seen : List Nat := []
  lastRoll : Stamp := 0
  deriving DecidableEq, Repr

/-- One time domain. -/
structure TDomain where
  corr : Correction := {}
  /-- Changes sent on the time bus and not yet effective, in order, each with its effective raw time (R16). -/
  queue : List (Raw × Correction) := []
  /-- Slew remainder in 2^-48 ru, brought up to `slewAt` (R211). -/
  slew : Int := 0
  slewAt : Raw := 0
  /-- Slew part in force after the clamp (R211). -/
  part : Int := 0
  servo : Servo := {}
  /-- When the present run without an accepted sample began (R212), and the state was entered. -/
  quietSince : Stamp := 0
  enteredAt : Stamp := 0
  quorum : Quorum := {}
  /-- Samples offered by a ring or a pin and not yet taken: θ and D (R227, R255). -/
  offered : List (Int × Int) := []
  /-- Silence: samples in a row within the return threshold (R292). -/
  returnRun : Nat := 0
  deriving DecidableEq, Repr

/-- A time pin (R228 to R233). -/
structure Pin where
  /-- The pin drives its ball high (R229). -/
  level : Bool := false
  /-- Next edge: the pulse number and its raw target, in ru since the raw counter was started. -/
  next : Option (Nat × Int) := none
  fallAt : Option Raw := none
  fifo : List (List Byte) := []
  lastEdge : Option Raw := none
  lostFlag : Bool := false
  deriving DecidableEq, Repr

/-- The time engine's view of port p in domain d, at key 4 p + d (R224, R282). -/
structure PtpPort where
  lastAnnounce : Stamp := 0
  announceSeen : Bool := false
  /-- The grandmaster vector of the last Announce, as received, and the identity of the port that sent it. -/
  best : List Byte := []
  sender : List Byte := []
  /-- A timestamp of the last Sync received, and of the last delay exchange, was taken by a time-lost island (R223). -/
  syncLost : Bool := false
  delayLost : Bool := false
  /-- Raw times the port last sent Sync, Announce, Pdelay and a roll call. -/
  sentSync : Option Stamp := none
  sentAnnounce : Option Stamp := none
  sentPdelay : Option Stamp := none
  sentRoll : Option Stamp := none
  seqRoll : Nat := 0
  seqSync : Nat := 0
  seqAnnounce : Nat := 0
  seqPdelay : Nat := 0
  deriving DecidableEq, Repr

/-- A time message that waits for the time engine (R225): the port and domain it came for, its receive timestamp and whether a
time-lost island took it (R223), when it came, and the mean link delay it completes, where it does. -/
structure TimeMsg where
  port : Nat
  dom : Nat
  bytes : List Byte
  ts : Raw
  lost : Bool
  at_ : Stamp
  delay : Option Int := none
  deriving DecidableEq, Repr

/-- The meridian and the time engine. -/
structure TimeUnit where
  domains : Tbl TDomain := []
  pins : Tbl Pin := []
  ptp : Tbl PtpPort := []
  /-- Time messages the engine has not yet taken, oldest first: at most 1,024 (R225). -/
  waiting : List TimeMsg := []
  /-- The last time message each port has sent (R226). -/
  sent : Tbl (List Byte) := []
  /-- The reference frequency code in force (R202), and whether the reference is present (R466). -/
  refFreq : Nat := 2
  refPresent : Bool := true
  /-- How often the raw counter has come round since it was started: with it the model tells raw times apart that lie a whole
  turn of the counter from one another (not the spec's; DESIGN CHOICE). -/
  turns : Nat := 0
  deriving DecidableEq, Repr

/-! ### Henay rings (chapters 8 and 9) -/

/-- What has come back for one slot of a cycle (R247, R264, R267). -/
structure SlotRet where
  receipt : Nat := 0
  notReady : Bool := false
  claim : Bool := false
  data : List Byte := []
  got : Bool := false
  deriving DecidableEq, Repr

/-- The timing of a ring or a pair (R250): base time in ns, cycle time, output and input offsets, and domain. -/
structure Timing where
  base : Nat
  cycle : Nat
  output : Int
  input : Int
  dom : Nat
  deriving DecidableEq, Repr

/-- A cycle a master ring has sent and not yet closed (R261 to R268). -/
structure RingCycle where
  k : Nat
  /-- The timing it was sent under, and the number of that timing (R251). -/
  timing : Timing
  era : Nat
  /-- The layout it was sent under, 16-byte records, with its generation. -/
  layout : List (List Byte)
  gen : Nat
  kept : List Nat
  frames : Nat
  null : Bool
  /-- Its frames went out with twins; its data-invalid flag. -/
  twin : Bool
  invalid : Bool
  /-- Frames as sent from the out port, without FCS; frame indices that left. -/
  sent : List (List Byte)
  left : List Nat
  /-- Transmit timestamp of frame 0. -/
  ts0 : Raw
  /-- Frames committed: index, and whether the twin. -/
  back : List (Nat × Bool)
  /-- Frames that came back and failed a check. -/
  spoiled : Bool := false
  slots : List SlotRet
  lastRx : Option Raw := none
  trip : Option Nat := none
  claimed : Bool := false
  /-- Frame indices that returned on the in port (R267), and those whose claims have been judged (R265). -/
  healed : List Nat := []
  judged : List Nat := []
  deriving DecidableEq, Repr

/-- A master ring (R240 to R281). -/
structure MRing where
  /-- 0 off, 5 STANDBY, 6 CLAIMING, 1 STARTING, 2 RUNNING; the layout has failed its check; BROKEN now and from the next cycle. -/
  mode : Nat := 0
  bad : Bool := false
  broken : Bool := false
  breakNext : Bool := false
  healRun : Nat := 0
  /-- First cycle, the cycle whose gather has begun with its image once complete, and the last cycles gathered and sent. -/
  first : Nat := 0
  gathered : Option (Nat × Option (List Byte)) := none
  lastGather : Option Nat := none
  lastSent : Option Nat := none
  cycles : List RingCycle := []
  recordNo : Nat := 0
  margins : List Int := []
  /-- Slots whose claim was confirmed and is still to be flagged (R265); generation of the layout in force. -/
  present : List Nat := []
  gen : Nat := 0
  /-- Spare slots claimed under this layout: they keep their room in both images (R258, R265). -/
  kept : List Nat := []
  /-- The layout in force since the last gather began, its generation, and its claimed slots (R258). -/
  inForce : List (List Byte) := []
  genInForce : Nat := 0
  keptInForce : List Nat := []
  /-- The number of the timing in force: a cycle sent under an earlier one is let return first (R251). -/
  era : Nat := 0
  /-- A duel has been lost: it stands by at the end of the cycle in flight (R281). -/
  leaving : Bool := false
  /-- Quorum of its domain has been lost since its last gather began (R288). -/
  lost : Bool := false
  /-- A frame that exceeds PORT_MAX_FRAME has been logged (R42). -/
  bigLogged : Bool := false
  /-- Mastership: listening since, claims sent since enable, slots in a row returned, a claim is out. -/
  listenFrom : Stamp := 0
  attempt : Nat := 0
  claimRun : Nat := 0
  claimOut : Bool := false
  /-- Raw time at which the present claim slot began (R276). -/
  slotAt : Option Stamp := none
  /-- The node yielded to; the back-off's end and whether a cycle frame was seen in it. -/
  yieldTo : Option (Nat × Stamp) := none
  backoff : Option (Stamp × Bool) := none
  /-- Reference frames missing in a row, the cycles whose reference frame has been seen or judged. -/
  missRun : Nat := 0
  refSeen : Option Nat := none
  judged : Option Nat := none
  deriving DecidableEq, Repr

/-- A pass-through pair's cycle so far (R256, R262). -/
structure PtCycle where
  k : Nat := 0
  served : Nat := 0
  notReady : Nat := 0
  stored : Bool := false
  nullSeen : Bool := false
  frameSeen : Bool := false
  invalid : Bool := false
  late : Bool := false
  deriving DecidableEq, Repr

/-- A pass-through pair (R245 to R266). -/
structure PtPair where
  /-- It has served a frame since enable. -/
  served : Bool := false
  enabled : Bool := false
  /-- Input areas of the last two cycles sampled, the older first: the cycle, and its bytes once the gather is complete. -/
  inputs : List (Nat × Option (List Byte)) := []
  /-- The last frame came in at port A. -/
  fromA : Bool := true
  /-- Output area, byte by byte. -/
  output : Tbl Byte := []
  cur : PtCycle := {}
  /-- Last cycle whose outputs were latched, and inputs sampled. -/
  latched : Option Nat := none
  sampled : Option Nat := none
  /-- First passages so far: cycle and frame index. -/
  seen : List (Nat × Nat) := []
  /-- The slot written by the claim under way, and its cycle (R264, R266). -/
  claim : Option (Nat × Nat) := none
  delayLogged : Bool := false
  deriving DecidableEq, Repr

/-- Master rings and pass-through pairs. -/
structure RingUnit where
  rings : Tbl MRing := []
  pairs : Tbl PtPair := []
  deriving DecidableEq, Repr
/-! ### Memories (chapters 11 and 14) -/

/-- A channel under restore (R418): the share of the mirror region copied so far, in bytes. -/
structure MemChan where
  /-- Retrainings that failed in a row, and raw times of its uncorrectable codewords within a second (R417). -/
  retrainFails : Nat := 0
  uncorrectable : List Stamp := []
  /-- Raw times of its last retraining check, temperature poll and high-temperature event (R412, R413). -/
  checked : Stamp := 0
  polled : Stamp := 0
  hotLogged : Option Stamp := none
  deriving DecidableEq, Repr

/-- Host memory and LPDDR4X as the device sees them, byte by byte in canonical form: addresses rising, and no entry that
equals what an unlisted address reads as, which is 0 (DESIGN CHOICE); and the memory island's own state. -/
structure MemUnit where
  host : List Host.Cell := []
  lpddr : List Host.Cell := []
  /-- Configuration in force (R411): M and D in bytes, and the rate code. -/
  mirror : Nat := 0
  chanData : Nat := 0
  rate : Nat := 2
  /-- Codewords (device address / 64) found uncorrectable (R419), and by restored channel the codewords outside the
  mirror region written since its restore: the others hold poison (R418). -/
  badWords : List Nat := []
  poison : Tbl (List Nat) := []
  chans : Tbl MemChan := []
  /-- Raw time of the last completed scrub pass (R419), turns counted. -/
  scrubbed : Nat := 0
  deriving DecidableEq, Repr


/-! ### Resets and the supervisor (chapter 17) -/

/-- Why the device is held in reset (R456, R457, R466, R471). -/
inductive Hold where
  | porn | rstn | request | rail | thermal
  deriving DecidableEq, Repr

/-- The test access port (R496): its instruction, whether it stands in test-logic reset, and whether it left that state
while TEST_EN was 0 and takes only the three harmless instructions. -/
structure Tap where
  ir : Nat := 1
  inReset : Bool := true
  limited : Bool := false
  /-- A test instruction has been in force since the last power-on or device reset: the lanes do not work (R409). -/
  tested : Bool := false
  /-- What the data register captures: the identity code, or 0 for BYPASS. -/
  captured : Option Nat := none
  deriving DecidableEq, Repr

/-- The supervisor and the resets under way. -/
structure SysUnit where
  /-- What holds the device in reset: PORn is low right after power-on (R466). -/
  hold : Option Hold := some .porn
  /-- The last PORn came while every rail was above its reset level (R458). -/
  porGood : Bool := true
  /-- In the reset of a thermal trip: since when every sensor has read cool (R457). -/
  coolFrom : Option Stamp := none
  /-- The device stays in ROM recovery (R433). -/
  recovery : Bool := false
  tap : Tap := {}
  /-- The supervisor core restarts at present (R479), and raw times of its restarts within 60 s (R480). -/
  superDown : Bool := false
  /-- Since when the supervisor core has run: its watchdog counts from here at the earliest (R479). -/
  upSince : Stamp := 0
  restarts : List Stamp := []
  /-- A retaining reset is under way, from its start to step 6 (R196). -/
  retaining : Bool := false
  /-- Ports that were up when it began, and when it began (R195, R197). -/
  wasUp : List Nat := []
  resetFrom : Stamp := 0
  /-- RSTn is low in it: it holds the logic in reset (R472). -/
  rstLow : Bool := false
  /-- BAR writes queued while the supervisor restarts or a retaining reset runs, at most 1,024 (R386, R474). -/
  held : List Instr := []
  /-- Reads of the memory view that wait as well (R386): how many queued writes came before, the command, and when it came. -/
  heldReads : List (Nat × Instr × Stamp) := []
  deriving DecidableEq, Repr

/-! ### The memory view (chapter 12) -/

/-- The memory view's own registers and buffers (R381 to R385). -/
structure MvUnit where
  /-- MV_IND_ADDR, MV_IND_STATUS, MV_STATUS and MV_LAST_ABORT. -/
  indAddr : Nat := 0
  indStatus : Nat := 0
  status : Nat := 0
  lastAbort : Nat := 0
  /-- Bytes of an element or record written through the pair and not complete (R384). -/
  indStage : List Byte := []
  /-- Mailbox (R383): its 32 bytes, valid, staging rather than a latch, and the object it belongs to. -/
  mailbox : List Byte := List.replicate 32 0#8
  valid : Bool := false
  staging : Bool := false
  object : Nat := 0
  /-- A guarded value that waits for its complement (R385): object, value and the raw time it came. -/
  guarded : Option (Nat × Nat × Stamp) := none
  deriving DecidableEq, Repr

/-- A response kept for repetitions (R379): its source, sequence, key number with 4 for untagged, counter, and the frame
sent. -/
structure CormusReply where
  source : List Byte
  seq : Nat
  key : Nat
  counter : Nat
  frame : List Byte
  sentAt : Stamp
  deriving DecidableEq, Repr

/-- The Cormus server (R374 to R379): keys that have been written, kept responses oldest first, and messages that wait for
the supervisor or for a supply warning, as port (512 the management port) and frame. -/
structure CormusUnit where
  keys : Tbl (List Byte) := []
  cache : List CormusReply := []
  waiting : List (Nat × List Byte × Nat × Nat) := []
  /-- The last response sent, as a whole frame without FCS. -/
  reply : List Byte := []
  /-- Answers that wait for a transmit opportunity, as data port and frame (R375). -/
  out : List (Nat × List Byte) := []
  deriving DecidableEq, Repr

/-- The management port (R387): fallen back to CSMA/CD, the last BEACON heard or sent, and the last frame sent. -/
structure MgmtPort where
  fellBack : Bool := false
  beacon : Stamp := 0
  /-- Transmit opportunities of the coordinator's cycle under way. -/
  cycle : Nat := 0
  sent : List Byte := []
  /-- Frames that wait to be sent, oldest first. -/
  out : List (List Byte) := []
  deriving DecidableEq, Repr

/-! ### Ageing and supplies (chapter 16) -/

/-- A dip of a rail (R456): its start, its least voltage in mV, and the last fall below the warning level. -/
structure Dip where
  start : Stamp := 0
  least : Nat := 0xFFFF
  last : Stamp := 0
  deriving DecidableEq, Repr

/-- Rails, the voltage loop and the thermal warning (R454 to R457). -/
structure SupplyUnit where
  dips : Tbl Dip := []
  /-- The setpoint before a step that still settles; when the loop last moved; the regulator's mode is not linear (R487);
  the need of more than 0.82 V has been logged. -/
  settling : Option Nat := none
  moved : Option Stamp := none
  /-- Raw time of the last measurement of the margins (R455). -/
  measuredAt : Stamp := 0
  loopOff : Bool := false
  limitLogged : Bool := false
  /-- The warning of R457 has been logged and has not re-armed; THERM_ALERTn is low (R488). -/
  hot : Bool := false
  alert : Bool := false
  deriving DecidableEq, Repr

/-- The wear of the islands (R449 to R453). Wear counts in 2^-40 s. -/
structure AgeUnit where
  wear : Tbl Nat := []
  heat : Tbl Nat := []
  /-- A_T × A_V summed over the present hour, and seconds in it. -/
  hour : Tbl Nat := []
  seconds : Nat := 0
  /-- Raw times of the last second integrated, hourly write and hourly measurement of the benchmark pairs (R448 to R450). -/
  secondAt : Stamp := 0
  hourAt : Stamp := 0
  benchAt : Stamp := 0
  /-- Hourly writes made, and the islands' W_end where the benchmark set the life (R453). -/
  hours : Nat := 0
  ends : Tbl Nat := []
  /-- Hourly vertical margins of lane l, newest first, as hour and mV (R452). -/
  eye : Tbl (List (Nat × Nat)) := []
  gradeOver : Bool := false
  lifeUnder : Bool := false
  deriving DecidableEq, Repr


/-- The answer of the last dictionary access: its abort code (0 success) and the data returned. -/
structure Answer where
  abort : Nat := 0
  data : List Byte := []
  deriving DecidableEq, Repr

/-- The device. -/
structure State where
  /-- The raw counter (R201). -/
  raw : Raw
  variant : Variant
  /-- Temperature grade -I (R3). -/
  gradeI : Bool
  /-- Active values of the dictionary: key index × 65,536 + subindex; an element that is not listed holds its factory value. -/
  dict : Tbl Nat
  /-- TABLE records: key (index × 65,536 + subindex) × 2^24 + record, as a little-endian image; 0 where not listed. -/
  tabs : Tbl Nat
  /-- Length of a TABLE of open length, in records, by its dictionary key (R259, R260, R289). -/
  lens : Tbl Nat
  isl : IslandUnit
  fr : FrameUnit
  rg : RigUnit
  tb : TableUnit
  eg : EgressUnit
  tm : TimeUnit
  ho : HostUnit
  ln : LaneUnit
  mm : MemUnit
  nv : NvUnit
  sy : SysUnit
  ri : RingUnit
  mv : MvUnit
  co : CormusUnit
  mp : MgmtPort
  su : SupplyUnit
  ag : AgeUnit
  /-- The last dictionary answer. -/
  answer : Answer
  /-- The model's own counter of free values drawn (not the spec's; DESIGN CHOICE). -/
  draws : Nat
  /-- The commands that wait, first in, first out. -/
  pending : List Instr
  deriving DecidableEq, Repr

/-- The machine right after power-on reset, commands awaited: every object at its factory value, every queue, table and
memory empty, every island in RESET (R366, R468, R471). -/
def State.reset : State where
  raw := 0
  variant := .tvr8512
  gradeI := false
  dict := []
  tabs := []
  lens := []
  isl := {}
  fr := {}
  rg := {}
  tb := {}
  eg := {}
  tm := {}
  ho := {}
  ln := {}
  mm := {}
  nv := {}
  sy := {}
  ri := {}
  mv := {}
  co := {}
  mp := {}
  su := {}
  ag := {}
  answer := {}
  draws := 0
  pending := []

end Sys2Proof.Machine
end

