-- ==== Sys2Proof/Machine/Ops.lean ====
section
/-! DEFINITION. The named operations over the state: the variant's parts, the dictionary's registers and records, counters,
island states, the event log and interrupt requests. Every meaning reads and writes through these. -/

namespace Sys2Proof.Machine

/-- The outcome of a command. -/
abbrev Out := Host.Outcome State Fault Refusal

/-! ### The variant (R1, R2) -/

/-- Sectors, and rigs, present. -/
def Variant.sectors : Variant → Nat
  | .tvr8512 => 16
  | .tvr8256 => 8
  | .tvr8128 => 4

/-- Device type code (R389). -/
def Variant.code : Variant → Nat
  | .tvr8512 => 0x8512
  | .tvr8256 => 0x8256
  | .tvr8128 => 0x8128

namespace State

def sectors (s : State) : Nat := s.variant.sectors
def portPresent (s : State) (p : Nat) : Bool := decide (p < 32 * s.sectors)
def sectorPresent (s : State) (k : Nat) : Bool := decide (k < s.sectors)

/-- Island i is present: the islands of fused-off sectors are absent (R2, R10). -/
def islandPresent (s : State) (i : Nat) : Bool :=
  if i < 48 then decide (i % 16 < s.sectors) else decide (i < 56)

/-- Queue q belongs to a present port or to an internal host port (R56). -/
def queuePresent (s : State) (q : Nat) : Bool :=
  if q < 4096 then s.portPresent (q / 8) else decide (q < 4128)

/-- Ingress source i is a present port or an internal host port (R72). -/
def sourcePresent (s : State) (i : Nat) : Bool :=
  if i < 512 then s.portPresent i else decide (i < 516)

end State

/-! ### Factory defaults (R366, R376) -/

/-- Nominal voltage of rail r in mV; the core regulator boots at 780 mV (R454, R487). -/
def railNominal (r : Nat) : Nat :=
  if r = 0 then 780 else if r = 1 then 800 else if r = 2 then 900 else if r = 3 then 1200 else if r = 4 then 1800
  else if r = 5 then 3300 else 600

/-- Factory values that depend on the element, the variant or the grade (R52, R69, R131, R236, R271, R358, R464). -/
def factorySpecial (v : Variant) (gradeI : Bool) (idx sub : Nat) : Option Nat :=
  if idx = Ix.deviceType then some v.code
  else if idx = Ix.temperatureGrade then some (if gradeI then 1 else 0)
  else if idx = Ix.islandState then some (if sub - 1 < 48 ∧ v.sectors ≤ (sub - 1) % 16 then 0 else 1)
  else if idx = Ix.avsSetpoint then some 780
  else if idx = Ix.railVoltage then some (railNominal (sub - 1))
  else if idx = Ix.deviceMacBase then some (leNat (beBytes 6 (Config.macBase / 1024 * 1024)))
  else if idx = Ix.hostPortHomeSector then some ((sub - 1) * (v.sectors / 4))
  else if idx = Ix.xmKeyBits then
    some (if sub = 1 then 12 else if sub = 2 then 60 else if sub = 3 then 10 else if sub = 4 then 22 else 0)
  else if idx = Ix.xmCapacity then
    some (if sub = 1 then 4096 else if sub = 2 then 1048576 else if sub = 3 then 516 else if sub = 4 then 65536 else 0)
  else if idx = Ix.xmAgeTime then some (if sub = 2 then 300 else 0)
  else if idx = Ix.timePtpDomainNumber then some (sub - 1)
  else if idx = Ix.henaySource then some (sub - 1)
  else if idx = Ix.dmaMode then some (if v = .tvr8128 then 0 else 1)
  else if idx = Ix.thermalWarn then some (if gradeI then 100 else 95)
  else if idx = Ix.railResetPercent then some (if sub = 1 then 9 else 10)
  else none

/-- The value every element holds after reset: its factory default, 0 where the spec's table gives none. -/
def factory (v : Variant) (gradeI : Bool) (idx sub : Nat) : Nat :=
  match factorySpecial v gradeI idx sub with
  | some x => x
  | none =>
    match objAt idx with
    | some o => o.fac
    | none => 0

/-- The key of an element in the dictionary's table. -/
def dictKey (idx sub : Nat) : Nat := idx * 65536 + sub

/-- The key of a TABLE's record. -/
def recKey (idx sub r : Nat) : Nat := dictKey idx sub * 16777216 + r

namespace State

/-- The present value of an element that is stored in the dictionary. -/
def reg (s : State) (idx sub : Nat) : Nat :=
  tgetD s.dict (dictKey idx sub) (factory s.variant s.gradeI idx sub)

/-- An element takes the value `v`. -/
def setReg (s : State) (idx sub v : Nat) : State :=
  { s with dict := tput (factory s.variant s.gradeI idx sub) s.dict (dictKey idx sub) v }

/-- A BOOL element. -/
def regB (s : State) (idx sub : Nat) : Bool := s.reg idx sub != 0

/-- A signed element of `w` bytes. -/
def regI (s : State) (idx sub w : Nat) : Int := toSigned (8 * w) (s.reg idx sub)

def setRegI (s : State) (idx sub w : Nat) (v : Int) : State := s.setReg idx sub (ofSigned (8 * w) v)

/-- A U64 counter rises by `n` and wraps. -/
def count (s : State) (idx sub n : Nat) : State := s.setReg idx sub (wrapAdd 64 (s.reg idx sub) n)

/-- A U32 counter rises by `n` and wraps. -/
def count32 (s : State) (idx sub n : Nat) : State := s.setReg idx sub (wrapAdd 32 (s.reg idx sub) n)

/-- A U32 counter rises by `n` and saturates. -/
def countSat (s : State) (idx sub n : Nat) : State := s.setReg idx sub (satAdd 32 (s.reg idx sub) n)

/-- Record `r` of a TABLE, as a little-endian image. -/
def record (s : State) (idx sub r : Nat) : Nat := tgetD s.tabs (recKey idx sub r) 0

def setRecord (s : State) (idx sub r v : Nat) : State :=
  { s with tabs := tput 0 s.tabs (recKey idx sub r) v }

/-- Field of `n` bytes at byte `i` of a record. -/
def recField (s : State) (idx sub r i n : Nat) : Nat := s.record idx sub r / 256 ^ i % 256 ^ n

/-- A record with the field of `n` bytes at byte `i` replaced. -/
def setRecField (s : State) (idx sub r i n v : Nat) : State :=
  let old := s.record idx sub r
  s.setRecord idx sub r (old - (old / 256 ^ i % 256 ^ n) * 256 ^ i + (v % 256 ^ n) * 256 ^ i)

/-- A U64 field of a record counts up and wraps. -/
def countRec (s : State) (idx sub r i n : Nat) : State :=
  s.setRecField idx sub r i 8 (wrapAdd 64 (s.recField idx sub r i 8) n)

/-! ### Island states (R27) -/

def islandState (s : State) (i : Nat) : Nat := s.reg Ix.islandState (i + 1)
def setIslandState (s : State) (i v : Nat) : State := s.setReg Ix.islandState (i + 1) v

/-- The island runs: RUN, or TIME_LOST, which leaves all but its time in service (R17). -/
def running (s : State) (i : Nat) : Bool := s.islandState i == 3 || s.islandState i == 4

/-- The island is time-lost (R17). -/
def timeLost (s : State) (i : Nat) : Bool := s.islandState i == 4

/-- The island is in reset: RESET or INIT (R31). -/
def resetting (s : State) (i : Nat) : Bool := s.islandState i == 1 || s.islandState i == 2

def island (s : State) (i : Nat) : Island := tgetD s.isl.islands i {}
def setIsland (s : State) (i : Nat) (x : Island) : State :=
  { s with isl := { s.isl with islands := tput {} s.isl.islands i x } }

/-- How far the time of island `i` stands from the raw counter (R15, R17): an island in service follows the counter (DESIGN
CHOICE: the typical skew of 250 ps is left out); a time-lost one extrapolates its last beacon at its own clock, whose drift
the spec leaves open. -/
def islandDrift (s : State) (i : Nat) : Int :=
  if s.timeLost i then Config.lostDrift i (s.island i).beaconRate (s.raw - (s.island i).beacon).toNat else 0

/-- The raw time island `i` goes by. -/
def localRaw (s : State) (i : Nat) : Raw := s.raw + BitVec.ofInt 64 (s.islandDrift i)

/-- The answer of a dictionary access (R380). -/
def reply (s : State) (a : Answer) : State := { s with answer := a }

/-! ### Time measured -/

/-- Raw time with the turns of the counter counted. -/
def rawTotal (s : State) : Stamp := s.tm.turns * 18446744073709551616 + s.raw.toNat

/-- Raw time since `t` (R207: the counter itself wraps). -/
def since (s : State) (t : Stamp) : Nat := s.rawTotal - t

/-- CORMUS_ETHERTYPE and CORMUS_UDP_PORT (R374). -/
def cormusIds (s : State) : Nat × Nat := (s.reg Ix.cormusEthertype 0, s.reg Ix.cormusUdpPort 0)

/-! ### Interrupt requests (R321) -/

def vec (s : State) (v : Nat) : Vec := tgetD s.ho.vecs v {}
def setVec (s : State) (v : Nat) (x : Vec) : State := { s with ho := { s.ho with vecs := tput {} s.ho.vecs v x } }

/-- A request on vector `v`, its age running from `from_` (R321, R324); vector 0xFFFF is none. -/
def request (s : State) (v : Nat) (from_ : Stamp) : State :=
  if 2048 ≤ v then s
  else
    let x := s.vec v
    if x.count = 0 then
      s.setVec v { x with count := 1, timer := s.rawTotal, since := if x.pending || x.held then x.since else from_ }
    else s.setVec v { x with count := x.count + 1 }

/-! ### The event log (R459 to R461) -/

/-- One second of raw time, in ru. -/
def second : Nat := 65536000000000

/-- `n` nanoseconds, in ru. -/
def ns (n : Nat) : Nat := n * 65536

/-- A whole multiple of `period` ru lies after `last` and not after now: what happens at every such raw time is due, once. -/
def multipleDue (s : State) (last : Raw) (period : Nat) : Bool :=
  period != 0 && last.toNat / period != s.raw.toNat / period

/-- The signed distance of the present from a raw target: 0 or more means due (R207). -/
def dueBy (s : State) (t : Raw) : Int := (s.raw - t).toInt

/-- Event parameters packed without gaps, little-endian, cut to the 12 bytes of an entry (R459). -/
def packParams (ps : List (Nat × Nat)) : List Byte := (ps.flatMap fun p => leBytes p.1 p.2).take 12

/-- The entry is written into the ring, or merged into the newest entry (R459, R460); each entry is one 32-byte unit. -/
def logEntry (s : State) (e : LogEntry) : State :=
  match s.nv.log with
  | n :: rest =>
    if n.code = e.code ∧ n.island = e.island ∧ n.params = e.params ∧ (e.raw - n.raw).toNat ≤ second then
      { s with nv := { s.nv with log := { n with count := min (n.count + 1) 65535 } :: rest } }
    else
      let seq := if n.seq = 0xFFFFFFFF then 1 else n.seq + 1
      let full := decide (32768 ≤ s.nv.log.length)
      let lost := decide (full ∧ s.reg Ix.eventReadMark 0 < ((s.nv.log.getLast?).map LogEntry.seq).getD 0)
      let s1 := { s with nv := { s.nv with log := ({ e with seq := seq } :: s.nv.log).take 32768 } }
      let s2 := if lost then s1.count Ix.eventOverrun 0 1 else s1
      (s2.setReg Ix.eventNewest 0 seq).count Ix.nvBytesWritten 0 32
  | [] =>
    let s1 := { s with nv := { s.nv with log := [{ e with seq := 1 }] } }
    (s1.setReg Ix.eventNewest 0 1).count Ix.nvBytesWritten 0 32

/-- An event: code, severity, island (0xFF device-wide) and parameters as (width, value) pairs (R459 to R461). -/
def event (s : State) (code sev isl : Nat) (ps : List (Nat × Nat)) : State :=
  let params := packParams ps
  let cut := decide (12 < (ps.map Prod.fst).sum)
  let irq (t : State) : State :=
    if t.reg Ix.eventIrqSeverity 0 ≤ sev then t.request (t.reg Ix.eventVector 0) t.rawTotal else t
  let fresh : LogEntry :=
    { seq := 0, boot := s.reg Ix.bootNumber 0, code := code, raw := s.raw, island := isl,
      severity := sev, afterHold := false, cut := cut, count := 0, params := params }
  if s.reg Ix.nvState 0 = 1 then
    if 65536 < s.reg Ix.nvWritesHeld 0 + 32 then ((irq s).count Ix.eventLost 0 1).count Ix.nvHoldOverflow 0 1
    else
      let s1 := { s with nv := { s.nv with heldEvents := s.nv.heldEvents ++ [{ fresh with afterHold := true }] } }
      irq (s1.setReg Ix.nvWritesHeld 0 (s1.reg Ix.nvWritesHeld 0 + 32))
  else irq (s.logEntry fresh)

end State
end Sys2Proof.Machine
end

