-- ==== Sys2Proof/Machine/Memory.lean ====
section
/-! DEFINITION. Byte memory in canonical form, the device's two address spaces (R259: bit 63 of an address selects LPDDR4X),
and the LPDDR4X codewords (R411 to R419). -/

namespace Sys2Proof.Machine

/-- What a byte that nothing has written reads as (DESIGN CHOICE: the spec gives none). -/
def memDefault : Byte := 0#8

/-- The canonical form of a memory: addresses strictly rising, no entry equal to what an unlisted address reads as. -/
def Memory.wf (m : List Host.Cell) : Bool := tsorted m && m.all fun c => decide (c.2 ≠ memDefault)

/-- One byte of a memory. -/
def memRead (m : List Host.Cell) (a : Nat) : Byte := tgetD m a memDefault

/-- One byte written. -/
def memWrite (m : List Host.Cell) (a : Nat) (b : Byte) : List Host.Cell := tput memDefault m a b

/-- Bytes `a` to `a + n - 1`. -/
def memBytes (m : List Host.Cell) (a n : Nat) : List Byte := (List.range n).map fun i => memRead m (a + i)

/-- Bytes written from `a` upwards. -/
def memStore (m : List Host.Cell) (a : Nat) : List Byte → List Host.Cell
  | [] => m
  | b :: bs => memStore (memWrite m a b) (a + 1) bs

/-- Bit 63 of an address: LPDDR4X (R259). -/
def isLpddr (a : Nat) : Bool := decide (9223372036854775808 ≤ a % 18446744073709551616)

/-- The address within its space. -/
def spaceAddr (a : Nat) : Nat := a % 9223372036854775808

/-- Raw bytes of a channel by density code (R427). -/
def densityBytes (code : Nat) : Nat :=
  ([536870912, 1073741824, 1610612736, 2147483648, 3221225472, 4294967296] : List Nat).getD code 2147483648

/-- D: data bytes of a channel of C raw bytes, groups of 576 bytes holding 512 (chapter 14). -/
def dataBytes (c : Nat) : Nat := c / 576 * 512

namespace State

/-- Device addresses run below 8D − M (MEM_ADDRESS_LIMIT). -/
def memLimit (s : State) : Nat := 8 * s.mm.chanData - s.mm.mirror

/-- The channel that holds a device address outside the mirror region, or the even channel of its pair (R414). -/
def memChannel (s : State) (a : Nat) : Nat :=
  if a < s.mm.mirror then 2 * (a / 512 % 4) else (a - s.mm.mirror) / 512 % 8

def memChan (s : State) (c : Nat) : MemChan := tgetD s.mm.chans c {}
def setMemChan (s : State) (c : Nat) (x : MemChan) : State := { s with mm := { s.mm with chans := tput {} s.mm.chans c x } }

/-- The channel takes no access: it has failed (R417). -/
def memFailed (s : State) (c : Nat) : Bool := s.reg Ix.memChState (c + 1) == 1

/-- The channel cannot serve a read: failed, or its copy is not restored yet (R417, R418). -/
def memUnserved (s : State) (c : Nat) : Bool := s.reg Ix.memChState (c + 1) != 0

/-- The codewords of 64 data bytes that `n` bytes at device address `a` touch. -/
def codewords (a n : Nat) : List Nat :=
  if n = 0 then [] else (List.range ((a + n - 1) / 64 - a / 64 + 1)).map fun i => a / 64 + i

/-- Codeword `w` holds poison (R418). -/
def poisoned (s : State) (w : Nat) : Bool :=
  if 64 * w < s.mm.mirror then false
  else
    match tget s.mm.poison (s.memChannel (64 * w)) with
    | some healed => !healed.contains w
    | none => false

/-- A read of codeword `w` is a bus error (R350, R416 to R419). -/
def wordBad (s : State) (w : Nat) : Bool :=
  let c := s.memChannel (64 * w)
  if 64 * w < s.mm.mirror then (s.memUnserved c && s.memUnserved (c + 1)) || s.mm.badWords.contains w
  else s.memUnserved c || s.mm.badWords.contains w || s.poisoned w

/-- The address range exists (R297, R337, R411, R414): in LPDDR4X, below the limit of a memory that is enabled. -/
def memExists (s : State) (a n : Nat) : Bool :=
  if isLpddr a then s.reg Ix.memState 0 != 0 && decide (spaceAddr a + n ≤ s.memLimit)
  else decide (spaceAddr a + n ≤ 9223372036854775808)

/-- The host island is on (R467: strap PCIE_EN; R409: no test instruction has been in force); with it off a host address is a bus
error. -/
def hostOn (s : State) : Bool := bit (s.reg Ix.strapValues 0) 2 && !s.sy.tap.tested

/-- A read of the range succeeds, transient failures apart. -/
def readOk (s : State) (a n : Nat) : Bool :=
  s.memExists a n && (if isLpddr a then (codewords (spaceAddr a) n).all fun w => !s.wordBad w else s.hostOn)

/-- Codeword `w` is written whole by `n` bytes at device address `a`. -/
def coversWord (a n w : Nat) : Bool := decide (a ≤ 64 * w ∧ 64 * w + 64 ≤ a + n)

/-- No channel takes a write of codeword `w` (R417). -/
def wordLost (s : State) (w : Nat) : Bool :=
  let c := s.memChannel (64 * w)
  if 64 * w < s.mm.mirror then s.memFailed c && s.memFailed (c + 1) else s.memFailed c

/-- A write of the range succeeds: a codeword written in part is read first, which must decode (R415). -/
def writeOk (s : State) (a n : Nat) : Bool :=
  s.memExists a n &&
    (if isLpddr a then
      (codewords (spaceAddr a) n).all fun w => !s.wordLost w && (coversWord (spaceAddr a) n w || !s.wordBad w)
    else s.hostOn)

/-- An uncorrectable codeword of channel `c` is counted, and kept for the failure test (R415, R417). -/
def countUncorrectable (s : State) (c : Nat) : State :=
  let x := s.memChan c
  let keep := (s.rawTotal :: x.uncorrectable.filter fun t => decide (s.since t ≤ second)).take (s.reg Ix.memChFailLimit 0)
  (s.count Ix.memUncorrectable (c + 1) 1).setMemChan c { x with uncorrectable := keep }

/-- A condition of R6 is left by cause `bit`: the cause bit, LEFT and the count (R198). -/
def leaveGuarantee (s : State) (cause : Nat) : State :=
  ((s.setReg Ix.guaranteeLeftCause 0 (setBit (s.reg Ix.guaranteeLeftCause 0) cause)).setReg Ix.guaranteeState 0 2).countSat
    Ix.guaranteeLeftCount 0 1

/-- A failed access to the range for `who`, a transfer channel, 0x8000 + a completion ring, 0xC000 + a master ring, 0xD000 + a
pass-through pair or 0xFFFF for the survey store: its uncorrectable codewords
are counted (R415); a failed channel outside the mirror region leaves the guarantee with cause bit 3, logged with the memory
channel and with whom it affects (R198, R417). -/
def noteBadRead (s : State) (who a n : Nat) : State :=
  if isLpddr a && s.memExists a n then
    (codewords (spaceAddr a) n).foldl (fun t w =>
      let c := t.memChannel (64 * w)
      if t.memFailed c && decide (t.mm.mirror ≤ 64 * w) then
        if bit (t.reg Ix.guaranteeLeftCause 0) 3 then t
        else (t.leaveGuarantee 3).event Ix.guaranteeLeftCount 3 53 [(1, c), (2, who)]
      else if t.wordBad w then
        let cs := if 64 * w < t.mm.mirror then [c, c + 1] else [c]
        (cs.filter fun k => !t.memUnserved k).foldl countUncorrectable t
      else t) s
  else s

/-- `n` bytes at an address of either space. -/
def load (s : State) (a n : Nat) : List Byte :=
  if isLpddr a then memBytes s.mm.lpddr (spaceAddr a) n else memBytes s.mm.host (spaceAddr a) n

/-- A written codeword: a partial one is a merge, counted for each channel that performs it (R415, R416); a whole one ends
its poison. -/
def noteWord (a n : Nat) (s : State) (w : Nat) : State :=
  let c := s.memChannel (64 * w)
  let mirrored := decide (64 * w < s.mm.mirror)
  if coversWord a n w then
    { s with mm := { s.mm with
        badWords := s.mm.badWords.filter (· ≠ w)
        poison := if mirrored then s.mm.poison
          else s.mm.poison.map fun e => if e.1 = c ∧ e.2.contains w = false then (e.1, w :: e.2) else e } }
  else
    let s1 := s.count Ix.memRmw (c + 1) 1
    if mirrored then s1.count Ix.memRmw (c + 2) 1 else s1

/-- Bytes stored at an address of either space. -/
def store (s : State) (a : Nat) (bs : List Byte) : State :=
  if isLpddr a then
    let s1 := { s with mm := { s.mm with lpddr := memStore s.mm.lpddr (spaceAddr a) bs } }
    (codewords (spaceAddr a) bs.length).foldl (noteWord (spaceAddr a) bs.length) s1
  else { s with mm := { s.mm with host := memStore s.mm.host (spaceAddr a) bs } }

/-- Bytes stored for `who` where the range can be written; else nothing is stored (R350, R415, R417). -/
def storeFor (s : State) (who a : Nat) (bs : List Byte) : State :=
  if s.writeOk a bs.length then s.store a bs else s.noteBadRead who a bs.length

/-- A little-endian number of `n` bytes at an address (R8). -/
def loadNat (s : State) (a n : Nat) : Nat := leNat (s.load a n)

end State
end Sys2Proof.Machine
end

