-- ==== Sys2Proof/Machine/Channels.lean ====
section
/-! DEFINITION. Transfer channels: entries and their fields, units in ring order, completion rings and their blocking
(R300 to R319, R330, R331). -/

namespace Sys2Proof.Machine

/-- Fields of a channel entry (R330). -/
def entKind (e : List Byte) : Nat := leField e 0 1
def entHostPort (e : List Byte) : Nat := leField e 1 1 % 4
def entDomain (e : List Byte) : Nat := leField e 2 1 % 4
def entWeight (e : List Byte) : Nat := leField e 3 1
def entBurst (e : List Byte) : Nat := leField e 4 1
def entRetries (e : List Byte) : Nat := leField e 5 1
def entCring (e : List Byte) : Nat := leField e 6 2
def entRingBase (e : List Byte) : Nat := leField e 8 8
def entRingSize (e : List Byte) : Nat := leField e 16 4
def entIrqCount (e : List Byte) : Nat := leField e 20 2
def entVector (e : List Byte) : Nat := leField e 22 2
def entIndexBlock (e : List Byte) : Nat := leField e 24 8
def entRxSize (e : List Byte) : Nat := leField e 32 4
def entLateLimit (e : List Byte) : Nat := leField e 36 4
def entIndexBase (e : List Byte) : Nat := leField e 40 8
def entElement (e : List Byte) : Nat := leField e 48 2
def entShare (e : List Byte) : Nat := leField e 50 2
def entBus (e : List Byte) : Nat := leField e 52 1
def entInflight (e : List Byte) : Nat := leField e 54 2
def entPaceBurst (e : List Byte) : Nat := leField e 56 4
def entStride (e : List Byte) : Nat := leField e 60 4

/-- `n` is a power of two. -/
def isPow2 (n : Nat) : Bool := (List.range 33).any fun k => n == 2 ^ k

/-- The check of R331: every field in its range, addresses aligned, reserved bytes 0. -/
def entValid (e : List Byte) : Bool :=
  decide (e.length = 128) && decide (entKind e ≤ 3) && decide (leField e 1 1 ≤ 3) && decide (leField e 2 1 ≤ 3) &&
    decide (1 ≤ entBurst e ∧ entBurst e ≤ 64) && decide (leField e 5 1 ≤ 15) &&
    (decide (entCring e ≤ 1023) || entCring e == 0xFFFF) && decide (entRingBase e % 32 = 0) &&
    decide (16 ≤ entRingSize e ∧ entRingSize e ≤ 65536) && isPow2 (entRingSize e) &&
    (decide (entVector e ≤ 2047) || entVector e == 0xFFFF) && decide (entIndexBlock e % 64 = 0) &&
    decide (64 ≤ entRxSize e ∧ entRxSize e ≤ 65536) && decide (1 ≤ entElement e ∧ entElement e ≤ 4096) &&
    decide (1 ≤ entShare e ∧ entShare e ≤ 1024) && decide (entBus e ≤ 1) && leField e 53 1 == 0 &&
    decide (1 ≤ entInflight e ∧ entInflight e ≤ 2048) && decide (256 ≤ entPaceBurst e ∧ entPaceBurst e ≤ 65536) &&
    decide (1 ≤ entStride e ∧ entStride e ≤ 16777216) && (e.drop 64).all (· == 0#8)

/-- Fields of a descriptor (R301). -/
def dAddr (d : List Byte) : Nat := leField d 0 8
def dLen (d : List Byte) : Nat := leField d 8 3
def dCtl (d : List Byte) : Nat := leField d 12 2
def dOp (d : List Byte) : Nat := leField d 14 1
def dClass (d : List Byte) : Nat := leField d 15 1
def dLaunch (d : List Byte) : Nat := leField d 16 8

/-- The unit's last descriptor with its index. -/
def HUnit.last (u : HUnit) : Nat × List Byte := u.descs.getLastD (u.first, [])

/-- Transfers of the unit are under way or still to begin (R342). -/
def HUnit.transferring (u : HUnit) : Bool := u.stage == .started && (!u.todo.isEmpty || !u.flying.isEmpty)

/-- Bytes the descriptors of a unit name. -/
def HUnit.room (u : HUnit) : Nat := (u.descs.map fun d => dLen d.2).sum

/-- A unit with its outcome and cause (R302): it awaits its write-back. -/
def HUnit.finish (u : HUnit) (outcome cause : Nat) : HUnit :=
  { u with stage := .finished, outcome := outcome, cause := cause, todo := [], flying := [], copy := none }

namespace State

def channel (s : State) (c : Nat) : Channel := tgetD s.ho.channels c {}
def setChannel (s : State) (c : Nat) (x : Channel) : State :=
  { s with ho := { s.ho with channels := tput {} s.ho.channels c x } }

/-- The channel's entry in force, if it is cached and valid. -/
def chanEntry (s : State) (c : Nat) : Option (List Byte) :=
  if (s.channel c).entryBad then none else (s.channel c).entry

/-- Channel `c` is enabled as a receive channel (R312, R332). -/
def rxEnabled (s : State) (c : Nat) : Option (List Byte) :=
  match s.chanEntry c with
  | some e => if entKind e = 2 then some e else none
  | none => none

/-- The unit of channel `c` whose first descriptor has index `first`. -/
def unit? (s : State) (c first : Nat) : Option HUnit := (s.channel c).units.find? fun u => u.first == first

/-- The unit of channel `c` whose first descriptor has index `first`, changed by `f`. -/
def modUnit (s : State) (c first : Nat) (f : HUnit → HUnit) : State :=
  let x := s.channel c
  s.setChannel c { x with units := x.units.map fun u => if u.first = first then f u else u }

/-- The transmit unit whose frame is handle `h`, changed by `f` (R309). -/
def modFrameUnit (s : State) (c h : Nat) (f : HUnit → HUnit) : State :=
  let x := s.channel c
  s.setChannel c { x with units := x.units.map fun u => if u.kind = 0 ∧ u.pkt = some h then f u else u }

/-- A unit finishes with an outcome and a cause. -/
def finishUnit (s : State) (c first outcome cause : Nat) : State :=
  s.modUnit c first fun u => u.finish outcome cause

/-- The transmit unit whose frame is handle `h` is done (R309): it finishes, or where its frame is still being fetched once that
has ended. -/
def finishFrameUnit (s : State) (c h : Nat) : State :=
  s.modFrameUnit c h fun u =>
    if u.transferring then { u with ended := true } else if u.stage = .started then u.finish 1 0 else u

def cring (s : State) (r : Nat) : CRing := tgetD s.ho.crings r {}
def setCring (s : State) (r : Nat) (x : CRing) : State := { s with ho := { s.ho with crings := tput {} s.ho.crings r x } }

/-- The completion ring of an entry, where it has one that is present and enabled (R317). -/
def ringOf (s : State) (e : List Byte) : Option Nat :=
  let r := entCring e
  if r < 1024 ∧ s.regB Ix.cringEnable (r + 1) then some r else none

/-- The ring an entry names is blocked: its backlog holds 64 records (R319). -/
def ringBlocked (s : State) (e : List Byte) : Bool :=
  match s.ringOf e with
  | some r => decide (64 ≤ (s.cring r).backlog.length)
  | none => false

/-- The function is in D0 with Bus Master Enable set, its island on and out of reset, and no retaining reset holds its
requests back (R324, R467, R474). -/
def hostPowered (s : State) : Bool := !s.ho.d3hot && s.ho.busMaster && !s.ho.perst && s.hostOn && !s.sy.retaining

/-- The host island. -/
def hostIsland : Nat := 52

/-- A halt ends once the last accepted unit has been written back: HALTED, its event, and one request (R352). -/
def haltDone (s : State) (c : Nat) : State :=
  let x := s.channel c
  match x.halting, x.units with
  | some (cause, index), [] =>
    let told := (x.entry.map entVector).getD 0xFFFF != 0xFFFF
    let s1 := ((s.setChannel c { x with halting := none, mark := if told then x.finished else x.mark }).setReg
      Ix.chHaltCause (c + 1) cause).setReg Ix.chHaltIndex (c + 1) index
    let s2 := s1.event Ix.chStatus 3 hostIsland [(2, c), (1, cause), (4, index)]
    match x.entry with
    | some e => s2.request (entVector e) s.rawTotal
    | none => s2
  | _, _ => s

/-- A channel begins to halt (R352): it accepts nothing more, and units that have not started complete as aborted. -/
def haltChannel (s : State) (c cause index : Nat) : State :=
  let x := s.channel c
  if x.halting.isSome ∨ s.reg Ix.chHaltCause (c + 1) ≠ 0 then s
  else
    let stop (u : HUnit) : HUnit := if u.stage = .started ∨ u.stage = .finished then u else u.finish 2 0
    (s.setChannel c { x with
      halting := some (cause, index), units := x.units.map stop, reading := false, again := false, more := false }).haltDone c

/-- A survey record for a host channel goes whole into one accepted, unused descriptor of at least 64 bytes, else it is
dropped and counted for target `k` (R124, R315). -/
def recordToChannel (s : State) (k c : Nat) (bytes : List Byte) : State :=
  let drop := s.count Ix.postcardDropped (k + 1) 1
  match s.rxEnabled c with
  | none => drop
  | some e =>
    match (s.channel c).units.find? fun u => u.kind == 1 && u.stage == .usable && decide (64 ≤ u.room) with
    | none => drop
    | some u =>
      let a := dAddr u.last.2
      if s.ringBlocked e ∨ s.hostPowered = false then drop
      else if s.writeOk a 64 = false then
        (((s.noteBadRead c a 64).modUnit c u.first fun v => HUnit.finish { v with kind := 3 } 3 5).haltChannel c 1 u.first).count
          Ix.postcardDropped (k + 1) 1
      else
        (((s.store a bytes).count Ix.chBytes (c + 1) 64).modUnit c u.first fun v =>
          HUnit.finish { v with kind := 3, done := 64, length := 64 } 1 0).count Ix.postcardSent (k + 1) 1

end State
end Sys2Proof.Machine
end

