-- ==== Sys2Proof/Machine/Clock.lean ====
section
/-! DEFINITION. Raw and sync time: corrections, conversions, TIME80 and TIME96 images, and rate changes (R201 to R211). -/

namespace Sys2Proof.Machine

/-! ### Exact fractions -/

/-- A fraction in lowest terms. -/
def Frac.mk' (n : Int) (d : Nat) : Frac :=
  let g := Nat.gcd n.natAbs d
  if g = 0 then {} else ⟨n / (g : Int), d / g⟩

def Frac.add (a b : Frac) : Frac := Frac.mk' (a.num * b.den + b.num * a.den) (a.den * b.den)
def Frac.neg (a : Frac) : Frac := ⟨-a.num, a.den⟩
def Frac.mulInt (a : Frac) (k : Int) : Frac := Frac.mk' (a.num * k) a.den
def Frac.divNat (a : Frac) (k : Nat) : Frac := Frac.mk' a.num (a.den * k)
def Frac.ofInt (k : Int) : Frac := ⟨k, 1⟩
def Frac.lt (a b : Frac) : Bool := decide (a.num * b.den < b.num * a.den)
def Frac.clamp (lo hi a : Frac) : Frac := if a.lt lo then lo else if hi.lt a then hi else a

/-- ⌊a⌋. -/
def Frac.floor (a : Frac) : Int := a.num / (a.den : Int)

/-- The nearest integer, ties away from zero (R211, R213). -/
def Frac.round (a : Frac) : Int :=
  let m := (2 * a.num.natAbs + a.den) / (2 * a.den)
  if a.num < 0 then -(m : Int) else (m : Int)

/-! ### Time images (R205) -/

/-- Sync time in ru to a TIME96 image: fraction, nanoseconds, seconds modulo 2^48. -/
def time96 (sync : Int) : Nat :=
  let frac := (sync % 65536).toNat
  let nanos := (sync / 65536 % 1000000000).toNat
  let secs := (sync / 65536000000000 % 281474976710656).toNat
  frac + nanos * 65536 + secs * 281474976710656

/-- Sync time in ru to a TIME80 image: nanoseconds, seconds. -/
def time80 (sync : Int) : Nat := time96 sync / 65536

/-- The sync time, in ru, of a TIME96 image. -/
def ofTime96 (v : Nat) : Int :=
  ((v / 281474976710656 * 1000000000 + v / 65536 % 4294967296) * 65536 + v % 65536 : Nat)

/-- The sync time, in ru, of a TIME80 image. -/
def ofTime80 (v : Nat) : Int := ((v / 4294967296 * 1000000000 + v % 4294967296) * 65536 : Nat)

/-- Picoseconds in ru: exact where a whole number of ru, else rounded in a way the spec does not state. -/
def psToRu (ps : Int) : Int := if ps * 65536 % 1000 = 0 then ps * 65536 / 1000 else Config.psRounded ps

/-! ### Corrections and conversions (R204, R208, R209) -/

/-- The sync time a correction gives raw time `r`. -/
def Correction.at (c : Correction) (r : Raw) : Int :=
  let delta := (r - c.pivot).toInt
  c.sync + delta + (c.rho * delta + c.rem) / 281474976710656

/-- The correction re-taken at raw time `r`: the remainder of the floor is carried (R206). -/
def Correction.retake (c : Correction) (r : Raw) : Correction :=
  let delta := (r - c.pivot).toInt
  { pivot := r, sync := c.at r, rem := ((c.rho * delta + c.rem) % 281474976710656).toNat, rho := c.rho }

/-- The exact distance from the pivot at which the correction first reaches `target` (R208). -/
def Correction.reach (c : Correction) (target : Int) : Int :=
  ceilDivInt ((target - c.sync) * 281474976710656 - c.rem) (281474976710656 + c.rho).toNat

namespace State

def dom (s : State) (d : Nat) : TDomain := tgetD s.tm.domains d {}
def setDom (s : State) (d : Nat) (x : TDomain) : State :=
  { s with tm := { s.tm with domains := tput {} s.tm.domains d x } }

/-- The correction that applies to raw time `r` now (R209): the last change effective by the later of now and `r`. -/
def corrFor (s : State) (d : Nat) (r : Raw) : Correction :=
  let later := if (r - s.raw).toInt < 0 then s.raw else r
  (s.dom d).queue.foldl (fun c e => if 0 ≤ (later - e.1).toInt then e.2 else c) (s.dom d).corr

/-- The correction that stands once every change sent has become effective. -/
def corrLast (s : State) (d : Nat) : Correction :=
  match (s.dom d).queue.getLast? with
  | some e => e.2
  | none => (s.dom d).corr

/-- Sync time of domain `d` at raw time `r` (R204, R209). -/
def syncAt (s : State) (d : Nat) (r : Raw) : Int := (s.corrFor d r).at r

/-- Sync time of domain `d` now. -/
def syncNow (s : State) (d : Nat) : Int := s.syncAt d s.raw

/-- Whole nanoseconds of sync time now. -/
def syncNs (s : State) (d : Nat) : Int := s.syncNow d / 65536

/-- Raw distance from now at which a correction reaches the target, its pivot's distance counted. -/
def reachFrom (s : State) (c : Correction) (target : Int) : Int := (c.pivot - s.raw).toInt + c.reach target

/-- Search of R208 through the changes still to come: `c` applies until the first effective time. -/
def rawDeltaIn (s : State) (c : Correction) (target : Int) : List (Raw × Correction) → Int
  | [] => s.reachFrom c target
  | (eff, c') :: rest =>
    let r := s.reachFrom c target
    let e := (eff - s.raw).toInt
    if r < e then r else max e (s.rawDeltaIn c' target rest)

/-- Exact signed distance in ru from now to the smallest raw time at which domain `d` reaches `target` (R208). -/
def rawDelta (s : State) (d : Nat) (target : Int) : Int := s.rawDeltaIn (s.dom d).corr target (s.dom d).queue

/-- Horizon of R207: a target further ahead cannot be told from one in the past. -/
def horizon : Int := 9223372036854775807

/-- The raw target at a signed distance from now. -/
def rawIn (s : State) (delta : Int) : Raw := s.raw + BitVec.ofInt 64 delta

/-! ### The time bus (R15, R16) -/

/-- The beacon period, 1,024 ns (R15). -/
def beaconPeriod : Nat := 67108864

/-- The effective raw time of a change sent now: four beacons ahead (R16). -/
def effective (s : State) : Raw := BitVec.ofNat 64 ((s.raw.toNat / beaconPeriod + 4) * beaconPeriod)

/-! ### Rates (R211) -/

/-- ppb in units of 2^-48, ties away from zero (R211). -/
def ppbToRate (a : Frac) : Int := (Frac.divNat (a.mulInt 281474976710656) 1000000000).round

/-- The slew limit of domain `d` as a rate. -/
def slewRate (s : State) (d : Nat) : Int := ppbToRate (Frac.ofInt (s.reg Ix.servoSlewLimit (d + 1)))

/-- The base rate of domain `d` in its state (R211, R212). -/
def baseRate (s : State) (d : Nat) : Int :=
  let st := s.reg Ix.timeDomainState (d + 1)
  if st = 0 then s.regI Ix.timeRateSet (d + 1) 8
  else if st = 1 ∨ st = 2 then (s.dom d).servo.output
  else ppbToRate (s.dom d).servo.heldI.neg

/-- Limits of a rate correction (R204). -/
def rateMin : Int := -549755813888
def rateMax : Int := 549755813887

/-- A rate cut to the range of R204. -/
def cutRate (v : Int) : Int := clampInt rateMin rateMax v

/-- Slew remainder at raw time `t`, in 2^-48 ru: it falls by the time the slew part removes (R211). -/
def slewLeft (s : State) (d : Nat) (t : Raw) : Int :=
  let x := s.dom d
  let moved := x.slew + x.part * max 0 (t - x.slewAt).toInt
  if 0 ≤ x.slew then max 0 moved else min 0 moved

/-- The slew part while `left` remains: against its sign (R211). -/
def slewPart (s : State) (d : Nat) (left : Int) : Int :=
  if left = 0 then 0 else if 0 < left then -(s.slewRate d) else s.slewRate d

/-- A change of domain `d`'s correction is sent on the time bus: the correction in force at its effective time is re-taken
there, changed by `move`, and takes the rate of R211 for a slew remainder `left`; where the slew part will have removed
that remainder, its end is sent with it (R16, R206, R211). A rate the clamp cuts is counted. -/
def sendChange (s : State) (d : Nat) (left : Int) (move : Correction → Correction) : State :=
  let eff := s.effective
  let x := s.dom d
  let keep := x.queue.filter fun e => decide ((e.1 - eff).toInt ≤ 0)
  let old := (keep.getLast?.map Prod.snd).getD x.corr
  let base := s.baseRate d
  let want := base + s.slewPart d left
  let rho := cutRate want
  let part := rho - cutRate base
  let c := { (move old).retake eff with rho := rho }
  let dt := ceilDivInt left.natAbs part.natAbs
  let tail : List (Raw × Correction) :=
    if left * part < 0 ∧ dt < horizon then
      let stop := eff + BitVec.ofInt 64 dt
      [(stop, { c.retake stop with rho := cutRate base })]
    else []
  let s1 := if rho = want then s else s.countSat Ix.timeRateClamps (d + 1) 1
  s1.setDom d { x with queue := keep ++ [(eff, c)] ++ tail, slew := left, slewAt := eff, part := part }

/-- The rate in force follows the state, the servo and the slew (R211). -/
def sendRate (s : State) (d : Nat) : State := s.sendChange d (s.slewLeft d s.effective) id

/-- A domain enters a state of R212; the raw time of entry starts its timers. -/
def enterState (s : State) (d st : Nat) : State :=
  (s.setReg Ix.timeDomainState (d + 1) st).setDom d { s.dom d with enteredAt := s.rawTotal }

end State
end Sys2Proof.Machine
end

