-- ==== Sys2Proof/Machine/Parse.lean ====
section
/-! DEFINITION. Reading a frame's headers: tags, R-TAG, IP header (R55, R72, R171, R176, R501). -/

namespace Sys2Proof.Machine

/-- A VLAN TPID at byte `i` (R501). -/
def isTpid (v : Nat) : Bool := v == 0x8100 || v == 0x88A8

/-- The frame has a VLAN tag at byte `i`. -/
def tagAt (w : List Byte) (i : Nat) : Bool := decide (i + 4 ≤ w.length) && isTpid (beField w i 2)

/-- Up to two VLAN tags are passed over (R176, R501). -/
def tagCount (w : List Byte) : Nat := if tagAt w 12 then (if tagAt w 16 then 2 else 1) else 0

/-- The position after the last VLAN tag, where an R-TAG stands if there is one. -/
def afterTags (w : List Byte) : Nat := 12 + 4 * tagCount w

/-- The frame carries an R-TAG of the given EtherType: the two bytes at its position are it (R176). -/
def hasRtag (rtag : Nat) (w : List Byte) : Bool :=
  decide (afterTags w + 2 ≤ w.length) && beField w (afterTags w) 2 == rtag

/-- The sequence number of the R-TAG. -/
def rtagNumber (rtag : Nat) (w : List Byte) : Option Nat :=
  if hasRtag rtag w then some (beField w (afterTags w + 4) 2) else none

/-- The position of the EtherType after tags and R-TAG. -/
def typePos (rtag : Nat) (w : List Byte) : Nat := afterTags w + (if hasRtag rtag w then 6 else 0)

/-- What R501 finds of an IP header: all positions are byte offsets in the window. -/
structure IpInfo where
  v6 : Bool
  start : Nat
  /-- Protocol, or the last next-header where it is known. -/
  proto : Option Nat
  nonFirst : Bool
  /-- Where TCP or UDP ports would stand. -/
  l4 : Nat
  deriving DecidableEq, Repr

/-- Extension headers passed over in order (R501 step 5); at most one per 8 bytes of window. -/
def walkExt (w : List Byte) : Nat → Nat → Nat → Bool → Option Nat × Bool × Nat
  | 0, _, pos, nf => (none, nf, pos)
  | fuel + 1, next, pos, nf =>
    if next = 0 ∨ next = 43 ∨ next = 44 ∨ next = 60 then
      let len := if next = 44 then 8 else (beField w (pos + 1) 1 + 1) * 8
      if w.length < pos + 2 ∨ w.length < pos + len then (none, nf, pos)
      else
        let nf' := nf || (next == 44 && beField w (pos + 2) 2 / 8 != 0)
        walkExt w fuel (beField w pos 1) (pos + len) nf'
    else (some next, nf, pos)

/-- The IP header of a frame (R501). -/
def ipInfo (rtag : Nat) (w : List Byte) : Option IpInfo :=
  let p := typePos rtag w
  if w.length < p + 2 then none
  else
    let ty := beField w p 2
    let h := p + 2
    if ty = 0x0800 then
      if w.length < h + 1 then none
      else
        let ihl := beField w h 1 % 16
        if ihl < 5 then none
        else some ⟨false, h, if h + 10 ≤ w.length then some (beField w (h + 9) 1) else none,
          beField w (h + 6) 2 % 8192 != 0, h + 4 * ihl⟩
    else if ty = 0x86DD then
      if w.length < h + 7 then some ⟨true, h, none, false, h + 40⟩
      else
        let r := walkExt w 64 (beField w (h + 6) 1) (h + 40) false
        some ⟨true, h, r.1, r.2.1, r.2.2⟩
    else none

/-- `n` bytes at `i` if they lie wholly in the window, else none (R72). -/
def fieldIn (w : List Byte) (i n : Nat) : List Byte := if i + n ≤ w.length then slice w i n else []

/-- The bytes field 4 of R72 contributes: all five or none. -/
def portsField (w : List Byte) (ip : IpInfo) : List Byte :=
  match ip.proto with
  | some pr =>
    if (pr = 6 ∨ pr = 17) ∧ ip.nonFirst = false ∧ ip.l4 + 4 ≤ w.length then BitVec.ofNat 8 pr :: slice w ip.l4 4 else []
  | none => []

/-- The bytes the flow hash takes from a window, in the order of R72's bits. -/
def hashBytes (rtag fields : Nat) (w : List Byte) : List Byte :=
  let ip := ipInfo rtag w
  let f0 := if bit fields 0 then fieldIn w 0 6 else []
  let f1 := if bit fields 1 then fieldIn w 6 6 else []
  let f2 := if bit fields 2 ∧ tagAt w 12 then beBytes 2 (beField w 14 2 % 4096) else []
  let f3 := if bit fields 3 then
      match ip with
      | some i => if i.v6 then fieldIn w (i.start + 8) 32 else fieldIn w (i.start + 12) 8
      | none => [] else []
  let f4 := if bit fields 4 then
      match ip with
      | some i => portsField w i
      | none => [] else []
  let f5 := if bit fields 5 then
      match ip with
      | some i => if i.v6 ∧ i.start + 4 ≤ w.length then beBytes 3 (beField w (i.start + 1) 3 % 1048576) else []
      | none => [] else []
  f0 ++ f1 ++ f2 ++ f3 ++ f4 ++ f5

/-- The flow hash of R72; its bucket is 0 when no field contributes. -/
def flowHash (rtag fields : Nat) (w : List Byte) : Nat := crc32c (hashBytes rtag fields w)

/-- The flow bucket of R72: bits [5:0] of the hash. -/
def flowBucket (rtag fields : Nat) (w : List Byte) : Nat :=
  if hashBytes rtag fields w = [] then 0 else flowHash rtag fields w % 64

/-- The traffic class of a received frame (R55). -/
def classOf (pcpToTc defaultTc : Nat) (w : List Byte) : Nat :=
  if isTpid (beField w 12 2) then bits pcpToTc (4 * (beField w 14 1 / 32) + 3) (4 * (beField w 14 1 / 32)) else defaultTc

/-- `w` with the outermost VLAN tag removed (fwd.strip, copy lists). -/
def stripTag (w : List Byte) : List Byte := if tagAt w 12 then w.take 12 ++ w.drop 16 else w

/-- `w` with DEI set in its outer tag (R119, R156). -/
def setDei (w : List Byte) : List Byte :=
  if tagAt w 12 then patch w 14 [BitVec.ofNat 8 (setBit (beField w 14 1) 4)] else w

/-- DEI of the outer tag; an untagged frame has none. -/
def deiOf (w : List Byte) : Bool := tagAt w 12 && bit (beField w 14 1) 4

/-! ### Cycle frames (R242, R243) -/

/-- What the cycle header of a frame says; `at_` is the byte it begins at. -/
structure CycleHead where
  at_ : Nat
  version : Nat
  flags : Nat
  ring : Nat
  counter : Nat
  seconds : Nat
  nanos : Nat
  count : Nat
  index : Nat
  node : Nat
  accum : Int
  deriving DecidableEq, Repr

/-- The cycle header of a frame of EtherType `ty`, after at most one VLAN tag (R242). -/
def cycleHead (ty : Nat) (w : List Byte) : Option CycleHead :=
  let p := if tagAt w 12 then 16 else 12
  let a := p + 2
  if beField w p 2 = ty ∧ a + 32 ≤ w.length then
    some { at_ := a, version := beField w a 1, flags := beField w (a + 1) 1, ring := beField w (a + 2) 2,
           counter := beField w (a + 4) 4, seconds := beField w (a + 8) 6, nanos := beField w (a + 14) 4,
           count := beField w (a + 18) 2, index := beField w (a + 20) 1 % 8, node := beField w (a + 22) 2,
           accum := toSigned 64 (beField w (a + 24) 8) }
  else none

end Sys2Proof.Machine
end

