-- ==== Sys2Proof/Machine/Buffer.lean ====
section
/-! DEFINITION. The shared buffer: handles, cells, pools, queues and admission (R51 to R61, R504), the guarantee's state
(R192, R198), and survey records and postcards (R121 to R124). -/

namespace Sys2Proof.Machine

/-- Cells in the shared buffer (R51). -/
def cellCount : Nat := 655360

namespace State

/-! ### The accepted-work guarantee (R191, R192, R198) -/

/-- The part shown in GUARANTEE_FAULT_PART, and HELD or DEGRADED unless a condition has been left (R191, R192). -/
def showFault (s : State) : State :=
  let s1 := s.setReg Ix.guaranteeFaultPart 0 (s.isl.faultParts.headD 0xFFFF)
  if s1.reg Ix.guaranteeState 0 = 2 then s1
  else s1.setReg Ix.guaranteeState 0 (if s.isl.faultParts = [] then 0 else 1)

/-- A single part is detected as faulted; a second one leaves the condition (R192, R198 bit 0). -/
def partFaults (s : State) (code : Nat) : State :=
  if s.isl.faultParts.contains code then s
  else
    let s1 := { s with isl := { s.isl with faultParts := s.isl.faultParts ++ [code] } }
    match s.isl.faultParts with
    | [] => s1.showFault
    | first :: _ =>
      (s1.leaveGuarantee 0).showFault.event Ix.guaranteeLeftCount 4 0xFF [(2, first), (2, code)]

/-- A part's fault ends (R192). -/
def partRecovers (s : State) (code : Nat) : State :=
  ({ s with isl := { s.isl with faultParts := s.isl.faultParts.filter (· ≠ code) } }).showFault

/-- Part codes of GUARANTEE_FAULT_PART (R200). -/
def partAwl (w : Nat) : Nat := 0x1000 + w
def partRig (r : Nat) : Nat := 0x2000 + r
def partLane (l : Nat) : Nat := 0x3000 + l
def partPort (p : Nat) : Nat := 0x4000 + p
def partMem (c : Nat) : Nat := 0x5000 + c
def partSupervisor : Nat := 0x6000

/-! ### Handles -/

def pkt? (s : State) (h : Nat) : Option Packet := tget s.fr.pkts h
def setPkt (s : State) (h : Nat) (p : Packet) : State := { s with fr := { s.fr with pkts := tset s.fr.pkts h p } }
def dropPkt (s : State) (h : Nat) : State := { s with fr := { s.fr with pkts := terase s.fr.pkts h } }

/-- Handle `h` changed by `f`, if it exists. -/
def modPkt (s : State) (h : Nat) (f : Packet → Packet) : State :=
  match s.pkt? h with
  | some p => s.setPkt h (f p)
  | none => s

end State

/-- The frame without its FCS, as far as it has arrived. A host frame carries none (R41). -/
def Packet.payload (p : Packet) : List Byte :=
  if p.src < 512 ∧ p.ended then p.bytes.take (p.len - 4) else p.bytes

/-- The header window as received (R68, R105). -/
def Packet.window (p : Packet) : List Byte := p.payload.take 256

/-- The bytes behind the window, sent unchanged (R105). -/
def Packet.tail (p : Packet) : List Byte := p.payload.drop 256

/-- The window a copy leaves with: edited, with DEI and the strip of the copy; a `mir` copy has the frame as received. -/
def Packet.copyWindow (p : Packet) (c : CopySpec) : List Byte :=
  let w := if c.asReceived then p.window
    else
      let e := match p.result with
        | some r => r.window
        | none => p.window
      if p.dei then setDei e else e
  if c.strip then stripTag w else w

/-- A copy's frame without FCS. -/
def Packet.copyData (p : Packet) (c : CopySpec) : List Byte := p.copyWindow c ++ p.tail

/-- L of a copy: destination address to FCS, after window edits (R44, R151). -/
def Packet.copyLen (p : Packet) (c : CopySpec) : Nat := (p.copyData c).length + 4

/-- L of the frame after its window edits, for counters, meters and survey (R110, R119, R121). -/
def Packet.editedLen (p : Packet) : Nat := p.copyLen ⟨0, false, false⟩

/-- DEI of the outer tag of the edited window, as a meter sees it (R160). -/
def Packet.editedDei (p : Packet) : Bool := deiOf ((p.result.map Result.window).getD p.window)

/-- Cells of the frame that are stored: its bytes so far, 256 to a cell (R51, R504). -/
def Packet.storedCells (p : Packet) : Nat := min p.cells.length (ceilDiv p.bytes.length 256)

/-- The handle is in a rig queue, on an awl, or at its keeper (R74). A handle in a hold list counts neither for its domain nor
for its keeper (DESIGN CHOICE, notes/assumptions/50.md: R74 says both that a handle is outstanding once it leaves the dispatch
list and that a domain holds at most 512, which its held handles would pass). -/
def Packet.outstanding (p : Packet) : Bool :=
  match p.stage with
  | .rigQueue _ | .onAwl _ | .atKeeper | .enqueuing => true
  | _ => false

namespace State

/-- The sector source `i` is dispatched to, and whose keeper retires it (R69). -/
def homeSector (s : State) (src : Nat) : Nat :=
  if src < 512 then src / 32 else s.reg Ix.hostPortHomeSector (src - 512 + 1)

/-! ### Queues -/

def queue (s : State) (q : Nat) : List QCopy := tgetD s.fr.queues q []
def setQueue (s : State) (q : Nat) (l : List QCopy) : State :=
  { s with fr := { s.fr with queues := tput [] s.fr.queues q l } }

/-- Cells a copy of handle `h` is charged (R59, R60): until its frame is accepted, and its cells are known, the whole
reservation (DESIGN CHOICE, notes/assumptions/50.md). -/
def copyCells (s : State) (h : Nat) : Nat :=
  match s.pkt? h with
  | some p => p.cells.length
  | none => 0

/-- Copies in transmission from queue `q`. -/
def inTransmission (s : State) (q : Nat) : List TxCopy :=
  (s.fr.tx.map Prod.snd).filter fun t => t.queue == q

/-- Cells the copies of `p` that queue `q` has admitted, and that are enqueued when `p` retires, are charged (R59, R86). -/
def admittedCells (p : Packet) (q : Nat) : Nat := (p.admitted.filter fun a => a.2.queue == q).length * p.cells.length

/-- Occupancy of queue `q` in cells (R59, R60): copies in it, in transmission from it, and admitted to it. -/
def queueDepth (s : State) (q : Nat) : Nat :=
  ((s.queue q).map fun c => s.copyCells c.pkt).sum + ((s.inTransmission q).map fun t => s.copyCells t.copy.pkt).sum +
    (s.fr.pkts.map fun e => admittedCells e.2 q).sum

/-- Queue `q` holds no frame but that of handle `h` (R48). -/
def holdsOnly (s : State) (q h : Nat) : Bool :=
  (s.queue q).all (fun c => c.pkt == h) && (s.inTransmission q).all fun t => t.copy.pkt == h

/-- Handle `h` has a copy in queue `q` or in transmission from it. -/
def holdsIn (s : State) (h q : Nat) : Bool :=
  (s.queue q).any (fun c => c.pkt == h) || (s.inTransmission q).any (fun t => t.copy.pkt == h)

/-- Queues in which handle `h` has a copy, or from which one is in transmission. -/
def queuesOf (s : State) (h : Nat) : List Nat :=
  ((s.fr.queues.filter fun e => e.2.any fun c => c.pkt == h).map Prod.fst) ++
    (((s.fr.tx.map Prod.snd).filter fun t => t.copy.pkt == h).map TxCopy.queue)

/-- The queue is shared (R59). -/
def shared (s : State) (q : Nat) : Bool := s.reg Ix.queueMode (q + 1) == 0

/-! ### Pools (R61, R504) -/

/-- Sum of an array's elements whose factory value is 0. -/
def sumReg (s : State) (idx : Nat) : Nat := ((s.dict.filter fun e => e.1 / 65536 == idx).map Prod.snd).sum

/-- SHARED_POOL_CELLS (R61). -/
def sharedPool (s : State) : Nat :=
  cellCount - s.sumReg Ix.queueGuardCells - s.reg Ix.guardIntakeCells 0 - s.fr.quarantine.length

/-- Cells of one handle that count against the shared pool (R504). -/
def sharedCells (s : State) (h : Nat) (p : Packet) : Nat :=
  if !p.returned then (if p.guarded then 0 else p.reserved)
  else if (s.queuesOf h).any s.shared then p.storedCells else 0

/-- Cells counted against the shared pool (R504). -/
def sharedUsed (s : State) : Nat := (s.fr.pkts.map fun e => s.sharedCells e.1 e.2).sum

/-- F of R59: free cells of the shared pool. -/
def sharedFree (s : State) : Nat := s.sharedPool - s.sharedUsed

/-- Cells counted against the guarded intake pool (R504). -/
def guardedUsed (s : State) : Nat :=
  (s.fr.pkts.map fun e => if !e.2.returned && e.2.guarded then e.2.reserved else 0).sum

/-- Occupancy of an intake account (R57). -/
def intakeUsed (s : State) (acct : Nat) : Nat :=
  (s.fr.pkts.map fun e => if !e.2.returned && e.2.account == acct then e.2.reserved else 0).sum

/-- A reservation of `r` cells is granted (R57). -/
def intakeGrants (s : State) (acct r : Nat) : Bool :=
  decide (s.intakeUsed acct + r ≤ s.reg Ix.intakeLimitCells (acct + 1)) &&
    (if s.regB Ix.intakeGuarded (acct + 1) then decide (s.guardedUsed + r ≤ s.reg Ix.guardIntakeCells 0)
     else decide (r ≤ s.sharedFree))

/-- Cells that some frame holds. -/
def heldCells (s : State) : List Nat := s.fr.pkts.flatMap fun e => e.2.cells

/-- `n` distinct cells that no frame holds and that are not quarantined: a choice the buffer island may make. -/
def freeChoice (s : State) (cells : List Nat) (n : Nat) : Bool :=
  let held := s.heldCells
  decide (cells.length = n) && decide cells.Nodup &&
    cells.all fun c => decide (c < cellCount) && !held.contains c && !s.fr.quarantine.contains c

/-- The first `n` cells that no frame holds and that are not quarantined. -/
def lowestFree (s : State) (n : Nat) : List Nat :=
  let taken := s.heldCells ++ s.fr.quarantine
  ((List.range (taken.length + n)).filter fun c => !taken.contains c).take n

/-- BUFFER_FREE_CELLS: physically free cells (R504), those that store no frame. A cell that is reserved and not yet written
counts as free (DESIGN CHOICE, notes/assumptions/50.md). -/
def freeCells (s : State) : Nat := cellCount - (s.fr.pkts.map fun e => e.2.storedCells).sum

/-- α(q) F ≥ occupancy + n, or the guarded credit (R59). `fromGuard`: the frame's intake came from the guarded pool. -/
def admits (s : State) (q n : Nat) (fromGuard : Bool) : Bool :=
  let occ := s.queueDepth q
  if s.shared q then
    let f := s.sharedFree
    decide ((occ + n) * 64 ≤ 2 ^ s.reg Ix.queueAlpha (q + 1) * f) && (!fromGuard || decide (n ≤ f))
  else decide (occ + n ≤ s.reg Ix.queueGuardCells (q + 1))

/-! ### Freeing (R54, R60) -/

/-- A freed cell is bad no more (R53). One that was corrected in three passes in a row is quarantined, up to 1,024 cells;
beyond that it is only logged (R54). -/
def freeCell (s : State) (c : Nat) : State :=
  let m := tgetD s.fr.cells c {}
  let s1 := { s with fr := { s.fr with cells := tput {} s.fr.cells c (if m.condemned then {} else { m with bad := false }) } }
  if m.condemned then
    if s.fr.quarantine.length < 1024 then
      let s2 := { s1 with fr := { s1.fr with quarantine := s1.fr.quarantine ++ [c] } }
      s2.setReg Ix.bufferQuarantined 0 s2.fr.quarantine.length
    else s1.event Ix.bufferScrubPeriod 1 48 [(4, c)]
  else s1

/-- No copy of handle `h` will read its cells any more: every copy has been enqueued or removed and none is left (R60). -/
def unread (s : State) (h : Nat) (p : Packet) : Bool :=
  p.ended && p.returned && p.toEnqueue.isEmpty && p.admitted.isEmpty && (s.queuesOf h).isEmpty && (p.failed || p.stage == .retired)

/-- Cells no copy reads are freed; a handle that is retired, and committed or failed, is gone with them (R60). -/
def reap (s : State) (h : Nat) : State :=
  match s.pkt? h with
  | none => s
  | some p =>
    if s.unread h p then
      let s1 := p.cells.foldl freeCell (s.setPkt h { p with cells := [], reserved := 0 })
      if p.stage = .retired ∧ (p.committed ∨ p.failed) then s1.dropPkt h else s1
    else s

/-! ### Survey records (R121 to R124) -/

/-- Nanoseconds of a raw interval, saturated to 32 bits. -/
def nsSat (r : Nat) : Nat := min (r / 65536) 0xFFFFFFFF

/-- The survey record of handle `p` whose outcome event falls at raw time `t` (R121, R122); the length of a frame that is still
arriving is a free value. -/
def surveyRecord (p : Packet) (outcome : Nat) (t : Raw) : Survey :=
  let r := p.result
  let wait := nsSat (((r.map fun x => (p.retiredAt - x.arrived).toNat)).getD 0)
  let flags := ofBool p.stolen + 2 * ofBool p.firstCut + 4 * ofBool p.redispatched +
    8 * ofBool ((r.map fun x => x.effects.any fun e => match e with | .inBand _ => true | _ => false).getD false) +
    16 * ofBool ((r.map fun x => x.effects.any fun e => match e with | .postcard _ => true | _ => false).getD false)
  leBytes 8 p.ts.toNat ++ leBytes 4 (nsSat (t - p.ts).toNat) ++ leBytes 4 wait ++ leBytes 4 p.domSeq ++
    leBytes 4 p.firstSeq ++ leBytes 2 p.src ++ leBytes 2 p.firstQueue ++ leBytes 4 p.firstDepth ++
    leBytes 8 (p.retireNo.getD 0) ++ leBytes 1 ((r.map Result.rig).getD 0) ++ leBytes 1 ((r.map Result.awl).getD 0) ++
    leBytes 1 flags ++ leBytes 1 outcome ++ leBytes 1 p.decidedCopies ++
    leBytes 1 (p.cls + 16 * (if p.firstQueue = 0xFFFF then 0 else p.firstQueue % 8)) ++ leBytes 2 (if p.ended then p.editedLen else Config.openLength p.bytes.length) ++
    leBytes 4 p.flowHash ++ leBytes 4 ((r.map Result.cycles).getD 0) ++ leBytes 4 p.domain ++ leBytes 1 p.faults ++
    List.replicate 3 0#8

/-- Histogram bin of a time `v` with base `b` (R123). -/
def histBin (b v : Nat) : Nat :=
  if v < b then 0 else ((List.range 14).find? fun k => decide (v < b * 2 ^ (k + 1))).elim 15 (· + 1)

/-- The reducer adds a record to its flow entry in LPDDR4X (R123); without LPDDR4X, or where the entry cannot be read, the
record is counted as lost (R411). -/
def reduce (s : State) (sv : Survey) : State :=
  let entry := 9223372036854775808 + s.mm.mirror +
    128 * (leField sv 48 4 % 2 ^ s.reg Ix.surveyFlowBits 0)
  let old := s.load entry 128
  let res := leField sv 8 4
  let n := leField old 0 8
  let k := histBin (s.reg Ix.surveyHistBase 0) res
  let bins := (List.range 16).flatMap fun i =>
    leBytes 4 (satAdd 32 (leField old (16 + 4 * i) 4) (if i = k then 1 else 0))
  let oc := leField sv 43 1
  let bs := leBytes 8 (satAdd 64 n 1) ++ leBytes 8 (satAdd 64 (leField old 8 8) (leField sv 46 2)) ++ bins ++
    leBytes 4 (if n = 0 then res else min (leField old 80 4) res) ++ leBytes 4 (max (leField old 84 4) res) ++
    leBytes 8 s.raw.toNat ++ slice sv 48 4 ++
    leBytes 4 (satAdd 32 (leField old 100 4) (if 2 ≤ oc then 1 else 0)) ++ slice old 104 24
  if s.readOk entry 128 ∧ s.writeOk entry 128 then s.store entry bs
  else (s.noteBadRead 0xFFFF entry 128).count Ix.surveyReduceLost 0 1

/-- The record matches POSTCARD_CONDITION of target `k` (R135). -/
def postcardMatches (s : State) (k : Nat) (sv : Survey) : Bool :=
  let c := s.reg Ix.postcardCondition (k + 1)
  let oc := leField sv 43 1
  let fl := leField sv 42 1
  let th := s.reg Ix.postcardThreshold (k + 1)
  (bit c 0 && oc == 2) || (bit c 1 && oc == 4) || (bit c 2 && oc == 5) || (bit c 3 && oc == 6) ||
    (bit c 4 && bit fl 0) || (bit c 5 && bit fl 2) || (bit c 6 && decide (th < leField sv 8 4)) ||
    (bit c 7 && decide (th < leField sv 12 4)) || (bit c 8 && oc == 7) || (bit c 9 && oc == 3)

/-! ### Leaving a queue without being sent, and sizes (R44, R63, R311, R312) -/

def holdTimer (s : State) (p : Nat) : HoldTimer := tgetD s.fr.hold p {}
def setHoldTimer (s : State) (p : Nat) (x : HoldTimer) : State := { s with fr := { s.fr with hold := tput {} s.fr.hold p x } }

/-- A copy of a queue is released: counted; the queue's first release since the expiry is logged and leaves the
guarantee (R63, R198). -/
def noteRelease (s : State) (q seq : Nat) : State :=
  let p := q / 8
  let x := s.holdTimer p
  let s1 := s.count Ix.queueReleasedCount (q + 1) 1
  match x.released.find? fun e => e.1 == q with
  | some e =>
    s1.setHoldTimer p { x with released := x.released.map fun r => if r.1 = q then (q, seq, e.2.2 + 1) else r }
  | none =>
    ((s1.setHoldTimer p { x with released := x.released ++ [(q, seq, 1)] }).leaveGuarantee 2).event
      Ix.queueReleasedCount 3 48 [(2, q), (6, seq)]

/-- A copy enqueued to `q` now is released at once: its port's hold limit has expired and the queue is shared (R63). -/
def releasesAtOnce (s : State) (q : Nat) : Bool := decide (q < 4096) && (s.holdTimer (q / 8)).expired && s.shared q

/-- The next enqueue sequence of queue `q` is taken (R88). -/
def takeEnqueueSeq (s : State) (q : Nat) : State × Nat :=
  let seq := s.reg Ix.queueEnqueueSeq (q + 1)
  (s.setReg Ix.queueEnqueueSeq (q + 1) ((seq + 1) % 281474976710656), seq)

/-- The receive channel of a host copy (R311). -/
def hostChannel (s : State) (p : Packet) (q : Nat) : Nat :=
  let w := (p.result.map Result.rxChan).getD 0
  if bit w 31 then w % 4096 else s.reg Ix.hostRxDefaultChannel (q - 4096 + 1)

/-- The counter of a copy to queue `q`, of `len` bytes, that is too long for its port, its host port, or the receive
descriptors of its channel `ch` (R44, R312). -/
def sizeDrop (s : State) (q ch len : Nat) : Option (Nat × Nat) :=
  if q < 4096 then
    if s.reg Ix.portMaxFrame (q / 8 + 1) < len then some (Ix.txSizeDrop, q / 8 + 1) else none
  else if s.reg Ix.hostPortMaxFrame ((q - 4096) / 8 + 1) < len then some (Ix.hostRxSizeDrop, q - 4096 + 1)
  else
    match (if ch < 4096 then s.rxEnabled ch else none) with
    | some e => if min 64 (entRingSize e) * entRxSize e < len - 4 then some (Ix.hostRxSizeDrop, q - 4096 + 1) else none
    | none => none

/-- A copy that R44 or R312 removes at enqueue, with its counter. Of a received frame that is still arriving only what has
arrived is judged, its FCS perhaps among it; its whole length is judged at its end. -/
def enqueueDrop (s : State) (p : Packet) (c : CopySpec) : Option (Nat × Nat) :=
  let len := p.copyLen c - if p.src < 512 ∧ p.ended = false then 4 else 0
  let ch := if c.queue < 4096 then 0xFFFF else s.hostChannel p c.queue
  match s.sizeDrop c.queue ch len with
  | some x => some x
  | none =>
    if 4096 ≤ c.queue ∧ (if ch < 4096 then s.rxEnabled ch else none) = none then some (Ix.hostRxNoChannel, c.queue - 4096 + 1)
    else none

/-- The handle of a frame of the device's own, `frame` without FCS: it has no sector and no record of its own. -/
def ownPacket (s : State) (frame : List Byte) (cells : List Nat) (q : Nat) : Packet :=
  { src := 516, cls := q % 8, preempt := false, chan := 0xFFFFFFFF, unit := 0, home := 0, bytes := frame, ended := true,
    len := frame.length + 4, ts := s.raw, windowDone := true, cells := cells, account := 0, reserved := 0, guarded := false,
    returned := true, domain := 0, domSeq := 0, rtag := 0, epoch := 0, orderGen := 0, flowHash := 0, stage := .retired,
    accepted := true, acceptedAt := s.raw, failed := false, stolen := false, redispatched := false, faults := 0,
    result := none, retireNo := none, toEnqueue := [], decided := true, retiredAt := s.raw, charges := [], drawn := none,
    dei := false, committed := true, surveyDone := true, firstQueue := q, firstSeq := 0, firstDepth := 0,
    decidedCopies := 1, filterCounts := [], launch := none, launchDue := true, tsWanted := false }

/-- Offers a postcard frame with the records waiting for target `k` to its queue: too long for its egress, or not admitted at
once, it is discarded, and so is every record while POSTCARD_ETHERTYPE is 0 (R44, R59, R63, R88, R124). A frame that is
released at its enqueue has been neither sent nor dropped (DESIGN CHOICE, notes/assumptions/51.md). -/
def sendPostcard (s : State) (k : Nat) : State :=
  let pc := tgetD s.fr.postcards k {}
  let n := pc.records.length
  let s0 := { s with fr := { s.fr with postcards := tput {} s.fr.postcards k {} } }
  let q := s.reg Ix.postcardDest (k + 1)
  let frame := leBytes 12 (s.reg Ix.postcardMac 0) ++ beBytes 2 (s.reg Ix.postcardEthertype 0) ++ [1#8] ++
    leBytes 1 n ++ pc.records.flatten
  let cells := ceilDiv (frame.length + 4) 256
  let h := s0.fr.nextPkt
  let p := s0.ownPacket frame (s0.lowestFree cells) q
  let dropped (t : State) : State := t.count Ix.postcardDropped (k + 1) n
  if n = 0 then s
  else if s.queuePresent q = false ∨ s.reg Ix.postcardEthertype 0 = 0 then dropped s0
  else
    match s0.enqueueDrop p ⟨q, false, false⟩ with
    | some x => dropped (s0.count x.1 x.2 1)
    | none =>
      if s0.admits q cells false = false then dropped s0
      else
        let sq := s0.takeEnqueueSeq q
        if s0.releasesAtOnce q then sq.1.noteRelease q sq.2
        else
          let s1 := { (sq.1.setPkt h p) with fr := { (sq.1.setPkt h p).fr with nextPkt := h + 1 } }
          let copy : QCopy :=
            { pkt := h, index := 0, spec := ⟨q, false, false⟩, seq := sq.2, enqueued := s.rawTotal, alone := s0.holdsOnly q h,
              deferred := false, chan := if q < 4096 then 0xFFFF else s0.hostChannel p q }
          (s1.setQueue q (s1.queue q ++ [copy])).count Ix.postcardSent (k + 1) n

/-- A record goes to postcard target `k` (R124): to its host channel as one unit, or into its frame. -/
def givePostcard (s : State) (k : Nat) (sv : Survey) : State :=
  let kind := s.reg Ix.postcardKind (k + 1)
  if kind = 1 then
    s.recordToChannel k (s.reg Ix.postcardDest (k + 1)) sv
  else if kind = 2 then
    if s.reg Ix.postcardEthertype 0 = 0 then s.count Ix.postcardDropped (k + 1) 1
    else
      let pc := tgetD s.fr.postcards k {}
      let pc' : Postcard := ⟨pc.records ++ [sv], if pc.records = [] then s.rawTotal else pc.first⟩
      let s1 := { s with fr := { s.fr with postcards := tput {} s.fr.postcards k pc' } }
      if 22 ≤ pc'.records.length then s1.sendPostcard k else s1
  else s

/-- A handle's record is complete at its outcome event at raw time `t`, once (R122): it is kept as the keeper's last record,
sampled by the reducer, and goes to each postcard target whose rule holds (R123, R124). A host frame with a timestamp
request finishes its unit (R309). -/
def completeSurveyAt (s : State) (h outcome : Nat) (t : Raw) : State :=
  match s.pkt? h with
  | none => s
  | some p =>
    if p.surveyDone then s
    else
      let sv := surveyRecord p outcome t
      let k := p.home
      let s1 := s.setPkt h { p with surveyDone := true }
      let kp := tgetD s1.fr.keepers k {}
      let due := decide (s.reg Ix.surveyFlowSample 0 ≤ kp.sampleFlow + 1)
      let asked := (p.result.map fun r => r.effects.filterMap fun e => match e with | .postcard t => some t | _ => none).getD []
      let sampled := (List.range 16).filter fun t =>
        s.reg Ix.postcardSample (t + 1) != 0 && decide (s.reg Ix.postcardSample (t + 1) ≤ tgetD kp.samplePost t 0 + 1)
      let kp' := { kp with sampleFlow := if due then 0 else kp.sampleFlow + 1, samplePost := (List.range 16).foldl (fun tb t =>
          tput 0 tb t (if sampled.contains t then 0 else tgetD tb t 0 + 1)) kp.samplePost }
      let s2 := { s1 with fr := { s1.fr with keepers := tput {} s1.fr.keepers k kp', surveys := tset s1.fr.surveys k sv } }
      let s3 := if s2.regB Ix.surveyEnable 0 && due then s2.reduce sv else s2
      let s4 := (List.range 16).foldl (fun t k =>
        if asked.contains k || sampled.contains k || s.postcardMatches k sv then t.givePostcard k sv else t) s3
      if 512 ≤ p.src ∧ p.chan < 4096 ∧ p.tsWanted ∧ p.failed = false then s4.finishFrameUnit p.chan h else s4

/-- The record is complete at an outcome event now. -/
def completeSurvey (s : State) (h outcome : Nat) : State := s.completeSurveyAt h outcome s.raw

/-! ### Removing copies -/

/-- Copies of handle `h` that wait in queues are removed (R49, R90). -/
def removeQueued (s : State) (h : Nat) : State :=
  (s.queuesOf h).foldl (fun t q => t.setQueue q ((t.queue q).filter fun c => c.pkt != h)) s

/-- Copies of handle `h` in transmission must end with a complemented FCS (R49). -/
def stompSending (s : State) (h : Nat) : State :=
  { s with fr := { s.fr with tx := s.fr.tx.map fun e => (e.1, if e.2.copy.pkt = h then { e.2 with stomp := true } else e.2) } }

end State
end Sys2Proof.Machine
end

