-- ==== Sys2Proof/Machine/Gates.lean ====
section
/-! DEFINITION. Gate schedules and shapers: cycle positions, change times, the guard band, hold, stream gates, credit and
level (R139 to R158). A gate's key is its port p, or 512 + g for stream gate g. -/

namespace Sys2Proof.Machine

/-- What a schedule shows at one instant: states, hold operation of the entry in force, the number of its occurrence, and
the sync nanosecond at which it ends, in sync time of its domain. -/
structure GateView where
  states : Nat
  op : Option Nat
  occurrence : Option Nat
  next : Int
  domain : Nat
  deriving DecidableEq, Repr

/-- An instant no schedule reaches. -/
def farNs : Int := 4611686018427387904

/-- Interval of an entry (R140, R157). -/
def entryInterval (e : Nat) : Nat := e % 4294967296

/-- State byte of an entry. -/
def entryStates (e : Nat) : Nat := e / 4294967296 % 256

/-- Byte 5 of an entry: the operation of a port's list, the IPV byte of a stream gate's. -/
def entryOp (e : Nat) : Nat := e / 1099511627776 % 256

/-- Octet maximum of a stream gate's entry. -/
def entryOctets (e : Nat) : Nat := e / 18446744073709551616 % 4294967296

/-- The entries of a cycle that run, with their starts: entries of interval 0 are skipped (R141). -/
def runsFrom : Nat → Nat → List Nat → List (Nat × Nat × Nat)
  | _, _, [] => []
  | i, start, e :: es =>
    if entryInterval e = 0 then runsFrom (i + 1) start es
    else (i, start, e) :: runsFrom (i + 1) (start + entryInterval e) es

/-- The entries of a schedule that run within a cycle: number, start within the cycle, image. -/
def Schedule.runs (x : Schedule) : List (Nat × Nat × Nat) :=
  (runsFrom 0 0 x.entries).filter fun r => decide (r.2.1 < x.cycle)

/-- The schedule at sync nanosecond `t` of its domain; `initial` are the states where no entry runs (R141). -/
def Schedule.view (x : Schedule) (initial : Nat) (t : Int) : GateView :=
  let runs := x.runs
  if runs = [] ∨ x.cycle = 0 then ⟨initial, none, none, farNs, x.domain⟩
  else if t < x.base then ⟨initial, none, none, x.base, x.domain⟩
  else
    let n := ((t - x.base) / (x.cycle : Int)).toNat
    let off := ((t - x.base) % (x.cycle : Int)).toNat
    let begun := runs.filter fun r => decide (r.2.1 ≤ off)
    let later := runs.filter fun r => decide (off < r.2.1)
    match begun.getLast? with
    | none => ⟨initial, none, none, farNs, x.domain⟩
    | some (i, _, e) =>
      ⟨entryStates e, some (entryOp e), some (n * 2048 + i),
        x.base + n * x.cycle + (match later with | [] => (x.cycle : Int) | r :: _ => (r.2.1 : Int)), x.domain⟩

/-- Hold at a cycle position: the last hold or release operation that ran, in this cycle or the one before (R145, R150). -/
def Schedule.holdAt (x : Schedule) (t : Int) : Bool :=
  if t < x.base ∨ x.cycle = 0 then false
  else
    let off := ((t - x.base) % (x.cycle : Int)).toNat
    let ops := x.runs.filter fun r => entryOp r.2.2 != 0
    let now := ops.filter fun r => decide (r.2.1 ≤ off)
    match now.getLast? with
    | some r => entryOp r.2.2 == 1
    | none =>
      if t < x.base + x.cycle then false
      else match ops.getLast? with
        | some r => entryOp r.2.2 == 1
        | none => false

/-- All that decides a gate: enabled, the states before any schedule, the oper and pending schedules, and the change time,
in sync ns of the pending schedule's domain and of the oper schedule's. -/
structure GatePlan where
  enabled : Bool
  initial : Nat
  oper : Option Schedule
  pending : Option Schedule
  change : Nat
  operChange : Int
  /-- When the pending schedule was applied, in sync ns of the oper schedule's domain (R143). -/
  appliedAt : Int
  deriving DecidableEq, Repr

/-- The plan at an instant whose sync nanoseconds are `now` of each domain, a pending change included (R141 to R143): an old
cycle that had not begun at the apply and would end with the change less than the extension after its start does not begin.
Until a pending change, `next` is that of the oper schedule alone. -/
def GatePlan.view (g : GatePlan) (now : Nat → Int) : GateView :=
  if g.enabled = false then ⟨255, none, none, farNs, 0⟩
  else
    match g.pending with
    | none =>
      match g.oper with
      | some x => x.view g.initial (now x.domain)
      | none => ⟨g.initial, none, none, farNs, 0⟩
    | some x =>
      if (g.change : Int) ≤ now x.domain then x.view g.initial (now x.domain)
      else
        match g.oper with
        | none => ⟨g.initial, none, none, farNs, 0⟩
        | some o =>
          let t := now o.domain
          let start := o.base + (t - o.base) / (o.cycle : Int) * (o.cycle : Int)
          if (o.base : Int) ≤ t ∧ g.appliedAt < start ∧ 0 < g.operChange - start ∧ g.operChange - start < x.extension then
            { o.view g.initial (start - 1) with next := farNs }
          else o.view g.initial t

/-! ### The objects of a gate -/

/-- Index of a port's object, or of the stream gate's that stands in its place (R157). -/
def gateIx (k port stream : Nat) : Nat := if k < 512 then port else stream

/-- Subindex of gate `k`. -/
def gateSub (k : Nat) : Nat := if k < 512 then k + 1 else k - 512 + 1

/-- The objects that make up a gate's schedule, of ports and of stream gates (R139, R157). -/
def scheduleIxs : List Nat :=
  [Ix.gateCycleTime, Ix.gateBaseTime, Ix.gateDomain, Ix.gateCycleExtension, Ix.gateAdminLength, Ix.gateAdminList,
    Ix.streamGateCycleTime, Ix.streamGateBaseTime, Ix.streamGateDomain, Ix.streamGateAdminLength, Ix.streamGateAdminList]

/-- The objects of a port's gate and of a stream gate. -/
def gateIxs : List Nat :=
  [Ix.gateCycleTime, Ix.gateEnable, Ix.gateBaseTime, Ix.gateDomain, Ix.gateCycleExtension, Ix.gateInitialStates,
    Ix.gateAdminLength, Ix.gateAdminList]
def streamGateIxs : List Nat :=
  [Ix.streamGateEnable, Ix.streamGateCycleTime, Ix.streamGateBaseTime, Ix.streamGateDomain, Ix.streamGateInitial,
    Ix.streamGateAdminLength, Ix.streamGateAdminList]

/-- Island of gate `k` (R13, R156). -/
def gateIsland (k : Nat) : Nat := if k < 512 then 16 + k / 32 else 16 + (k - 512) / 1024

/-- Nanoseconds of a TIME80 image (R205). -/
def time80Ns (v : Nat) : Nat := v / 4294967296 * 1000000000 + v % 4294967296

/-- TIME80 image of sync nanoseconds. -/
def nsTime80 (t : Int) : Nat := time80 (t * 65536)

namespace State

def gate (s : State) (k : Nat) : Gate := tgetD s.eg.gates k {}
def setGate (s : State) (k : Nat) (g : Gate) : State := { s with eg := { s.eg with gates := tput {} s.eg.gates k g } }

/-- The value parameter (idx, sub) will hold once island `i`'s pending writes have taken effect (R147). -/
def pendReg (s : State) (i idx sub : Nat) : Nat :=
  match (s.island i).pend.find? fun w => w.idx == idx && w.sub == sub with
  | some w => (w.recs.head?.map Prod.snd).getD 0
  | none => s.reg idx sub

/-- The record number that stands, in a pending TABLE write, for the emptying of the whole TABLE. -/
def emptyMark : Nat := 16777215

/-- A record of a TABLE as it will stand once the pending writes have taken effect. -/
def pendRecord (s : State) (i idx sub r : Nat) : Nat :=
  match (s.island i).pend.find? fun w => w.idx == idx && w.sub == sub with
  | some w => ((w.recs.find? fun e => e.1 == r).map Prod.snd).getD
      (if w.recs.any (fun e => e.1 == emptyMark) then 0 else s.record idx sub r)
  | none => s.record idx sub r

/-- The admin objects of gate `k`, read by `rg` and `rc`, as a schedule (R139, R143). -/
def adminWith (s : State) (rg : Nat → Nat → Nat) (rc : Nat → Nat → Nat → Nat) (k : Nat) : Schedule :=
  let sub := gateSub k
  let n := rg (gateIx k Ix.gateAdminLength Ix.streamGateAdminLength) sub
  let oper := ((s.gate k).oper.map Schedule.cycle).getD 0
  { base := time80Ns (rg (gateIx k Ix.gateBaseTime Ix.streamGateBaseTime) sub)
    cycle := rg (gateIx k Ix.gateCycleTime Ix.streamGateCycleTime) sub
    extension := if k < 512 then min (rg Ix.gateCycleExtension sub) (oper - 1) else 0
    domain := rg (gateIx k Ix.gateDomain Ix.streamGateDomain) sub
    entries := (List.range n).map fun r => rc (gateIx k Ix.gateAdminList Ix.streamGateAdminList) sub r }

/-- The admin schedule in force. -/
def admin (s : State) (k : Nat) : Schedule := s.adminWith s.reg s.record k

/-- Gating is enabled. -/
def gateEnabled (s : State) (k : Nat) : Bool := s.regB (gateIx k Ix.gateEnable Ix.streamGateEnable) (gateSub k)

/-- The domain whose sync time gate `k` follows now. -/
def gateDomainOf (s : State) (k : Nat) : Nat :=
  match (s.gate k).oper with
  | some x => x.domain
  | none =>
    match (s.gate k).pending with
    | some x => x.domain
    | none => s.reg (gateIx k Ix.gateDomain Ix.streamGateDomain) (gateSub k)

/-- A change time of a pending schedule, in sync ns of the oper schedule's domain. -/
def changeSeen (s : State) (oper pending : Option Schedule) (change : Nat) : Int :=
  match oper, pending with
  | some o, some x =>
    if o.domain = x.domain then change
    else s.syncAt o.domain (s.rawIn (s.rawDelta x.domain ((change : Int) * 65536))) / 65536
  | _, _ => change

/-- The plan of gate `k`. -/
def plan (s : State) (k : Nat) : GatePlan :=
  let g := s.gate k
  { enabled := s.gateEnabled k, initial := s.reg (gateIx k Ix.gateInitialStates Ix.streamGateInitial) (gateSub k),
    oper := g.oper, pending := g.pending, change := g.change, operChange := s.changeSeen g.oper g.pending g.change,
    appliedAt := g.pendingFrom }

/-- Sync time of domain `d`, and its whole nanoseconds, as the port island of gate `k` has it: a time-lost island follows its
extrapolated time (R145). -/
def gateSync (s : State) (k d : Nat) : Int := s.syncAt d (s.localRaw (gateIsland k))
def gateNs (s : State) (k d : Nat) : Int := s.gateSync k d / 65536

/-- Gate `k` follows sync time of domain `d`, in its oper or its pending schedule. -/
def followsDomain (s : State) (k d : Nat) : Bool :=
  s.gateDomainOf k == d || (match (s.gate k).pending with | some x => x.domain == d | none => false)

/-- Classes the silence rule forces closed on port `p` (R145, R291). -/
def silenceMask (s : State) (p : Nat) : Nat :=
  let d := s.reg Ix.gateDomain (p + 1)
  if s.gateEnabled p && s.regB Ix.silenceState (d + 1) then s.reg Ix.silenceClasses (d + 1) else 0

/-- States in force on port `p`, after forced closing (R141, R145): GATE_OPER_STATES. -/
def gateStates (s : State) (p : Nat) : Nat :=
  let st := if s.gateEnabled p then (s.gate p).states else 255
  st &&& (255 ^^^ s.silenceMask p)

/-- The change time of R142 from a base, a cycle and the reference time in ru: the time in ns, and whether the base had
passed. -/
def changeTime (base cycle : Nat) (tr : Int) : Nat × Bool :=
  if tr ≤ (base : Int) * 65536 then (base, false)
  else (base + (ceilDivInt (tr - (base : Int) * 65536) (cycle * 65536)).toNat * cycle, true)

/-! ### Shapers (R152 to R154) -/

/-- Units of a credit or level per byte: 1 kbit/s brings one unit per ru. -/
def shaperUnit : Nat := 524288000000

def shaper (s : State) (q : Nat) : Shaper := tgetD s.eg.shapers q {}
def setShaper (s : State) (q : Nat) (x : Shaper) : State := { s with eg := { s.eg with shapers := tput {} s.eg.shapers q x } }

/-- MAC rate in Mbit/s of a port mode (R32). -/
def modeRate (mode : Nat) : Nat :=
  if mode = 1 then 1000 else if mode = 2 then 10000 else if mode = 3 then 25000 else if mode = 4 then 50000
  else if mode = 5 then 53000 else if mode = 6 then 100000 else if mode = 7 then 200000 else 0

def macRate (s : State) (p : Nat) : Nat := modeRate (s.reg Ix.portMode (p + 1))

/-- V of R151 for a queue's shaper. -/
def queueOverhead (s : State) (q : Nat) : Int := if q < 4096 then s.regI Ix.portLengthOverhead (q / 8 + 1) 1 else 0

/-- The gate of a queue's class is open now; host queues have no gate (R138). -/
def queueOpen (s : State) (q : Nat) : Bool := if q < 4096 then bit (s.gateStates (q / 8)) (q % 8) else true

/-- A copy of queue `q` is in transmission, and not held preempted. -/
def sendingFrom (s : State) (q : Nat) : Bool := (s.inTransmission q).any fun t => !t.preempted

/-- A copy of queue `q` is held preempted. -/
def heldPreempted (s : State) (q : Nat) : Bool := (s.inTransmission q).any fun t => t.preempted

/-- The credit of queue `q` after `dt` ru (R152, R154). -/
def creditAfter (s : State) (q : Nat) (x : Shaper) (dt : Nat) : Int × Nat :=
  let idle := s.reg Ix.cbsIdleSlope (q + 1)
  let rate := s.macRate (q / 8) * 1000
  let v := s.queueOverhead q
  let cap : Int := if rate = 0 then 0
    else ((s.reg Ix.portMaxFrame (q / 8 + 1) : Int) + v) * shaperUnit * idle / (rate : Int)
  if idle = 0 then (x.credit, x.owed)
  else if s.sendingFrom q then
    let fall := min x.owed ((rate - idle) * dt)
    (x.credit - fall, x.owed - fall)
  else if s.queueOpen q = false ∨ s.heldPreempted q then (x.credit, x.owed)
  else if s.queue q = [] then (if 0 < x.credit then 0 else min 0 (x.credit + idle * dt), 0)
  else (max x.credit (min cap (x.credit + idle * dt)), 0)

/-- The shaper of queue `q` brought up to now. -/
def shaperNow (s : State) (q : Nat) : Shaper :=
  let x := s.shaper q
  let dt := s.rawTotal - x.upTo
  let burst : Int := s.reg Ix.tbBurst (q + 1) * shaperUnit
  let c := if q < 4096 then s.creditAfter q x dt else (x.credit, x.owed)
  { credit := c.1, owed := c.2, level := max x.level (min burst (x.level + s.reg Ix.tbRate (q + 1) * dt)), upTo := s.rawTotal }

/-- The shaper of queue `q` is settled before anything its rates depend on changes. -/
def settleQueue (s : State) (q : Nat) : State := s.setShaper q (s.shaperNow q)

/-- The eight queues of port `p` are settled. -/
def settlePort (s : State) (p : Nat) : State := (List.range 8).foldl (fun t c => t.settleQueue (8 * p + c)) s

/-- L′ × (R − I) / R of R152 for a frame of `len` bytes from queue `q`: what its credit falls by over the frame. A slope of 0
freezes the credit (R154). -/
def creditOwed (s : State) (q len : Nat) : Nat :=
  let bytes : Int := (len : Int) + s.queueOverhead q
  let idle := s.reg Ix.cbsIdleSlope (q + 1)
  let rate := s.macRate (q / 8) * 1000
  if rate = 0 ∨ rate ≤ idle ∨ idle = 0 ∨ 4096 ≤ q then 0
  else (bytes * shaperUnit * ((rate - idle : Nat) : Int) / (rate : Int)).toNat

/-- What the level of queue `q` falls by for a frame of `len` bytes (R153); a rate of 0 freezes the level (R154). -/
def levelOwed (s : State) (q len : Nat) : Int :=
  if s.reg Ix.tbRate (q + 1) = 0 then 0 else ((len : Int) + s.queueOverhead q) * shaperUnit

/-- A frame charged as `len` bytes starts from queue `q`: level and credit are charged (R151 to R153). -/
def chargeShaper (s : State) (q len : Nat) : State :=
  let x := s.shaperNow q
  s.setShaper q { x with level := x.level - s.levelOwed q len, owed := s.creditOwed q len }

/-- A frame of `len` bytes from queue `q`, charged as `charged` bytes at its start, has left the wire: the charge becomes that
of its length, and what it still owes its credit is taken, unless the credit is frozen (R151, R152, R154). -/
def endShaper (s : State) (q charged len : Nat) : State :=
  let x := s.shaperNow q
  let more : Int := (s.creditOwed q len : Int) - s.creditOwed q charged
  s.setShaper q { x with
    credit := if s.reg Ix.cbsIdleSlope (q + 1) = 0 then x.credit else x.credit - (x.owed + more), owed := 0
    level := x.level - (s.levelOwed q len - s.levelOwed q charged) }

/-- The shapers let queue `q` begin (R136, R153, R154). -/
def shapersAllow (s : State) (q : Nat) : Bool :=
  let x := s.shaperNow q
  (!s.regB Ix.cbsEnable (q + 1) || (decide (0 ≤ x.credit) && s.reg Ix.cbsIdleSlope (q + 1) != 0)) &&
    (!s.regB Ix.tbEnable (q + 1) || (decide (0 ≤ x.level) && s.reg Ix.tbRate (q + 1) != 0))

/-- A credit or level in 2^-10 byte (R152, R153). -/
def shaperImage (v : Int) : Nat := ofSigned 64 (v * 1024 / (shaperUnit : Int))

/-! ### Gate movement (R141 to R145, R150) -/

/-- Bytes a copy in transmission has sent, by its time on the wire; a host copy is read as long as it is delivered. -/
def bytesSent (s : State) (key : Nat) (t : TxCopy) : Nat :=
  if 4096 ≤ t.queue then 0
  else t.sent + (if t.preempted then 0 else s.since t.resumed / 65536 * s.macRate (key % 512) / 8000)

/-- A copy at MAC `key` has bytes still to send. -/
def stillSending (s : State) (key : Nat) (t : TxCopy) : Bool :=
  match s.pkt? t.copy.pkt with
  | some k => !k.accepted || decide (s.bytesSent key t < k.copyLen t.copy.spec)
  | none => true

/-- Copies of port `p` still being sent whose gate has closed under them are counted once (R147); a preemptable frame
under active pre-emption is preempted instead. -/
def countOverruns (s : State) (p : Nat) : State :=
  let hit (e : Nat × TxCopy) : Bool :=
    e.1 == p && e.2.queue < 4096 && !e.2.overrun && !bit (s.gateStates p) (e.2.queue % 8) && s.stillSending e.1 e.2
  let n := (s.fr.tx.filter hit).length
  let s1 := { s with fr := { s.fr with tx := s.fr.tx.map fun e => if hit e then (e.1, { e.2 with overrun := true }) else e } }
  if n = 0 then s else s1.count Ix.gateOverrunCount (p + 1) n

/-- Hold of port `p` becomes `h`; a change from released to asserted is counted (R150). -/
def setHold (s : State) (p : Nat) (h : Bool) : State :=
  let g := s.gate p
  let s1 := (s.setGate p { g with hold := h }).setReg Ix.pmacHoldState (p + 1) (ofBool h)
  if h && !g.hold then s1.count Ix.pmacHoldCount (p + 1) 1 else s1

/-- Gate `k` takes what its plan shows now. `landed`: it is moved there by a step or a reset, so hold follows the position;
otherwise the operation of an entry that begins now is performed, and hold stays as it is within an entry (R141, R145,
R150). -/
def refreshGate (s : State) (k : Nat) (landed : Bool) : State :=
  let pl := s.plan k
  let v := pl.view (s.gateNs k)
  let s0 := if k < 512 then s.settlePort k else s
  let g := s0.gate k
  let s1 := s0.setGate k { g with states := v.states, occurrence := v.occurrence }
  if k < 512 then
    let h := match v.op with
      | none => false
      | some 0 => if landed then (pl.oper.map fun x => x.holdAt (s.gateNs k x.domain)).getD false else g.hold
      | some o => if landed || v.occurrence != g.occurrence then o == 1 else g.hold
    s1.setHold k h
  else s1

/-- The pending schedule of gate `k` becomes oper (R142). -/
def changeGate (s : State) (k : Nat) : State :=
  let g := s.gate k
  match g.pending with
  | none => s
  | some x =>
    let s1 := s.setGate k
      { g with oper := some x, pending := none, previous := g.oper, changedAt := s.rawTotal, octets := [], octetsBefore := g.octets
               occurrence := none }
    let s2 := s1.setReg (gateIx k Ix.gateConfigStatus Ix.streamGateConfigStatus) (gateSub k) 2
    let s3 := if k < 512 then
        let a := (((s2.setReg Ix.gateOperLength (k + 1) x.entries.length).setReg Ix.gateOperCycleTime (k + 1) x.cycle).setReg
          Ix.gateOperBaseTime (k + 1) (nsTime80 x.base)).countSat Ix.gateConfigChangeCount (k + 1) 1
        (List.range 1024).foldl (fun t r => if r < x.entries.length ∨ t.record Ix.gateOperList (k + 1) r ≠ 0 then
          t.setRecord Ix.gateOperList (k + 1) r (x.entries.getD r 0) else t) a
      else s2
    s3.refreshGate k false

/-- The pending change time of gate `k` has come (R142, R145). -/
def changeDue (s : State) (k : Nat) : Bool :=
  match (s.gate k).pending with
  | some x => decide ((s.gate k).change * 65536 ≤ s.gateSync k x.domain)
  | none => false

/-- An apply has brought new admin values of gate `k` (R139, R142, R144). `target`: the raw target and its domain's sync
target, for a scheduled strobe. -/
def applyGate (s : State) (k : Nat) (target : Option Raw) : State :=
  let g := s.gate k
  let st := gateIx k Ix.gateConfigStatus Ix.streamGateConfigStatus
  let sub := gateSub k
  if s.gateEnabled k = false then
    let s0 := if k < 512 then s.settlePort k else s
    let s1 := s0.setGate k { g with oper := none, pending := none, states := 255, occurrence := none }
    let s2 := if s1.reg st sub = 1 then s1.setReg st sub 0 else s1
    if k < 512 then s2.setHold k false else s2
  else
    let x := s.admin k
    let trRaw := target.getD s.raw
    let tr := s.syncAt x.domain trRaw
    let c := changeTime x.base x.cycle tr
    let s1 := if c.2 && decide (k < 512) then s.countSat Ix.gateConfigErrorCount sub 1 else s
    let ahead := s1.rawDelta x.domain ((c.1 : Int) * 65536) - (trRaw - s1.raw).toInt
    if horizon < ahead then
      let s2 := (s1.setGate k { g with pending := none }).setReg st sub 3
      let s3 := if k < 512 then s2.countSat Ix.gateConfigErrorCount sub 1 else s2
      (s3.event (gateIx k Ix.gateConfigErrorCount Ix.streamGateConfigStatus) 2 (gateIsland k) []).refreshGate k false
    else
      let from_ := match g.oper with | some o => s1.syncAt o.domain trRaw / 65536 | none => 0
      let s2 := (s1.setGate k { g with pending := some x, change := c.1, pendingFrom := from_ }).setReg st sub 1
      let s3 := if k < 512 then s2.setReg Ix.gateChangeTime sub (nsTime80 c.1) else s2
      if (c.1 : Int) * 65536 ≤ tr ∨ s3.changeDue k then s3.changeGate k else s3.refreshGate k false

/-- An apply has written objects of gate `k`, `renew` its schedule or its enabling: the initial states alone are no new
schedule and show at once where no entry runs (R139, R141). -/
def applyGateWrites (s : State) (k : Nat) (target : Option Raw) (renew : Bool) : State :=
  if renew || !s.gateEnabled k then s.applyGate k target else s.refreshGate k false

/-- Gate `k` meets a step of its domain's time, or its island's return to RUN: a change time that has passed takes effect,
and the gate moves to the position of the new sync time (R29, R145). -/
def landGate (s : State) (k : Nat) : State :=
  let s1 := (if s.changeDue k then s.changeGate k else s).refreshGate k true
  if k < 512 then s1.countOverruns k else s1

/-! ### Looking ahead (R146, R147, R150, R165) -/

/-- The plan gate `p` will have once a scheduled strobe its island holds has applied its pending writes, and the raw
distance to that moment (R147). -/
def futurePlan (s : State) (p : Nat) : Option (Int × GatePlan) :=
  let i := gateIsland p
  let grp := s.reg Ix.applyGroup (i + 1)
  match (tgetD s.isl.groups grp {}).armed with
  | none => none
  | some a =>
    let mine := (s.island i).pend.filter fun w => gateIxs.contains w.idx && w.sub == p + 1
    if a.held.contains i && !mine.isEmpty then
      let x := s.adminWith (s.pendReg i) (s.pendRecord i) p
      let c := changeTime x.base x.cycle (s.syncAt x.domain a.raw)
      let now := s.plan p
      let renewed := !now.enabled || mine.any fun w => scheduleIxs.contains w.idx
      let pending := if renewed then some x else now.pending
      let change := if renewed then c.1 else now.change
      some ((a.raw - s.raw).toInt,
        { enabled := s.pendReg i Ix.gateEnable (p + 1) != 0, initial := s.pendReg i Ix.gateInitialStates (p + 1),
          oper := now.oper, pending := pending, change := change, operChange := s.changeSeen now.oper pending change,
          appliedAt := if renewed then (now.oper.map fun o => s.syncAt o.domain a.raw / 65536).getD 0 else now.appliedAt })
    else none

/-- What gate `p` shows at raw distance `d` from now, and the distance at which that may next change. -/
def viewAhead (s : State) (p : Nat) (d : Int) : GateView × Int :=
  let drift := s.islandDrift (gateIsland p)
  let at_ (pl : GatePlan) : GateView × Int :=
    let v := pl.view fun e => s.syncAt e (s.rawIn (d + drift)) / 65536
    let own := if farNs ≤ v.next then farNs else max (d + 1) (s.rawDelta v.domain (v.next * 65536) - drift)
    let change := match pl.pending with
      | some x => s.rawDelta x.domain ((pl.change : Int) * 65536) - drift
      | none => farNs
    (v, if d < change then min own change else own)
  match s.futurePlan p with
  | none => at_ (s.plan p)
  | some (when_, pl) => if when_ ≤ d then at_ pl else let r := at_ (s.plan p); (r.1, min r.2 when_)

/-- The gate of class `c` stays open from raw distance `d` up to `stop`. -/
def staysOpen (s : State) (p c : Nat) (stop : Int) : Nat → Int → Bool
  | 0, _ => false
  | fuel + 1, d =>
    let r := s.viewAhead p d
    bit (r.1.states &&& (255 ^^^ s.silenceMask p)) c && (decide (stop ≤ r.2) || s.staysOpen p c stop fuel r.2)

/-- d of R146 in ns for a copy whose length is taken as `len`. -/
def guardNs (s : State) (p len : Nat) : Nat := ceilDiv ((len + 20) * 8 * 1000) (s.macRate p)

/-- The guard-band test of R146 passes for a copy of class `c` now. -/
def guardPasses (s : State) (p c len : Nat) : Bool :=
  let d := s.guardNs p len
  s.staysOpen p c ((d : Int) * 65536) (d + 4) 0

/-- Raw distance to the start of the next entry that passes `p`, if it lies within `lead`. -/
def nextEntry (s : State) (k : Nat) (lead : Int) (want : GateView → GateView → Bool) : Nat → GateView → Int → Option Int
  | 0, _, _ => none
  | fuel + 1, prev, d =>
    if lead < d then none
    else
      let r := s.viewAhead k d
      if want prev r.1 then some d else s.nextEntry k lead want fuel r.1 r.2

/-- Raw distance to the next Set-And-Hold-MAC entry within PMAC_HOLD_ADVANCE (R150). -/
def holdAhead (s : State) (p : Nat) : Option Int :=
  let lead : Int := s.reg Ix.pmacHoldAdvance (p + 1) * 65536
  let r := s.viewAhead p 0
  s.nextEntry p lead (fun _ v => v.op == some 1) (s.reg Ix.pmacHoldAdvance (p + 1) + 4) r.1 r.2

/-- Raw distance to the next opening of a gate of the classes `mask` within `lead` ru (R165). -/
def openingAhead (s : State) (p mask : Nat) (lead : Int) : Option Int :=
  let r := s.viewAhead p 0
  s.nextEntry p lead (fun a b => (b.states &&& (255 ^^^ a.states) &&& mask) != 0) (lead.toNat / 65536 + 4) r.1 r.2

/-! ### Stream gates (R157, R158) -/

/-- An arrival is judged against the previous oper list (R157): it came before the change, which was at most 10 ms ago. -/
def beforeChange (s : State) (k : Nat) (ts : Raw) : Bool :=
  let g := s.gate k
  decide ((ts - g.changedAt).toInt < 0) && decide (s.since g.changedAt ≤ ns 10000000) && g.oper.isSome

/-- The oper list in force at an arrival (R157): the previous list is kept for 10 ms after a change. -/
def gateListAt (s : State) (k : Nat) (ts : Raw) : Option Schedule :=
  if s.beforeChange k ts then (s.gate k).previous else (s.gate k).oper

end State

/-- The open intervals of a cycle, as starts and ends within it. -/
def Schedule.openSpans (x : Schedule) : List (Nat × Nat) :=
  let runs := x.runs
  let ends := (runs.drop 1).map (fun r => r.2.1) ++ [x.cycle]
  ((runs.zip ends).filter fun r => bit (entryStates r.1.2.2) 0).map fun r => (r.1.2.1, r.2)

/-- Time since the end of the most recent open entry, in ru, at sync time `t` in ru (R157). -/
def Schedule.sinceOpen (x : Schedule) (t : Int) : Option Int :=
  let n := (t / 65536 - x.base) / (x.cycle : Int)
  let off := t - (x.base + n * x.cycle) * 65536
  if t < (x.base : Int) * 65536 then none
  else
    match ((x.openSpans.map Prod.snd).filter fun (e : Nat) => decide ((e : Int) * 65536 ≤ off)).getLast? with
    | some e => some (off - (e : Int) * 65536)
    | none =>
      if n = 0 then none
      else ((x.openSpans.map Prod.snd).getLast?).map fun (e : Nat) => off + ((x.cycle : Int) - (e : Int)) * 65536

/-- Time to the start of the next open entry, in ru. -/
def Schedule.untilOpen (x : Schedule) (t : Int) : Option Int :=
  let n := if t < (x.base : Int) * 65536 then 0 else (t / 65536 - x.base) / (x.cycle : Int)
  let off := t - (x.base + n * x.cycle) * 65536
  match (x.openSpans.map Prod.fst).find? fun (b : Nat) => decide (off < (b : Int) * 65536) with
  | some b => some ((b : Int) * 65536 - off)
  | none => (x.openSpans.head?).map fun b => ((x.cycle : Int) + b.1) * 65536 - off

namespace State

/-- STREAM_GATE_STATE: open now, and the latches (R158, R170). -/
def streamGateState (s : State) (g : Nat) : Nat :=
  let x := s.gate (512 + g)
  let open_ := !s.gateEnabled (512 + g) || bit x.states 0
  ofBool (open_ && !x.latchClosed && !x.latchOctets) + 2 * ofBool x.latchClosed + 4 * ofBool x.latchOctets

/-- A stream gate judges a frame of `len` bytes that arrived at `ts` (R157 to R159): the state after, whether it passes, and
the IPV of the entry in force. -/
def judgeStreamGate (s : State) (g len : Nat) (ts : Raw) : State × Bool × Option Nat :=
  let k := 512 + g
  let x := s.gate k
  if s.gateEnabled k = false ∧ x.latchClosed = false ∧ x.latchOctets = false then (s, true, none)
  else
    let list := s.gateListAt k ts
    let d := (list.map Schedule.domain).getD (s.gateDomainOf k)
    let t := s.syncAt d ts
    let initial := s.reg Ix.streamGateInitial (g + 1)
    let v : GateView := if s.gateEnabled k = false then ⟨1, none, none, farNs, d⟩
      else match list with
        | some l => l.view initial (t / 65536)
        | none => ⟨initial, none, none, farNs, d⟩
    let entry := match list, v.occurrence with
      | some l, some o => l.entries[o % 2048]?
      | _, _ => none
    let flags := s.reg Ix.streamGateFlags (g + 1)
    if bit v.states 0 = false then
      let s1 := match list with
        | none => s
        | some l =>
          match l.untilOpen t with
          | none => s
          | some b =>
            if decide (((l.sinceOpen t).map fun a => decide (a ≤ b)) = some true) then s.count Ix.streamGateLate (g + 1) 1
            else s.count Ix.streamGateEarly (g + 1) 1
      (if bit flags 0 then s1.setGate k { s1.gate k with latchClosed := true } else s1, false, none)
    else if x.latchClosed ∨ x.latchOctets then (s, false, none)
    else
      let lim := (entry.map entryOctets).getD 0
      let o := v.occurrence.getD 0
      let old := s.beforeChange k ts
      let sum := tgetD (if old then x.octetsBefore else x.octets) o 0
      let ipv := entry.bind fun e => if bit (entryOp e) 3 then some (entryOp e % 8) else none
      if lim = 0 then (s, true, ipv)
      else if lim < sum + len then
        let s1 := s.count Ix.streamGateOctetsExceeded (g + 1) 1
        (if bit flags 1 then s1.setGate k { x with latchOctets := true } else s1, false, none)
      else
        (s.setGate k (if old then { x with octetsBefore := tput 0 x.octetsBefore o (sum + len) }
          else { x with octets := tput 0 x.octets o (sum + len) }), true, ipv)

end State
end Sys2Proof.Machine
end

