-- ==== Sys2Proof/Machine/Bmca.lean ====
section
/-! DEFINITION. Which ports are up, the states of a domain, and the port states of the best master clock algorithm of its
profile (R212, R214, R224, R239, R282, R396). The algorithms are those of IEEE 1588 and IEEE 802.1AS (PRESUMED,
notes/assumptions/54.md). -/

namespace Sys2Proof.Machine

/-- Lanes of a port mode (R32). -/
def modeLanes (mode : Nat) : Nat := if mode = 6 then 2 else if mode = 7 then 4 else 1

/-! ### Clocks heard (R282) -/

/-- A clock as a port hears it: the grandmaster vector with its steps removed, the port that sends it, and the port that
hears it. -/
structure Heard where
  vec : List Byte
  sender : List Byte
  port : Nat
  deriving DecidableEq, Repr

/-- How a clock stands to another under IEEE 1588: better, better by topology alone, or neither. -/
inductive Stands where
  | better | topology | no
  deriving DecidableEq, Repr

/-- Identity of the device's clock, and of its port `p`. -/
def clockIdentity : List Byte := (List.range 8).map Config.timeByte
def portIdentity (p : Nat) : List Byte := clockIdentity ++ beBytes 2 (p + 1)

/-- Steps removed of a clock heard. -/
def Heard.steps (h : Heard) : Nat := beField h.vec 14 2

/-- Two clocks of one grandmaster: fewer steps are better; one step apart, or as many, the topology decides. -/
def Heard.sameRoot (a b : Heard) : Stands :=
  let before (x y : List Byte) : Bool := decide (beNat x < beNat y)
  if a.steps + 1 < b.steps then .better
  else if b.steps < a.steps then .no
  else if a.steps < b.steps then
    (if before (portIdentity b.port) b.sender then .better else if before b.sender (portIdentity b.port) then .topology else .no)
  else if before a.sender b.sender then .topology
  else if before b.sender a.sender then .no
  else if a.port < b.port then .topology
  else .no

/-- Clock `a` against clock `b` under IEEE 1588: priority 1, class, accuracy, variance, priority 2 and identity, the lower the
better; then the way to one grandmaster. -/
def Heard.stands (a b : Heard) : Stands :=
  if slice a.vec 6 8 = slice b.vec 6 8 then a.sameRoot b
  else if beNat (slice a.vec 0 14) < beNat (slice b.vec 0 14) then .better
  else .no

/-- The priority vector of IEEE 802.1AS as one number. -/
def Heard.priority (h : Heard) : Nat := beNat (h.vec ++ h.sender ++ beBytes 2 (h.port + 1))

/-- The same clock, one step further on. -/
def Heard.onward (h : Heard) : Heard := { h with vec := slice h.vec 0 14 ++ beBytes 2 (min 65535 (h.steps + 1)) }

namespace State

/-- Lanes port `p` is formed of. -/
def portLanes (s : State) (p : Nat) : List Nat := (List.range (modeLanes (s.reg Ix.portMode (p + 1)))).map (p + ·)

/-- The port is formed and its lanes are all UP (R396). -/
def linkUp (s : State) (p : Nat) : Bool :=
  let mode := s.reg Ix.portMode (p + 1)
  mode != 0 && mode != 8 && (s.portLanes p).all fun l => s.reg Ix.laneState (l + 1) == 4

/-- The port island of port `p`. -/
def portIsland (p : Nat) : Nat := 16 + p / 32

/-- The port is up: formed, every lane UP, its port island not in reset, and no calibration running (R222). -/
def portUp (s : State) (p : Nat) : Bool :=
  s.linkUp p && s.running (portIsland p) && s.reg Ix.tsCalStatus (p + 1) != 1

/-- The meridian, island 51. -/
def meridian : Nat := 51

def servo (s : State) (d : Nat) : Servo := (s.dom d).servo
def setServo (s : State) (d : Nat) (x : Servo) : State := s.setDom d { s.dom d with servo := x }

/-- TIME_DOMAIN_STATE of domain `d`. -/
def domState (s : State) (d : Nat) : Nat := s.reg Ix.timeDomainState (d + 1)

/-- A domain leaves the servo's output for holdover: I is frozen as the rate (R212, R214). -/
def enterHoldover (s : State) (d st : Nat) : State :=
  ((s.setServo d { s.servo d with heldI := (s.servo d).integ, lockRun := 0, missRun := 0 }).enterState d st).sendRate d

/-! ### Port states (R224, R239, R282) -/

/-- The engine's record of port `p` in domain `d`. -/
def ptp (s : State) (p d : Nat) : PtpPort := tgetD s.tm.ptp (4 * p + d) {}
def setPtp (s : State) (p d : Nat) (x : PtpPort) : State := { s with tm := { s.tm with ptp := tput {} s.tm.ptp (4 * p + d) x } }

/-- Domain `d` has a role and is enabled on port `p` (R224, R225). -/
def ptpEnabled (s : State) (p d : Nat) : Bool := s.reg Ix.timeRole (d + 1) != 0 && bit (s.reg Ix.ptpPortDomains (p + 1)) d

/-- State of port `p` in domain `d`: byte d of PTP_PORT_STATE. -/
def ptpState (s : State) (p d : Nat) : Nat := s.reg Ix.ptpPortState (p + 1) / 256 ^ d % 256
def setPtpState (s : State) (p d v : Nat) : State :=
  let old := s.reg Ix.ptpPortState (p + 1)
  s.setReg Ix.ptpPortState (p + 1) (old - (old / 256 ^ d % 256) * 256 ^ d + v * 256 ^ d)

/-- The domain's profile is gPTP (R224). -/
def isGptp (s : State) (d : Nat) : Bool := s.reg Ix.timeProfile (d + 1) == 0

/-- The device's own clock as an Announce carries it: priority 1, class, accuracy, variance, priority 2, identity and steps
removed. A domain out of quorum announces class 248 (R288). -/
def ownClock (s : State) (d : Nat) : List Byte :=
  let cls := if s.domState d = 4 then 248 else s.reg Ix.timeClockClass (d + 1)
  [BitVec.ofNat 8 (s.reg Ix.timePriority1 (d + 1)), BitVec.ofNat 8 cls, BitVec.ofNat 8 (s.reg Ix.timeClockAccuracy (d + 1)),
    Config.timeByte 8, Config.timeByte 9, BitVec.ofNat 8 (s.reg Ix.timePriority2 (d + 1))] ++ clockIdentity ++ [0#8, 0#8]

/-- The device's own clock among those heard. -/
def ownHeard (s : State) (d : Nat) : Heard := ⟨s.ownClock d, clockIdentity ++ [0#8, 0#8], 0⟩

/-- The clock port `p` hears in domain `d`. -/
def heardAt (s : State) (p d : Nat) : Option Heard :=
  let x := s.ptp p d
  if x.announceSeen then some ⟨x.best, x.sender, p⟩ else none

/-- Clock `a` goes before clock `b` in domain `d`. -/
def goesBefore (s : State) (d : Nat) (a b : Heard) : Bool :=
  if s.isGptp d then decide (a.priority < b.priority) else a.stands b != .no

/-- Ports domain `d` is enabled on, and the ports that show a state of it. -/
def ptpPorts (s : State) (d : Nat) : List Nat :=
  ((s.dict.filter fun e => e.1 / 65536 == Ix.ptpPortDomains).map fun e => e.1 % 65536 - 1).filter fun p =>
    s.portPresent p && s.ptpEnabled p d
def statePorts (s : State) (d : Nat) : List Nat :=
  ((s.dict.filter fun e => e.1 / 65536 == Ix.ptpPortState).map fun e => e.1 % 65536 - 1).filter fun p => s.ptpState p d != 0

/-- The port domain `d` is a slave on. -/
def slavePort (s : State) (d : Nat) : Option Nat := (s.statePorts d).find? fun p => s.ptpState p d == 3

/-- The best clock heard in domain `d`. -/
def bestHeard (s : State) (d : Nat) : Option Heard :=
  (s.ptpPorts d).foldl (fun b p =>
    match s.heardAt p d, b with
    | some h, some v => if s.goesBefore d h v then some h else b
    | some h, none => some h
    | none, _ => b) none

/-- The state of a port under IEEE 802.1AS: slave towards the best clock; passive where what it hears comes before what it
would send; else master. -/
def chooseGptp (s : State) (d p : Nat) : Nat :=
  let own := s.ownHeard d
  let root := match s.bestHeard d with
    | some q => if s.goesBefore d own q.onward then own else q.onward
    | none => own
  if root.vec ≠ own.vec ∧ root.port = p then 3
  else
    match s.heardAt p d with
    | some h => if s.goesBefore d { root with sender := portIdentity p, port := p } h then 2 else 4
    | none => 2

/-- The state of a port under IEEE 1588: a clock of class 1 to 127 never follows, and is passive where it hears a better one;
any other follows the best clock, and is passive where the best comes before what the port hears by topology alone. -/
def choose1588 (s : State) (d p : Nat) : Nat :=
  let own := s.ownHeard d
  let cls := s.reg Ix.timeClockClass (d + 1)
  if 1 ≤ cls ∧ cls ≤ 127 then
    match s.heardAt p d with
    | some h => if own.stands h = .no then 4 else 2
    | none => 2
  else
    match s.bestHeard d with
    | none => 2
    | some q =>
      if own.stands q ≠ .no then 2
      else if q.port = p then 3
      else
        match s.heardAt p d with
        | some h => if q.stands h = .topology then 4 else 2
        | none => 2

/-- The state of port `p` in domain `d` (R224, R239): disabled; faulty while the port is down (DESIGN CHOICE,
notes/assumptions/54.md); master in a grandmaster domain; listening until a clock is heard or the wait for one ends; else as
the profile's algorithm decides (R282). -/
def choosePort (s : State) (d p : Nat) : Nat :=
  if s.ptpEnabled p d = false then 0
  else if s.portUp p = false then 5
  else if s.reg Ix.timeRole (d + 1) = 2 then 2
  else if (s.ptp p d).announceSeen = false ∧ (s.ptpState p d < 2 ∨ s.ptpState p d = 5) then 1
  else if s.isGptp d then s.chooseGptp d p
  else s.choose1588 d p

/-- What a port has heard is forgotten where the domain has left it or it is down. -/
def forgetPort (s : State) (d p : Nat) : State :=
  if s.ptpEnabled p d = false then s.setPtp p d {}
  else if s.portUp p = false then s.setPtp p d { s.ptp p d with announceSeen := false, best := [], sender := [] }
  else s

/-- Port `p` takes a state; the wait for an Announce begins when it begins to listen (R282). -/
def takePortState (s : State) (d p v : Nat) : State :=
  let s1 := if v = 1 ∧ s.ptpState p d ≠ 1 then s.setPtp p d { s.ptp p d with lastAnnounce := s.rawTotal } else s
  s1.setPtpState p d v

/-- The port states of domain `d` are decided afresh; while it is PARTITIONED they are frozen, but for a port the domain has
left (R288). A domain whose servo follows the time protocol and that has lost its slave port has lost its source (R212). -/
def decidePorts (s : State) (d : Nat) : State :=
  let ps := (s.ptpPorts d ++ s.statePorts d).eraseDups
  if s.domState d = 4 then
    (ps.filter fun p => s.ptpEnabled p d = false).foldl (fun t p => (t.forgetPort d p).setPtpState p d 0) s
  else
    let s1 := ps.foldl (fun t p => t.forgetPort d p) s
    let s2 := ps.foldl (fun t p => t.takePortState d p (s1.choosePort d p)) s1
    if (s.slavePort d).isSome && (s2.slavePort d).isNone && s.reg Ix.servoSource (d + 1) == 1 &&
        (s.domState d == 1 || s.domState d == 2) then s2.enterHoldover d 3
    else s2

/-- Every domain decides its port states. -/
def decideAll (s : State) : State := (List.range 4).foldl decidePorts s

end State
end Sys2Proof.Machine
end

