-- ==== Sys2Proof/Machine/Ports.lean ====
section
/-! DEFINITION. Ports: up and down, the hold limit, uncorrectable cells, and the frames at the receive MACs
(R36, R53, R57, R58, R62 to R64). -/

namespace Sys2Proof.Machine

namespace State

/-! ### Ports of rings (R241, R272) -/

/-- Ports a master ring, and a pair, use. -/
def ringPorts (s : State) (m : Nat) : List Nat :=
  s.reg Ix.henayOutPort (m + 1) ::
    (if s.reg Ix.henayTopology (m + 1) = 0 then [s.reg Ix.henayInPort (m + 1)]
     else if s.reg Ix.henayInPort (m + 1) = 0xFFFF then [] else [s.reg Ix.henayInPort (m + 1)])
def pairPorts (s : State) (k : Nat) : List Nat :=
  s.reg Ix.henayPtPortA (k + 1) ::
    (if s.reg Ix.henayPtPortB (k + 1) = 0xFFFF then [] else [s.reg Ix.henayPtPortB (k + 1)])

/-- The watch pair of ring `m`, if it names one (R272). -/
def watchPair (s : State) (m : Nat) : Option Nat :=
  let k := s.reg Ix.henayWatchPair (m + 1)
  if k < 256 then some k else none

/-- Port `p` is used by an enabled ring other than `m`, or an enabled pair other than `k`; a ring and its watch pair count as
one user (R241, R272). -/
def portTaken (s : State) (m k : Option Nat) (p : Nat) : Bool :=
  (List.range 16).any (fun r => m != some r && s.regB Ix.henayRingEnable (r + 1) && (s.ringPorts r).contains p &&
      (match k with | some x => s.watchPair r != some x | none => true)) ||
    (List.range 256).any (fun x => k != some x && s.regB Ix.henayPtEnable (x + 1) && (s.pairPorts x).contains p &&
      (match m with | some r => s.watchPair r != some x | none => true))

/-- Port `p` belongs to an enabled master ring or pair, so neither direction of its lanes sleeps (R241). -/
def ringPort (s : State) (p : Nat) : Bool := s.portTaken none none p

/-- A frame that port `p` receives is a cycle frame of the ring or pair that uses the port (R242). -/
def isCycleFrame (s : State) (p : Nat) (w : List Byte) : Bool :=
  match cycleHead (s.reg Ix.henayEthertype 0) w with
  | some h =>
    (List.range 16).any (fun m => s.regB Ix.henayRingEnable (m + 1) && (s.ringPorts m).contains p &&
        s.reg Ix.henayRingId (m + 1) == h.ring) ||
      (List.range 256).any fun k => s.regB Ix.henayPtEnable (k + 1) && (s.pairPorts k).contains p &&
        s.reg Ix.henayPtRingId (k + 1) == h.ring
  | none => false

/-! ### The hold limit (R62 to R64) -/

/-- Raw time the hold timer has run; it does not advance while a retaining reset runs (R195). -/
def holdElapsed (s : State) (p : Nat) : Nat :=
  let x := s.holdTimer p
  x.elapsed + if x.running && !s.sy.retaining then s.since x.started else 0

/-- The limit has been reached. -/
def holdReached (s : State) (p : Nat) : Bool :=
  (s.holdTimer p).running && decide (ns (s.reg Ix.portHoldLimit (p + 1) * 1000) ≤ s.holdElapsed p)

/-- Every copy that waits in shared queue `q` is released. -/
def releaseQueue (s : State) (q : Nat) : State :=
  if s.shared q then
    (s.queue q).foldl (fun t c =>
      let t1 := (t.setQueue q ((t.queue q).filter fun d => d.seq != c.seq)).noteRelease q c.seq
      (if c.index = 0 then t1.completeSurvey c.pkt 6 else t1).reap c.pkt) s
  else s

/-- The hold limit of port `p` expires (R63). -/
def expireHold (s : State) (p : Nat) : State :=
  let x := s.holdTimer p
  (List.range 8).foldl (fun t c => t.releaseQueue (8 * p + c))
    (s.setHoldTimer p { x with expired := true, running := false, elapsed := s.holdElapsed p })

/-- The port goes down: its hold timer starts, and pre-emption is verified afresh (R46, R62). -/
def portDown (s : State) (p : Nat) : State :=
  let x := s.holdTimer p
  let s1 := if x.running ∨ x.expired then s else s.setHoldTimer p { x with running := true, started := s.rawTotal, elapsed := 0 }
  let pm := tgetD s1.fr.pmac p {}
  let s2 := { s1 with fr := { s1.fr with pmac := tput {} s1.fr.pmac p { pm with attempts := 0 } } }
  if s2.reg Ix.pmacVerifyStatus (p + 1) = 0 then s2 else s2.setReg Ix.pmacVerifyStatus (p + 1) 1

/-- The port comes up: transmission resumes, each queue that released copies logs the last sequence and the number, and the
fault of the port and of its lanes ends (R62, R63, R192). -/
def portComesUp (s : State) (p : Nat) : State :=
  let x := s.holdTimer p
  let s1 := x.released.foldl (fun t e => t.event Ix.queueReleasedCount 1 48 [(2, e.1), (6, e.2.1), (8, e.2.2)]) s
  ((s.portLanes p).map partLane ++ [partPort p]).foldl partRecovers (s1.setHoldTimer p {})

/-- What a change of lanes, mode or island state makes of the ports `ps`: `before` is the state it left. A port that has not
been up since the start has not gone down, and no hold timer of its runs (DESIGN CHOICE, notes/assumptions/50.md). -/
def settlePorts (s before : State) (ps : List Nat) : State :=
  let s1 := ps.foldl (fun t p =>
    if before.portUp p && not (s.portUp p) then t.portDown p
    else if not (before.portUp p) && s.portUp p then t.portComesUp p
    else t) s
  if ps.all fun p => before.portUp p == s.portUp p then s1 else s1.decideAll

/-- The ports of sector `k`. -/
def sectorPorts (k : Nat) : List Nat := (List.range 32).map (32 * k + ·)

/-- Pre-emption is active on port `p` (R137). -/
def preemptActive (s : State) (p : Nat) : Bool :=
  s.regB Ix.pmacEnable (p + 1) && (s.reg Ix.pmacVerifyStatus (p + 1) == 3 || s.regB Ix.pmacVerifyDisable (p + 1))

/-! ### Uncorrectable cells (R53) -/

def cellMark (s : State) (c : Nat) : CellMark := tgetD s.fr.cells c {}
def setCellMark (s : State) (c : Nat) (m : CellMark) : State := { s with fr := { s.fr with cells := tput {} s.fr.cells c m } }

/-- Position of cell `c` in a frame. -/
def cellIndex (p : Packet) (c : Nat) : Nat := p.cells.idxOf c

/-- One affected copy is logged, and the guarantee is left with cause bit 1 (R53, R198). -/
def logBadCell (s : State) (c q seq : Nat) : State :=
  (s.leaveGuarantee 1).event Ix.bufferUncorrectableCount 3 48 [(4, c), (2, q), (6, seq)]

/-- Every copy of handle `h` that waits in a queue and has not been logged is logged (R53). -/
def logQueued (s : State) (h c : Nat) : State :=
  let mine (d : QCopy) : Bool := d.pkt == h && !d.lossLogged
  let s1 := s.fr.queues.foldl (fun t e => (e.2.filter mine).foldl (fun u d => u.logBadCell c e.1 d.seq) t) s
  { s1 with
    fr := { s1.fr with
      queues := s1.fr.queues.map fun e => (e.1, e.2.map fun d => if d.pkt = h then { d with lossLogged := true } else d) } }

/-- Where byte `o` of the stored frame stands in a copy as it is sent: its window may have changed its length. -/
def sentAt (t : TxCopy) (o : Nat) : Nat := if o < 256 then min o t.bytes.length else t.bytes.length + (o - 256)

/-- Bytes of a copy's frame that have been read: those sent, or those whose delivery to the host has begun. -/
def bytesRead (s : State) (key : Nat) (t : TxCopy) : Nat :=
  if t.queue < 4096 then s.bytesSent key t
  else
    match (s.channel t.copy.chan).units.find? fun u => (u.copy.map QCopy.seq) == some t.copy.seq && u.kind == 1 with
    | some u =>
      match u.todo with
      | .deliver off _ :: _ => off
      | _ => u.data.length
    | none => 0

/-- A read of codeword `word` of cell `c` fails to decode (R53): counted once; the cell is bad until it is freed; every copy
that has not finished reading the cell is logged, once, and those under way are stomped where they would send the codeword,
or where they stand. A cell no frame holds is free already. -/
def cellFails (s : State) (c word : Nat) : State :=
  if (s.cellMark c).bad then s
  else
    let s1 := s.count Ix.bufferUncorrectableCount 0 1
    match s1.fr.pkts.find? fun e => e.2.cells.contains c with
    | none => s1
    | some (h, p) =>
      let i := cellIndex p c
      let s2 := s1.setCellMark c { s1.cellMark c with bad := true }
      let hit (e : Nat × TxCopy) : Bool := e.2.copy.pkt == h && decide (s2.bytesRead e.1 e.2 < sentAt e.2 (256 * (i + 1)))
      let s3 := (s2.fr.tx.filter fun e => hit e && !e.2.copy.lossLogged).foldl
        (fun t e => t.logBadCell c e.2.queue e.2.copy.seq) s2
      let cut (e : Nat × TxCopy) : Nat × TxCopy :=
        if hit e then
          let at_ := max (sentAt e.2 (256 * i + 64 * word)) (s2.bytesRead e.1 e.2)
          (e.1, { e.2 with stomp := true, cutAt := some (min at_ (e.2.cutAt.getD at_)), copy := { e.2.copy with lossLogged := true } })
        else e
      ({ s3 with fr := { s3.fr with tx := s3.fr.tx.map cut } }).logQueued h c

/-- What the buffer's decoder makes of a codeword (R51). -/
inductive Decoded where
  | clean | corrected | uncorrectable | miscorrected
  deriving DecidableEq, Repr

/-- A codeword with `errors` of its 72 bytes in error is decoded under the code in force (R51, R52). Beyond what the code
corrects and detects it is either found uncorrectable or miscorrected, which the spec leaves open: a free choice. -/
def decodeWord (s : State) (errors : Nat) : Decoded :=
  let t := if s.fr.eccInForce = 1 then 3 else 4
  if errors = 0 then .clean
  else if errors ≤ t then .corrected
  else if s.fr.eccInForce = 1 ∧ errors ≤ 5 then .uncorrectable
  else if Config.freeNat s.draws % 2 = 0 then .uncorrectable else .miscorrected

/-- A miscorrected codeword gives 64 bytes of no certain value in place of those stored (R51): free values. -/
def miscorrect (s : State) (c word : Nat) : State :=
  match s.fr.pkts.find? fun e => e.2.cells.contains c with
  | none => { s with draws := s.draws + 65 }
  | some (h, p) =>
    let at_ := 256 * cellIndex p c + 64 * word
    let junk := (List.range (min 64 (p.bytes.length - at_))).map fun i => Config.freeByte (s.draws + 1 + i)
    { s.setPkt h { p with bytes := patch p.bytes at_ junk } with draws := s.draws + 65 }

/-- A codeword is read (R51, R53): a corrected one is counted, an uncorrectable one fails its cell. `kept`: what the decoder
gives takes the place of what was stored. -/
def readWord (s : State) (f : CellFinding) (kept : Bool) : State :=
  if cellCount ≤ f.cell ∨ 4 ≤ f.word then s
  else
    match s.decodeWord f.errors with
    | .clean => s
    | .corrected => s.count Ix.bufferCorrectedCount 0 1
    | .uncorrectable => { s.cellFails f.cell f.word with draws := s.draws + 1 }
    | .miscorrected =>
      let s1 := s.count Ix.bufferCorrectedCount 0 1
      if kept then s1.miscorrect f.cell f.word else { s1 with draws := s.draws + 1 }

/-- The decoder takes the codeword of `f` for one it has corrected. -/
def looksCorrected (s : State) (f : CellFinding) : Bool :=
  decide (f.cell < cellCount) && decide (f.word < 4) &&
    (s.decodeWord f.errors == .corrected || s.decodeWord f.errors == .miscorrected)

/-- The first cell of handle `h` that is marked bad. -/
def badCellOf (s : State) (h : Nat) : Option Nat :=
  match s.pkt? h with
  | some p => p.cells.find? fun c => (s.cellMark c).bad
  | none => none

/-- A cell of handle `h` is marked bad. -/
def hasBadCell (s : State) (h : Nat) : Bool := (s.badCellOf h).isSome

/-! ### Frames at the receive MAC -/

def rxFrame? (s : State) (key : Nat) : Option RxFrame := tget s.fr.rx key
def setRx (s : State) (key : Nat) (r : RxFrame) : State := { s with fr := { s.fr with rx := tset s.fr.rx key r } }
def dropRx (s : State) (key : Nat) : State := { s with fr := { s.fr with rx := terase s.fr.rx key } }

/-- Key of a port's express or preemptable receive MAC, and of its transmit counterpart. -/
def macKey (p : Nat) (pre : Bool) : Nat := if pre then 512 + p else p

/-- Bytes received of a frame so far. -/
def rxBytes (s : State) (r : RxFrame) : List Byte :=
  match r.pkt.bind s.pkt? with
  | some p => p.bytes
  | none => r.bytes

/-- More bytes of a frame arrive. -/
def rxAppend (s : State) (key : Nat) (r : RxFrame) (bs : List Byte) : State :=
  match r.pkt with
  | some h => s.modPkt h fun p => { p with bytes := p.bytes ++ bs }
  | none => s.setRx key { r with bytes := r.bytes ++ bs }

/-- A device timestamp of a port's lane island is marked invalid (R17, R223). -/
def tsInvalid (s : State) (p : Nat) : Bool := s.timeLost (p / 32)

end State
end Sys2Proof.Machine
end

