-- ==== Sys2Proof/Machine/Tables.lean ====
section
/-! DEFINITION. The table islands: exact-match and ternary tables, counters, meters, sequence generation and recovery
(R113 to R119, R160, R179 to R188). -/

namespace Sys2Proof.Machine
namespace State

/-! ### Exact-match tables (R113, R114) -/

def xmTable (s : State) (t : Nat) : XmTable := tgetD s.tb.xm t {}
def setXm (s : State) (t : Nat) (x : XmTable) : State := { s with tb := { s.tb with xm := tput {} s.tb.xm t x } }

/-- Key width of table `t`; 0 is unused. -/
def xmBits (s : State) (t : Nat) : Nat := s.reg Ix.xmKeyBits (t + 1)

/-- Capacity of table `t`; a table whose key width is 0 has none (R114). -/
def xmCapacity (s : State) (t : Nat) : Nat := if s.xmBits t = 0 then 0 else s.reg Ix.xmCapacity (t + 1)

/-- Key bits above the key width are ignored (R113). -/
def xmKey (s : State) (t key : Nat) : Nat := key % 2 ^ s.xmBits t

/-- The committed entry of a key. -/
def xmFind (s : State) (t key : Nat) : Option XmEntry := tget (s.xmTable t).entries (s.xmKey t key)

/-- Marks are kept while ageing is on (R114). -/
def xmMarks (s : State) (t : Nat) : Bool := s.reg Ix.xmAgeTime (t + 1) != 0

/-- A lookup hit marks its entry (R114). -/
def xmTouch (s : State) (t key : Nat) : State :=
  match s.xmFind t key with
  | some e =>
    if s.xmMarks t then
      s.setXm t { s.xmTable t with entries := tset (s.xmTable t).entries (s.xmKey t key) { e with marked := true } }
    else s
  | none => s

/-- An insert of this key succeeds: it is present, or the table has room (R114). -/
def xmFits (s : State) (t key : Nat) : Bool :=
  (s.xmFind t key).isSome || decide ((s.xmTable t).entries.length < s.xmCapacity t)

/-- The last sweep of table `t` removed the entry of a key in this very clock (R115). -/
def justAged (s : State) (t key : Nat) : Bool :=
  let x := s.xmTable t
  decide (x.swept = s.rawTotal) && x.aged.contains (s.xmKey t key)

/-- Insert or update of a key with `data` (R114); a table that is unused or full takes no new key. -/
def xmPut (s : State) (t key data : Nat) : State :=
  if s.xmBits t ≠ 0 ∧ s.xmFits t key then
    let x := s.xmTable t
    s.setXm t { x with entries := tset x.entries (s.xmKey t key) { data := data, marked := s.xmMarks t, wroteAt := s.rawTotal } }
  else s

/-- An insert or update that commits: ageing that has removed the same entry in this clock has not done so (R115). -/
def xmCommit (s : State) (t key data : Nat) : State :=
  if s.justAged t key then
    let x := s.xmTable t
    ((s.setXm t { x with aged := x.aged.filter (· != s.xmKey t key) }).setReg Ix.xmAged (t + 1)
      ((s.reg Ix.xmAged (t + 1) + 18446744073709551615) % 18446744073709551616)).xmPut t key data
  else s.xmPut t key data

/-- Delete of a key; an absent key changes nothing (R114). -/
def xmRemove (s : State) (t key : Nat) : State :=
  let x := s.xmTable t
  s.setXm t { x with entries := terase x.entries (s.xmKey t key) }

/-- One ageing sweep (R114): unmarked entries whose data bit 63 is clear go and are counted; every mark is cleared, but for
those of commits in this clock (R115). -/
def xmSweep (s : State) (t : Nat) : State :=
  let x := s.xmTable t
  let stays (e : Nat × XmEntry) : Bool := e.2.marked || bit e.2.data 63
  let gone := x.entries.filter fun e => !stays e
  let fresh (e : XmEntry) : Bool := e.marked && decide (e.wroteAt = s.rawTotal)
  let s1 := s.setXm t { x with
    entries := (x.entries.filter stays).map fun e => (e.1, { e.2 with marked := fresh e.2 })
    swept := s.rawTotal, aged := gone.map Prod.fst }
  s1.count Ix.xmAged (t + 1) gone.length

/-! ### Ternary partitions (R116) -/

/-- Physical entry `r` of partition `k`: value, mask, action data, valid. -/
def tcEntry (s : State) (k r : Nat) : Nat := s.record Ix.tcEntry 0 (s.reg Ix.tcPartFirst (k + 1) + r)

/-- The entry matches a 320-bit key: it is valid, and each key bit equals the value bit where the mask bit is 1. -/
def tcMatches (e key : Nat) : Bool :=
  let value := e % 2 ^ 320
  let mask := e / 2 ^ 320 % 2 ^ 320
  bit e 704 && ((key ^^^ value) &&& mask) == 0

/-- Action data of the lowest-numbered matching entry of partition `k`. -/
def tcLookup (s : State) (k key : Nat) : Option Nat :=
  let first := s.reg Ix.tcPartFirst (k + 1)
  let size := s.reg Ix.tcPartSize (k + 1)
  let base := recKey Ix.tcEntry 0 first
  ((s.tabs.filter fun e => decide (base ≤ e.1) && decide (e.1 < base + size)).find? fun e => tcMatches e.2 key).map
    fun e => e.2 / 2 ^ 640 % 2 ^ 64

/-! ### Counters (R118) -/

/-- Counters that belong to programs. -/
def counterLimit : Nat := 4063232

def counter (s : State) (i : Nat) : Nat := s.record Ix.counter 0 i
def addCounter (s : State) (i n : Nat) : State := s.setRecord Ix.counter 0 i (wrapAdd 64 (s.counter i) n)

/-! ### Meters (R160, R161) -/

/-- Units of a level per byte: 1 kbit/s brings one unit per ru. -/
def levelUnit : Nat := 524288000000

def meter (s : State) (m : Nat) : Meter := tgetD s.tb.meters m {}
def setMeter (s : State) (m : Nat) (x : Meter) : State := { s with tb := { s.tb with meters := tput {} s.tb.meters m x } }

/-- Field of `n` bytes at byte `i` of meter record `m`. -/
def meterField (s : State) (m i n : Nat) : Nat := s.recField Ix.meter 0 m i n

/-- The levels brought up to now (R160): Tc at CIR, its overflow to Te when coupled, Te at EIR. -/
def meterNow (s : State) (m : Nat) : Meter :=
  let x := s.meter m
  let dt := s.rawTotal - x.upTo
  let cbs := s.meterField m 4 4 * levelUnit
  let ebs := s.meterField m 12 4 * levelUnit
  let tc := x.tc + s.meterField m 0 4 * dt
  let spill := if bit (s.meterField m 16 1) 1 then tc - cbs else 0
  ⟨min tc cbs, min (x.te + spill + s.meterField m 8 4 * dt) ebs, s.rawTotal⟩

/-- A charge of `len` bytes with the tag's DEI: the new state and the colour, 0 green, 1 yellow, 2 red (R160). -/
def chargeMeter (s : State) (m : Nat) (len : Int) (dei : Bool) : State × Nat :=
  let flags := s.meterField m 16 1
  if bit flags 5 = false then (s, 0)
  else
    let x := s.meterNow m
    let need := (len * (levelUnit : Int)).toNat
    let r : Meter × Nat :=
      if bit flags 3 then (x, 2)
      else if bit flags 0 && dei then (if need ≤ x.te then ({ x with te := x.te - need }, 1) else (x, 2))
      else if need ≤ x.tc then ({ x with tc := x.tc - need }, 0)
      else if need ≤ x.te then ({ x with te := x.te - need }, 1)
      else (x, 2)
    let s1 := s.setMeter m r.1
    let s2 := if r.2 = 2 ∧ bit flags 2 then s1.setRecField Ix.meter 0 m 16 1 (setBit flags 3) else s1
    (s2, r.2)

/-- A deciding charge is returned to the level it was taken from, cut to CBS or EBS (R92, R160). -/
def refundMeter (s : State) (c : Charge) : State :=
  let x := s.meterNow c.meter
  let cbs := s.meterField c.meter 4 4 * levelUnit
  let ebs := s.meterField c.meter 12 4 * levelUnit
  if c.colour = 0 then s.setMeter c.meter { x with tc := min (x.tc + c.amount) cbs }
  else if c.colour = 1 then s.setMeter c.meter { x with te := min (x.te + c.amount) ebs }
  else s

/-- V of R151 for a meter: the overhead of the ingress port, 0 for a host frame. -/
def meterOverhead (s : State) (src : Nat) : Int := if src < 512 then s.regI Ix.portLengthOverhead (src + 1) 1 else 0

/-! ### Sequence generation (R179, R180) -/

/-- The next number of generation function `f`, drawn: the function then increments it and counts the draw. -/
def drawNumber (s : State) (f : Nat) : State × Nat :=
  let n := s.recField Ix.seqGen 0 f 0 2
  ((s.setRecField Ix.seqGen 0 f 0 2 ((n + 1) % 65536)).countRec Ix.seqGen 0 f 8 1, n)

/-! ### Sequence recovery (R183 to R188) -/

/-- Byte offsets of RECOVERY_COUNTS (R199). -/
def rcPassed : Nat := 0
def rcDiscarded : Nat := 8
def rcOutOfOrder : Nat := 16
def rcRogue : Nat := 24
def rcLost : Nat := 32
def rcTagless : Nat := 40
def rcResets : Nat := 48
def rcLatent : Nat := 56

def recovery (s : State) (f : Nat) : Recovery := tgetD s.tb.recovery f {}
def setRecovery (s : State) (f : Nat) (x : Recovery) : State :=
  { s with tb := { s.tb with recovery := tput {} s.tb.recovery f x } }
def recoverField (s : State) (f i n : Nat) : Nat := s.recField Ix.recoveryFunc 0 f i n
def setRecoverField (s : State) (f i n v : Nat) : State := s.setRecField Ix.recoveryFunc 0 f i n v
def countRecovery (s : State) (f i n : Nat) : State := s.countRec Ix.recoveryCounts 0 f i n

/-- D moves by `delta` and saturates, while latent detection is on (R188). -/
def moveLatent (s : State) (f : Nat) (delta : Int) : State :=
  if bit (s.recoverField f 0 1) 2 then
    let d := clampInt (-2147483648) 2147483647 (toSigned 32 (s.recoverField f 28 4) + delta)
    s.setRecoverField f 28 4 (ofSigned 32 d)
  else s

/-- A pass: counted, the reset timer restarted, D moved by paths − 1 (R183, R185, R188). -/
def recoverPass (s : State) (f : Nat) : State :=
  let s1 := s.countRecovery f rcPassed 1
  let s2 := s1.setRecovery f { s1.recovery f with timerRunning := s.recoverField f 4 2 != 0, lastPass := s.rawTotal }
  s2.moveLatent f ((s.recoverField f 2 1 : Int) - 1)

/-- Zeros of `hist` at positions lo to lo + n − 1. -/
def zerosIn (hist lo : Nat) : Nat → Nat
  | 0 => 0
  | n + 1 => (if bit hist (lo + n) then 0 else 1) + zerosIn hist lo n

/-- The vector algorithm (R183): the new state and whether the frame passes. -/
def judgeVector (s : State) (f num : Nat) : State × Bool :=
  let h := s.recoverField f 1 1
  let last := s.recoverField f 16 2
  let hist := s.recoverField f 20 8
  if bit (s.recoverField f 18 1) 0 then
    let s1 := ((s.setRecoverField f 18 1 0).setRecoverField f 16 2 num).setRecoverField f 20 8 (2 ^ 64 - 1)
    (s1.recoverPass f, true)
  else
    let d := toSigned 16 (ofSigned 16 ((num : Int) - last))
    if (h : Int) ≤ d ∨ d ≤ -(h : Int) then (s.countRecovery f rcRogue 1, false)
    else if d ≤ 0 then
      if bit hist (-d).toNat then ((s.countRecovery f rcDiscarded 1).moveLatent f (-1), false)
      else (((s.setRecoverField f 20 8 (setBit hist (-d).toNat)).countRecovery f rcOutOfOrder 1).recoverPass f, true)
    else
      let n := d.toNat
      let s1 := s.countRecovery f rcLost (zerosIn hist (h - n) n)
      let s2 := (s1.setRecoverField f 20 8 (setBit (hist * 2 ^ n % 2 ^ 64) 0)).setRecoverField f 16 2 num
      let s3 := if n = 1 then s2 else s2.countRecovery f rcOutOfOrder 1
      (s3.recoverPass f, true)

/-- The match algorithm (R184). -/
def judgeMatch (s : State) (f num : Nat) : State × Bool :=
  let last := s.recoverField f 16 2
  if bit (s.recoverField f 18 1) 0 then
    (((s.setRecoverField f 18 1 0).setRecoverField f 16 2 num).recoverPass f, true)
  else if num = last then ((s.countRecovery f rcDiscarded 1).moveLatent f (-1), false)
  else
    let s1 := if num = (last + 1) % 65536 then s else s.countRecovery f rcOutOfOrder 1
    ((s1.setRecoverField f 16 2 num).recoverPass f, true)

/-- A recovery function judges a frame by its R-TAG number, if it has one (R183 to R187, R189). -/
def judgeRecovery (s : State) (f : Nat) (num : Option Nat) : State × Bool :=
  let mode := s.recoverField f 0 1
  if bit mode 7 = false then (s, true)
  else
    match num with
    | none => (s.countRecovery f rcTagless 1, true)
    | some n => if bit mode 0 then s.judgeMatch f n else s.judgeVector f n

/-- The reset of R185, without its count: take_any, history and number cleared, timer stopped. -/
def clearRecovery (s : State) (f : Nat) : State :=
  let s1 := ((s.setRecoverField f 18 1 1).setRecoverField f 20 8 0).setRecoverField f 16 2 0
  s1.setRecovery f { s1.recovery f with timerRunning := false }

/-! ### Effects at commit (R89, R110) -/

/-- One effect of a committing packet; meters that decided, recovery and copies took effect at retire. -/
def applyEffect (p : Packet) (s : State) : Effect → State
  | .xmInsert t key data =>
    if s.xmBits t = 0 ∨ s.xmFits t key = false then s.count Ix.xmInsertFail (t + 1) 1 else s.xmCommit t key data
  | .xmDelete t key => s.xmRemove t key
  | .cntAdd i n => s.addCounter i n
  | .cntFrame i => (s.addCounter i 1).addCounter (i + 1) p.editedLen
  | .meter m mode =>
    if mode = 0 then (s.chargeMeter m (p.editedLen + s.meterOverhead p.src) p.editedDei).1 else s
  | .replicate => s
  | .recover _ _ => s
  | .postcard _ => s
  | .inBand _ => s

end State
end Sys2Proof.Machine
end

