-- ==== Sys2Proof/Machine/Keeper.lean ====
section
/-! DEFINITION. Acceptance and failure of frames, and the keepers: enqueue, retire with its decisions, and commit
(R44, R49, R58 to R60, R63, R86 to R92, R155 to R160, R179 to R182, R311, R312). -/

namespace Sys2Proof.Machine
namespace State

def keeper (s : State) (k : Nat) : Keeper := tgetD s.fr.keepers k {}
def setKeeper (s : State) (k : Nat) (x : Keeper) : State := { s with fr := { s.fr with keepers := tput {} s.fr.keepers k x } }
def orderDomain (s : State) (d : Nat) : OrderDomain := tgetD s.fr.orderDomains d {}
def setOrderDomain (s : State) (d : Nat) (x : OrderDomain) : State :=
  { s with fr := { s.fr with orderDomains := tput {} s.fr.orderDomains d x } }

/-- Handles of keeper `k`, with their numbers. -/
def keeperPkts (s : State) (k : Nat) : List (Nat × Packet) := s.fr.pkts.filter fun e => e.2.home == k

/-- KEEPER_OUTSTANDING of keeper `k` (R74). -/
def outstandingOf (s : State) (k : Nat) : Nat := ((s.keeperPkts k).filter fun e => e.2.outstanding).length

/-- Outstanding handles of an order domain. -/
def outstandingIn (s : State) (d : Nat) : Nat := (s.fr.pkts.filter fun e => e.2.domain == d && e.2.outstanding).length

/-! ### Acceptance and failure (R49, R50, R58, R90, R92) -/

/-- A frame is accepted: its reservation shrinks to the cells used (R57, R58), which for a host frame, whose FCS is not stored,
are those of its bytes without it (DESIGN CHOICE, notes/assumptions/50.md). A host frame without a timestamp request
finishes its unit (R309). -/
def acceptFrame (s : State) (h : Nat) : State :=
  match s.pkt? h with
  | none => s
  | some p =>
    let n := ceilDiv p.bytes.length 256
    let s1 := s.setPkt h { p with
      accepted := true, acceptedAt := s.raw, ended := true, windowDone := true, len := p.len,
      cells := p.cells.take n, reserved := min p.reserved n, ts := if p.src < 512 then p.ts else s.raw }
    let s2 := if 512 ≤ p.src ∧ p.chan < 4096 ∧ p.tsWanted = false then s1.finishFrameUnit p.chan h else s1
    let s3 := match s2.fr.tx.find? fun e => e.2.copy.pkt == h && e.2.copy.index == 0 with
      | some e => s2.completeSurveyAt h 0 e.2.ts
      | none => s2
    s3.reap h

/-- Every deciding charge of a failed frame is refunded and counted (R92, R160). -/
def refundAll (s : State) (p : Packet) : State :=
  p.charges.foldl (fun t c => (t.refundMeter c).count Ix.meterRefundCount (p.home + 1) 1) s

/-- A frame fails after its handle was created (R49, R90): only the cells it has stored stay with it. Unretired, it will retire
void, and what its copies had been admitted to is given back; retired, copies in transmission are stomped, queued copies
removed, charges refunded. -/
def failFrame (s : State) (h : Nat) : State :=
  match s.pkt? h with
  | none => s
  | some p =>
    let s1 := s.setPkt h { p with
      failed := true, failedAt := s.raw, ended := true, windowDone := true, reserved := 0, returned := true
      cells := p.cells.take p.storedCells, toEnqueue := [], admitted := [] }
    if p.stage = .retired then
      let sending := s1.fr.tx.any fun e => e.2.copy.pkt == h && e.2.copy.index == 0
      let s2 := ((s1.removeQueued h).stompSending h).count Ix.keeperVoidRetires (p.home + 1) 1
      let s3 := (s2.refundAll p).completeSurvey h (if sending then 5 else 4)
      (s3.modPkt h fun q => { q with charges := [] }).reap h
    else s1.reap h

/-! ### Decisions at retire (R119, R156, R181) -/

/-- The counts of STREAM_FILTER_COUNTS, by field. -/
def cntMatching : Nat := 0
def cntPassSdu : Nat := 1
def cntFailSdu : Nat := 2
def cntPassGate : Nat := 3
def cntFailGate : Nat := 4
def cntRed : Nat := 5

/-- What the decisions have made of a packet so far: its copies, and the survey outcome where they were removed. -/
structure Decision where
  copies : List CopySpec
  outcome : Option Nat
  dei : Bool
  charges : List Charge
  counts : List (Nat × Nat)
  deriving DecidableEq, Repr

/-- The stream filter judges a frame (R156 to R159). -/
def judgeFilter (s : State) (p : Packet) (f : Nat) (d : Decision) : State × Decision :=
  let len := if p.src < 512 then p.len else p.bytes.length + 4
  let rec_ := s.record Ix.streamFilter 0 f
  let field (i n : Nat) : Nat := rec_ / 256 ^ i % 256 ^ n
  if s.sectors ≤ f / 4096 ∨ bit (field 8 1) 0 = false then (s, d)
  else
    let add (d : Decision) (c : Nat) : Decision := { d with counts := d.counts ++ [(f, c)] }
    let drop (d : Decision) : Decision := { d with copies := [], outcome := if d.copies = [] then d.outcome else some 8 }
    let d1 := add d cntMatching
    if bit (field 8 1) 2 ∨ (field 0 2 ≠ 0 ∧ field 0 2 < len) then
      let s1 := if bit (field 8 1) 1 then s.setRecField Ix.streamFilter 0 f 8 1 (setBit (field 8 1) 2) else s
      (s1, drop (add d1 cntFailSdu))
    else
      let d2 := add d1 cntPassSdu
      let gate := field 2 2
      let g : State × Bool × Option Nat := if gate = 0xFFFF then (s, true, none) else s.judgeStreamGate gate len p.ts
      if g.2.1 = false then (g.1, drop (add d2 cntFailGate))
      else
        let d3 := if gate = 0xFFFF then d2 else add d2 cntPassGate
        let m := field 4 4
        let r : State × Nat := if m = 0xFFFFFFFF then (g.1, 0)
          else g.1.chargeMeter m (p.editedLen + g.1.meterOverhead p.src) p.editedDei
        if r.2 = 2 ∧ m ≠ 0xFFFFFFFF then (r.1, drop (add d3 cntRed))
        else if r.2 = 1 ∧ bit (r.1.meterField m 16 1) 4 then (r.1, drop d3)
        else
          let d4 := if r.2 = 1 then { d3 with dei := true } else d3
          match g.2.2 with
          | some ipv => (r.1, { d4 with copies := d4.copies.map fun c => { c with queue := c.queue / 8 * 8 + ipv } })
          | none => (r.1, d4)

/-- A `rcv` is judged unless the filter or an earlier `rcv` has removed every copy (R178, R181, R187). -/
def judgeEffect (a : State × Decision) : Effect → State × Decision
  | .recover f num =>
    if a.2.outcome.isSome then a
    else
      let r := a.1.judgeRecovery f num
      (r.1, if r.2 then a.2 else { a.2 with copies := [], outcome := some 7 })
  | _ => a

/-- A deciding meter: charged even where nothing is left to decide (R119). -/
def judgeMeter (p : Packet) (a : State × Decision) : Effect → State × Decision
  | .meter m mode =>
    if mode = 0 then a
    else
      let len : Int := p.editedLen + a.1.meterOverhead p.src
      let r := a.1.chargeMeter m len p.editedDei
      let enabled := bit (a.1.meterField m 16 1) 5
      let c : Charge := ⟨m, if enabled then (len * (levelUnit : Int)).toNat else 0, r.2⟩
      let d := { a.2 with charges := a.2.charges ++ [c] }
      if a.2.copies = [] then (r.1, d)
      else if r.2 = 2 ∨ (r.2 = 1 ∧ mode = 3) then (r.1, { d with copies := [], outcome := some 8 })
      else if r.2 = 1 ∧ mode = 2 then (r.1, { d with dei := true })
      else (r.1, d)
  | _ => a

/-- The decisions of a packet when its turn comes, in the order of R181: what is left are its copies, which are to be admitted
one by one, and the function its number is drawn from when it retires, if a copy is left to it (R179). A judgement is made
here once, and the packet's stage records that it has been (R182). -/
def decide_ (s : State) (h : Nat) (p : Packet) : State :=
  match p.result with
  | none => s
  | some r =>
    let d0 : Decision := ⟨r.copies, none, p.dei, [], []⟩
    let a1 : State × Decision := if bit r.police 31 then s.judgeFilter p (r.police % 65536) d0 else (s, d0)
    let a2 := r.effects.foldl judgeEffect a1
    let a3 := r.effects.foldl (judgeMeter p) a2
    let left := a3.2.copies
    a3.1.setPkt h { p with
      decided := true, drawFrom := if left = [] then none else r.splitFn, dei := a3.2.dei, charges := a3.2.charges,
      filterCounts := a3.2.counts, toEnqueue := (List.range left.length).zip left, stage := .enqueuing,
      decidedCopies := r.copies.length, result := some { r with outcome := a3.2.outcome.getD r.outcome } }

/-! ### Admission and retirement (R44, R59, R63, R86 to R88, R179, R312) -/

/-- Copies are offered to their queues one by one in list order: one that R44 or R312 removes is counted, one that its queue
admits holds its room there, and the first that is not admitted leaves the rest waiting (R59, R86). -/
def admitAll (s : State) (h : Nat) : List (Nat × CopySpec) → State × List (Nat × CopySpec)
  | [] => (s, [])
  | (i, c) :: rest =>
    match s.pkt? h with
    | none => (s, [])
    | some p =>
      match s.enqueueDrop p c with
      | some x => (s.count x.1 x.2 1).admitAll h rest
      | none =>
        if s.admits c.queue p.cells.length (p.guarded && !p.returned) then
          (s.modPkt h fun q => { q with admitted := q.admitted ++ [(i, c)] }).admitAll h rest
        else (s, (i, c) :: rest)

/-- The present retire number of keeper `k` (R87). -/
def retireNext (s : State) (k : Nat) : Nat := s.reg Ix.keeperRetireNumber (k + 1)

/-- The packet takes its keeper's next retire number (R87). -/
def takeRetireNumber (s : State) (h : Nat) (p : Packet) : State × Nat :=
  let n := s.retireNext p.home
  ((s.setReg Ix.keeperRetireNumber (p.home + 1) (n + 1)).modPkt h fun q =>
    { q with retireNo := some n, retiredAt := s.raw, admitted := [], toEnqueue := [] }, n)

/-- A packet that retires with a copy and has executed `spl` draws the next number into its R-TAG (R120, R179). -/
def drawFor (s : State) (h : Nat) (p : Packet) : State :=
  match p.drawFrom, p.result with
  | some f, some r =>
    let x := s.drawNumber f
    let w := if hasRtag p.rtag r.window then patch r.window (afterTags r.window + 4) (beBytes 2 x.2) else r.window
    x.1.modPkt h fun q => { q with drawn := some x.2, result := some { r with window := w } }
  | _, _ => s

/-- (retire, index) lies at or below the recorded pair (R87). -/
def enqueuedBefore (kp : Keeper) (n i : Nat) : Bool :=
  match kp.lastEnq with
  | some (m, j) => decide (n < m) || (n == m && decide (i ≤ j))
  | none => false

/-- Copy `i` of handle `h`, which has been admitted, is enqueued under retire number `n` (R63, R87, R88). -/
def enqueueCopy (s : State) (h n i : Nat) (c : CopySpec) : State :=
  match s.pkt? h with
  | none => s
  | some p =>
    let kp := s.keeper p.home
    if enqueuedBefore kp n i then s.count Ix.enqueueDuplicateCount (p.home + 1) 1
    else
      let depth := s.queueDepth c.queue
      let sq := (s.setKeeper p.home { kp with lastEnq := some (n, i) }).takeEnqueueSeq c.queue
      let s1 := if i = 0 then sq.1.modPkt h fun q => { q with firstQueue := c.queue, firstSeq := sq.2, firstDepth := depth }
        else sq.1
      if s.releasesAtOnce c.queue then
        let s2 := s1.noteRelease c.queue sq.2
        if i = 0 then s2.completeSurvey h 6 else s2
      else
        let copy : QCopy := {
          pkt := h, index := i, spec := c, seq := sq.2, enqueued := s.rawTotal, alone := s.holdsOnly c.queue h, deferred := false,
          depth := depth, chan := if c.queue < 4096 then 0xFFFF else s.hostChannel p c.queue }
        (if c.queue < 4096 then s1.settleQueue c.queue else s1).setQueue c.queue (s1.queue c.queue ++ [copy])

/-- The last handle of the old epoch has retired: the switch is over (R129). -/
def switchDrained (s : State) : State :=
  if s.reg Ix.programStatus 0 = 3 ∧
      (s.fr.pkts.all fun e => e.2.epoch == s.reg Ix.programEpoch 0 || e.2.stage == .retired) then
    ({ s with rg := { s.rg with progs := { s.rg.progs with old := none } } }).setReg Ix.programStatus 0 0
  else s

/-- A handle has retired: its reservation is returned, its domain moves on, and whatever waited for it ends (R60, R73, R86,
R129, R192). -/
def endRetire (s : State) (h : Nat) : State :=
  match s.pkt? h with
  | none => s
  | some p =>
    let s1 := s.modPkt h fun q => { q with stage := .retired, returned := true, reserved := 0, faultParts := [] }
    let s2 := s1.setOrderDomain p.domain { s1.orderDomain p.domain with lastRetire := some s.raw }
    ((p.faultParts.foldl partRecovers s2).switchDrained).reap h

/-- A decided packet none of whose copies waits retires: it takes its number, draws, and its copies are enqueued in list
order; without a first copy its record is complete (R86, R87, R120 to R122, R179). -/
def retirePacket (s : State) (h : Nat) : State :=
  match s.pkt? h with
  | none => s
  | some p =>
    let nr := s.takeRetireNumber h p
    let s1 := p.admitted.foldl (fun t a => t.enqueueCopy h nr.2 a.1 a.2) (nr.1.drawFor h p)
    let out := (p.result.map Result.outcome).getD 4
    let s2 := if p.admitted.any fun a => a.1 == 0 then s1 else s1.completeSurvey h (if out = 0 then 8 else out)
    s2.endRetire h

/-- A handle whose frame has failed retires void (R90). -/
def retireVoid (s : State) (h : Nat) (p : Packet) : State :=
  let s1 := (s.takeRetireNumber h p).1.count Ix.keeperVoidRetires (p.home + 1) 1
  let s2 := s1.modPkt h fun q => { q with decidedCopies := 0 }
  ((s2.refundAll p).completeSurvey h 4).endRetire h

/-- The copies of a decided packet are offered; it retires once none waits (R86). -/
def pushCopies (s : State) (h : Nat) : State :=
  match s.pkt? h with
  | none => s
  | some p =>
    let r := s.admitAll h p.toEnqueue
    let s1 := r.1.modPkt h fun q => { q with toEnqueue := r.2 }
    if r.2 = [] then s1.retirePacket h else s1

/-! ### Choosing what retires (R86) -/

/-- A packet waits for acceptance before it retires (R120, R155). -/
def waitsAcceptance (p : Packet) : Bool :=
  match p.result with
  | some r => bit r.police 31 || r.effects.any fun e => match e with | .recover _ _ => true | _ => false
  | none => false

/-- The turn of handle `h` has come: its result is there, its predecessor has retired, and it needs no acceptance, or has
it (R86). A packet whose frame fails while its copies wait has its turn again, to retire void (R90). -/
def turnCome (s : State) (h : Nat) (p : Packet) : Bool :=
  (p.stage == .atKeeper || (p.stage == .enqueuing && p.failed)) && p.result.isSome &&
    (s.fr.pkts.all fun e => !(e.2.domain == p.domain && decide (e.1 < h)) || e.2.stage == .retired) &&
    (p.accepted || p.failed || !waitsAcceptance p)

/-- The later of two raw times. -/
def later (a b : Raw) : Raw := if 0 ≤ (a - b).toInt then a else b

/-- The raw time at which the turn of a packet came: its result arrived, its predecessor retired, and what else it waited for
came, its frame's acceptance or failure. -/
def turnAt (s : State) (p : Packet) : Raw :=
  let arrived := (p.result.map Result.arrived).getD 0
  let a := match (s.orderDomain p.domain).lastRetire with
    | some t => later arrived t
    | none => arrived
  if waitsAcceptance p ∨ p.stage = .enqueuing then later a (if p.failed then p.failedAt else p.acceptedAt) else a

/-- The packet keeper `k` retires next: the one whose turn came first, then the lowest domain (R86). -/
def nextRetire (s : State) (k : Nat) : Option (Nat × Packet) :=
  ((s.keeperPkts k).filter fun e => s.turnCome e.1 e.2).foldl (fun best e =>
    match best with
    | none => some e
    | some b =>
      let d := (s.turnAt e.2 - s.turnAt b.2).toInt
      if d < 0 ∨ (d = 0 ∧ e.2.domain < b.2.domain) then some e else best) none

/-- One turn of keeper `k`: the packet whose turn came first is decided, and retires unless a copy of it waits, which stalls
its own domain alone (R59, R86). -/
def retireOne (s : State) (k : Nat) : State :=
  match s.nextRetire k with
  | none => s
  | some (h, p) => if p.failed then s.retireVoid h p else (s.decide_ h p).pushCopies h

/-- Every packet of keeper `k` whose copies wait tries again (R59). -/
def retryOne (s : State) (k : Nat) : State :=
  ((s.keeperPkts k).filter fun e => e.2.stage == .enqueuing && !e.2.failed).foldl (fun t e => t.pushCopies e.1) s

/-! ### Commit (R89) -/

/-- The packet keeper `k` commits next: the first in retire order that has not, void ones apart. -/
def nextCommit (s : State) (k : Nat) : Option (Nat × Packet) :=
  ((s.keeperPkts k).filter fun e => e.2.stage == .retired && !e.2.committed && !e.2.failed && e.2.retireNo.isSome).foldl
    (fun best e =>
      match best with
      | none => some e
      | some b => if e.2.retireNo.getD 0 < b.2.retireNo.getD 0 then some e else best) none

/-- One packet's effects are applied, with duplicate suppression (R89, R156). -/
def commitPacket (s : State) (k h : Nat) (p : Packet) : State :=
  let n := p.retireNo.getD 0
  let kp := s.keeper k
  let done := match kp.lastCommit with
    | some m => decide (n ≤ m)
    | none => false
  let s1 := if done then s.count Ix.commitDuplicateCount (k + 1) 1
    else
      let effects := (p.result.map Result.effects).getD []
      let t := effects.foldl (applyEffect p) (s.setKeeper k { kp with lastCommit := some n })
      p.filterCounts.foldl (fun u c => u.countRec Ix.streamFilterCounts 0 c.1 (8 * c.2) 1) t
  (s1.modPkt h fun q => { q with committed := true }).reap h

/-- One commit of keeper `k`: the next in retire order, once its frame is accepted. -/
def commitOne (s : State) (k : Nat) : State :=
  match s.nextCommit k with
  | some (h, p) => if p.accepted then s.commitPacket k h p else s
  | none => s

end State
end Sys2Proof.Machine
end

