-- ==== Sys2Proof/Machine/RigOps.lean ====
section
/-! DEFINITION. Rigs and awls: dispatch, taking handles, stealing, re-dispatch, fencing and a rig's reset
(R69 to R84, R93 to R98, R104 to R107). -/

namespace Sys2Proof.Machine
namespace State

def rig (s : State) (r : Nat) : Rig := tgetD s.rg.rigs r {}
def setRig (s : State) (r : Nat) (x : Rig) : State := { s with rg := { s.rg with rigs := tput {} s.rg.rigs r x } }
def awl (s : State) (w : Nat) : Awl := tgetD s.rg.awls w {}
def setAwl (s : State) (w : Nat) (x : Awl) : State := { s with rg := { s.rg with awls := tput {} s.rg.awls w x } }
def rigQueue (s : State) (r : Nat) : List Nat := tgetD s.fr.rigQ r []
def setRigQueue (s : State) (r : Nat) (l : List Nat) : State := { s with fr := { s.fr with rigQ := tput [] s.fr.rigQ r l } }

/-- Rig r's island (R9). -/
def rigIsland (r : Nat) : Nat := 32 + r

/-- The 64 rig clocks of a restart, at the rig clock of 1.6 GHz (R94, R110). -/
def restartTime : Nat := ns 40

/-- AWL_WATCHDOG_CYCLES of the rig of awl `w` (R85). -/
def watchdogLimit (s : State) (w : Nat) : Nat := s.reg Ix.awlWatchdogCycles (w / 256 + 1)

/-- Awl `w` can take a handle: idle, not fenced, and not restarting. -/
def awlIdle (s : State) (w : Nat) : Bool :=
  let a := s.awl w
  a.pkt.isNone && !a.fenced && (match a.restart with | some t => decide (restartTime ≤ s.since t) | none => true)

/-! ### Dispatch (R70, R74, R75) -/

/-- A handle moves to its rig queue and is outstanding; the closing of its domain and a full keeper are counted (R74). -/
def toRigQueue (s : State) (k h : Nat) (d : Nat) : State :=
  let s1 := (s.modPkt h fun p => { p with stage := .rigQueue k }).setRigQueue k (s.rigQueue k ++ [h])
  let s2 := if s1.outstandingIn d = 512 then s1.count Ix.keeperWindowStalls (k + 1) 1 else s1
  if s2.outstandingOf k = 8192 then s2.count Ix.keeperFullStalls (k + 1) 1 else s2

/-- Room for one more outstanding handle of sector `k` (R70, R74). -/
def rigRoom (s : State) (k : Nat) : Bool := decide ((s.rigQueue k).length < 1024) && decide (s.outstandingOf k < 8192)

/-- The first held handle of sector `k` whose domain is open (R74). -/
def heldReady (s : State) (k : Nat) : Option (Nat × Nat) :=
  (s.fr.holdQ.filterMap fun e =>
    match e.2 with
    | h :: _ =>
      match s.pkt? h with
      | some p => if p.home = k ∧ s.outstandingIn e.1 < 512 then some (h, e.1) else none
      | none => none
    | [] => none).foldl (fun best e =>
      match best with
      | none => some e
      | some b => if e.1 < b.1 then some e else best) none

/-- A handle of the same source created under an earlier order setting has not retired (R75). -/
def olderSetting (s : State) (p : Packet) : Bool :=
  s.fr.pkts.any fun e => e.2.src == p.src && decide (e.2.orderGen < p.orderGen) && e.2.stage != .retired && e.2.stage != .reserved

/-- The header window of a frame is complete (R68). -/
def windowComplete (p : Packet) : Bool := p.ended || decide (260 ≤ p.bytes.length)

/-- The head of sector `k`'s dispatch list moves on, if it may (R70, R74). -/
def dispatchHead (s : State) (k : Nat) : State :=
  match tgetD s.fr.dispatchQ k [] with
  | [] => s
  | h :: rest =>
    match s.pkt? h with
    | none => s
    | some p =>
      if windowComplete p = false ∨ s.olderSetting p ∨ s.rigRoom k = false then s
      else
        let s1 := { s with fr := { s.fr with dispatchQ := tput [] s.fr.dispatchQ k rest } }
        let held := tgetD s1.fr.holdQ p.domain []
        if s1.outstandingIn p.domain < 512 ∧ held = [] then s1.toRigQueue k h p.domain
        else
          let s2 := { s1 with fr := { s1.fr with holdQ := tput [] s1.fr.holdQ p.domain (held ++ [h]) } }
          s2.modPkt h fun q => { q with stage := .holdList }

/-! ### Taking a handle (R71, R104 to R106, R129) -/

/-- The program a packet runs: its epoch's bank (R129). -/
def programOf (s : State) (p : Packet) : Program :=
  if p.epoch = s.reg Ix.programEpoch 0 then s.rg.progs.active else s.rg.progs.old.getD s.rg.progs.active

/-- Metadata as the awl takes it (R106). A length or acceptance time not known yet is a free value. -/
def metadata (s : State) (p : Packet) : List Byte :=
  let host := decide (512 ≤ p.src)
  let len := if p.ended then (if host then p.bytes.length + 4 else p.len) else Config.freeNat s.draws
  let ts := if host && !p.accepted then Config.freeNat (s.draws + 1) else p.ts.toNat
  leBytes 2 p.src ++ leBytes 1 (p.cls + 8 * ofBool host + 16 * ofBool p.preempt) ++ [0#8] ++ leBytes 2 len ++
    leBytes 2 p.window.length ++ leBytes 8 ts ++ leBytes 4 p.domain ++ leBytes 4 p.domSeq ++
    leBytes 4 (if host then p.chan else 0xFFFFFFFF) ++ List.replicate 36 0#8

/-- Awl `w` takes handle `h`. -/
def awlTakes (s : State) (w h : Nat) (p : Packet) : State :=
  let a : Awl := { pkt := some h, pc := (s.programOf p).entry, window := p.window, md := s.metadata p }
  ({ s with draws := s.draws + 2 }.setAwl w a).modPkt h fun q => { q with stage := .onAwl w }

/-! ### Stealing (R76 to R81) -/

/-- Rigs above `r` and below it on the ring of present rigs. -/
def upperRig (s : State) (r : Nat) : Nat := (r + 1) % s.sectors
def lowerRig (s : State) (r : Nat) : Nat := (r + s.sectors - 1) % s.sectors

/-- The rig is dry (R76). -/
def rigDry (s : State) (r : Nat) : Bool :=
  (s.rigQueue r).isEmpty && s.regB Ix.stealEnable (r + 1) && s.running (rigIsland r) &&
    (List.range 256).any fun a => s.awlIdle (256 * r + a)

/-- Depth above which a victim is loaded (R76, R79). -/
def loadedDepth (s : State) (v : Nat) : Nat := if s.islandState (rigIsland v) = 3 then s.reg Ix.stealLoadedDepth (v + 1) else 0

/-- Handle `h` may be granted: not stolen before, unless its rig is not in RUN (R79). -/
def stealable (s : State) (v h : Nat) : Bool :=
  s.islandState (rigIsland v) != 3 || (match s.pkt? h with | some p => !p.stolen | none => false)

/-- The batch a victim grants, in its queue order; none where it refuses (R78). Handles at its tail that cannot be granted
are passed over, and the batch is filled with those before them (DESIGN CHOICE, notes/assumptions/50.md). -/
def stealBatch (s : State) (thief v : Nat) : List Nat :=
  let q := s.rigQueue v
  let n := min (s.reg Ix.stealBatch (thief + 1)) (q.length - s.loadedDepth v)
  let may := q.filter (s.stealable v ·)
  may.drop (may.length - n)

/-- One request of the thief to `v`: granted or refused, and counted (R78, R81). -/
def askSteal (s : State) (thief v : Nat) : State × Bool :=
  let b := s.stealBatch thief v
  if b = [] then (s.count Ix.stealRefused (thief + 1) 1, false)
  else
    let s1 := (s.setRigQueue v ((s.rigQueue v).filter fun h => !b.contains h)).setRigQueue thief (s.rigQueue thief ++ b)
    let s2 := b.foldl (fun t h => t.modPkt h fun p => { p with stolen := true, stage := .rigQueue thief }) s1
    (((s2.count Ix.stealsBy (thief + 1) 1).count Ix.handlesStolenBy (thief + 1) b.length).count Ix.handlesStolenFrom (v + 1)
      b.length, true)

/-- The rig the load map shows deepest, other than the thief and its neighbours; the lowest number wins a tie (R77). -/
def deepestRig (s : State) (thief : Nat) : Option Nat :=
  ((List.range s.sectors).filter fun v => v != thief && v != s.upperRig thief && v != s.lowerRig thief).foldl (fun best v =>
    match best with
    | none => some v
    | some b => if (s.rig b).mapDepth < (s.rig v).mapDepth then some v else best) none

/-- The requests of a dry rig in order, up to the first that is granted (R77). -/
def stealRound (s : State) (thief : Nat) : State :=
  let a := s.askSteal thief (s.upperRig thief)
  if a.2 then a.1
  else
    let b := a.1.askSteal thief (a.1.lowerRig thief)
    if b.2 then b.1
    else
      let c := match b.1.deepestRig thief with
        | some v => b.1.askSteal thief v
        | none => (b.1, false)
      if c.2 then c.1 else c.1.setRig thief { c.1.rig thief with stealWait := some s.rawTotal }

/-! ### Re-dispatch and poison (R93 to R95) -/

/-- The result of a handle that retires as a program drop without a run of its own. -/
def dropResult (s : State) (p : Packet) (outcome : Nat) (rig awl cycles : Nat) : Result :=
  { window := p.window, copies := [], effects := [], splitFn := none, police := 0, rxChan := 0, outcome := outcome,
    cycles := cycles, rig := rig, awl := awl, arrived := s.raw }

/-- A handle of awl `w` joins the head of the rig queue (R95). -/
def redispatch (s : State) (w h : Nat) : State :=
  let r := w / 256
  ((s.modPkt h fun p => { p with stage := .rigQueue r, redispatched := true }).setRigQueue r (h :: s.rigQueue r)).count
    Ix.handlesRedispatched (r + 1) 1

/-- A handle at the fault limit retires as a program drop (R95). -/
def poison (s : State) (w h : Nat) (p : Packet) : State :=
  let s1 := s.modPkt h fun q =>
    { q with stage := .atKeeper, result := some (s.dropResult p 2 (w / 256) (w % 256) (s.awl w).cycles) }
  (s1.count Ix.packetPoisonCount (p.home + 1) 1).event Ix.packetPoisonCount 2 48 [(2, p.src), (4, p.domain), (4, p.domSeq)]

/-! ### Scratch, fencing and reset of a rig (R96 to R98, R107, R130) -/

/-- Bytes of scratch of each rig. -/
def scratchSize : Nat := 262144

/-- Scratch of rig `r` is filled from the active image (R107). -/
def fillScratch (s : State) (r : Nat) : State :=
  let base := scratchSize * r
  let others := s.rg.scratch.filter fun e => e.1 / scratchSize != r
  let image := s.rg.progs.active.scratch
  { s with
    rg := { s.rg with
      scratch := ((List.range image.length).zip image).foldl (fun t e => tput 0#8 t (base + e.1) e.2) others } }

/-- Order of handles that go back to a queue: domain, then domain sequence, which creation order gives within a domain. -/
def domainBefore (a b : Nat × Packet) : Bool :=
  decide (a.2.domain < b.2.domain) || (a.2.domain == b.2.domain && decide (a.1 ≤ b.1))

/-- Handles of rig `r`'s awls go to the head of its queue, and its awls stop (R30, R96). -/
def stopAwls (s : State) (r : Nat) : State :=
  let mine := (s.fr.pkts.filter fun e => match e.2.stage with | .onAwl w => w / 256 == r | _ => false).mergeSort domainBefore
  let hs := mine.map Prod.fst
  let s1 := hs.foldl (fun t h => t.modPkt h fun p => { p with stage := .rigQueue r, redispatched := true }) s
  let s2 := (s1.setRigQueue r (hs ++ s1.rigQueue r)).count Ix.handlesRedispatched (r + 1) hs.length
  { s2 with
    rg := { s2.rg with
      awls := (s2.rg.awls.filter fun e => e.1 / 256 != r || e.2.fenced).map fun e =>
        if e.1 / 256 = r then (e.1, ({ fenced := true } : Awl)) else e } }

/-- Writes pending in island `i` are discarded and counted (R29, R299). -/
def discardPending (s : State) (i : Nat) : State :=
  let n := (s.island i).pend.length
  (s.setIsland i { s.island i with pend := [] }).countSat Ix.applyDiscardCount (i + 1) n

/-- A rig's reset begins (R29, R30): its pending writes are discarded, its awls stop, and it reads RESET. -/
def startRigReset (s : State) (r : Nat) : State :=
  ((s.discardPending (rigIsland r)).stopAwls r).setIslandState (rigIsland r) 1

/-- A rig reaches RUN (R98, R107): every awl unfenced, scratch filled, and its fault ends. -/
def rigRuns (s : State) (r : Nat) : State :=
  let s1 := { s with rg := { s.rg with awls := s.rg.awls.filter fun e => e.1 / 256 != r } }
  (((s1.setReg Ix.awlsFenced (r + 1) 0).setReg Ix.awlFenceMap (r + 1) 0).fillScratch r).partRecovers (partRig r)

/-- Rig `r` is fenced (R96), and reset at once unless it has been reset so three times within 60 s (R97). -/
def fenceRig (s : State) (r : Nat) : State :=
  let s1 := ((s.stopAwls r).setIslandState (rigIsland r) 5).countSat Ix.rigFenceCount (r + 1) 1
  let s2 := (s1.event Ix.rigFenceCount 3 (rigIsland r) []).partFaults (partRig r)
  if s2.regB Ix.rigAutoReset (r + 1) then
    let x := s2.rig r
    let recent := x.autoResets.filter fun t => decide (s.since t < 60 * second)
    if 3 ≤ recent.length then s2.event Ix.islandReset 3 (rigIsland r) []
    else (s2.setRig r { x with autoResets := recent ++ [s.rawTotal] }).startRigReset r
  else s2

end State
end Sys2Proof.Machine
end

