-- ==== Sys2Proof/Machine/Operands.lean ====
section
/-! DEFINITION. The operands of awl instructions: words and fields (R109), registers (R104), window, metadata and scratch
accesses (R105 to R107, R112). -/

namespace Sys2Proof.Machine

/-! ### Instruction words (R109) -/

/-- The word of an instruction: OP, D, A, B, I, X, IMM from the top. -/
def awlWord (op : BitVec 8) (o : AwlOp) : BitVec 64 := op ++ o.d ++ o.a ++ o.b ++ BitVec.ofBool o.i ++ o.x ++ o.imm

/-- The operand fields of a word. -/
def awlFields (w : BitVec 64) : AwlOp :=
  { d := w.extractLsb' 51 5, a := w.extractLsb' 46 5, b := w.extractLsb' 41 5, i := w.getLsbD 40,
    x := w.extractLsb' 32 8, imm := w.extractLsb' 0 32 }

/-- The opcode of a word. -/
def awlOpcode (w : BitVec 64) : BitVec 8 := w.extractLsb' 56 8

/-- The fields an instruction uses (R110); `bi`: its second operand is written B/I. -/
structure Uses where
  d : Bool := false
  a : Bool := false
  b : Bool := false
  x : Bool := false
  imm : Bool := false
  bi : Bool := false
  i1 : Bool := false
  deriving DecidableEq, Repr

/-- Every field the instruction does not use is 0, and of B and IMM the one I does not select (R109). -/
def usesOk (u : Uses) (o : AwlOp) : Bool :=
  (u.d || o.d == 0) && (u.a || o.a == 0) && (u.x || o.x == 0) &&
    (if u.bi then (if o.i then o.b == 0 else o.imm == 0)
     else (u.b || o.b == 0) && (u.imm || o.imm == 0) && (o.i == u.i1))

/-! ### Registers (R104) -/

/-- Register `r`; g0 reads 0. -/
def Awl.g (a : Awl) (r : BitVec 5) : Word := if r = 0 then 0 else tgetD a.regs r.toNat 0

/-- Register `r` takes `v`; a write to g0 is ignored. -/
def Awl.setG (a : Awl) (r : BitVec 5) (v : Word) : Awl := if r = 0 then a else { a with regs := tput 0 a.regs r.toNat v }

/-- B′: g[B], or IMM sign-extended (R109). -/
def Awl.second (a : Awl) (o : AwlOp) : Word := if o.i then o.imm.signExtend 64 else a.g o.b

/-- g[A] + IMM, IMM sign-extended: an address or index operand (R109). -/
def Awl.address (a : Awl) (o : AwlOp) : Nat := (a.g o.a + o.imm.signExtend 64).toNat

/-! ### The header window (R105, R110, R112) -/

/-- First bit and width of a `hex` or `hin` field, with the bytes it spans; none where it reaches beyond byte 255. -/
def Awl.windowField (a : Awl) (o : AwlOp) : Option (Nat × Nat) :=
  let start := (a.g o.a + (o.imm.truncate 16).zeroExtend 64).toNat
  let bit0 := 8 * start + (o.imm.extractLsb' 16 3).toNat
  let width := o.x.toNat % 64 + 1
  if 2048 < bit0 + width then none else some (bit0, width)

/-- A window as one big-endian number of 256 bytes; bytes past its length are 0. -/
def windowNat (w : List Byte) : Nat := beNat (slice w 0 256)

/-- `width` bits from bit `b` of a window, counted from the most significant bit of byte 0. -/
def getField (w : List Byte) (b width : Nat) : Nat := windowNat w / 2 ^ (2048 - b - width) % 2 ^ width

/-- The window with those bits replaced. -/
def putField (w : List Byte) (b width v : Nat) : List Byte :=
  let n := windowNat w
  let sh := 2 ^ (2048 - b - width)
  (beBytes 256 (n - n / sh % 2 ^ width * sh + v % 2 ^ width * sh)).take w.length

/-- Offsets of in-band records move with the bytes they stand for. -/
def shiftInBand (off n : Nat) (grow : Bool) (e : Effect) : Effect :=
  match e with
  | .inBand o => .inBand (if grow then (if off ≤ o then o + n else o) else if off + n ≤ o then o - n else o)
  | e => e

/-- `n` bytes inserted at an offset of the window (R112): none past its length, or beyond 256 bytes. -/
def Awl.insertBytes (a : Awl) (off : Nat) (bs : List Byte) : Option Awl :=
  if a.window.length < off ∨ 256 < a.window.length + bs.length then none
  else
    some { a with
      window := a.window.take off ++ bs ++ a.window.drop off
      effects := a.effects.map (shiftInBand off bs.length true) }

/-- `n` bytes deleted at an offset; none where that reaches beyond the window length. -/
def Awl.deleteBytes (a : Awl) (off n : Nat) : Option Awl :=
  if a.window.length < off + n then none
  else
    some { a with
      window := a.window.take off ++ a.window.drop (off + n)
      effects := a.effects.map (shiftInBand off n false) }

/-! ### Metadata and scratch (R106, R107, R112) -/

/-- Bytes of a metadata or scratch access: 2^X[1:0]. -/
def accessSize (o : AwlOp) : Nat := 2 ^ (o.x.toNat % 4)

/-- Metadata with the present window length in bytes 6 and 7. -/
def Awl.metadata (a : Awl) : List Byte := patch a.md 6 (leBytes 2 a.window.length)

/-- The scratch address of an access, where it lies in scratch and is naturally aligned. -/
def Awl.scratchAddress (a : Awl) (o : AwlOp) (n : Nat) : Option Nat :=
  let x := a.address o
  if scratchLimit < x + n ∨ x % n ≠ 0 then none else some x
where
  /-- Bytes of scratch. -/
  scratchLimit : Nat := 262144

namespace State

/-- `n` scratch bytes of rig `r`. -/
def scratchRead (s : State) (r x n : Nat) : Nat :=
  leNat ((List.range n).map fun i => tgetD s.rg.scratch (scratchSize * r + x + i) 0#8)

/-- `n` scratch bytes of rig `r` written. -/
def scratchWrite (s : State) (r x n v : Nat) : State :=
  { s with
    rg := { s.rg with
      scratch := ((List.range n).zip (leBytes n v)).foldl (fun t e => tput 0#8 t (scratchSize * r + x + e.1) e.2)
        s.rg.scratch } }

end State

/-! ### Copies and effects (R82, R83, R110, R112) -/

/-- One more effect entry; a 65th is a program fault. -/
def Awl.addEffect (a : Awl) (e : Effect) : Option Awl :=
  if 64 ≤ a.effects.length then none else some { a with effects := a.effects ++ [e] }

/-- Copies added by one instruction: each to a present queue, at most 64 in all; copies beyond the first are replication,
one entry for the instruction. -/
def Awl.addCopies (a : Awl) (s : State) (cs : List CopySpec) : Option Awl :=
  if (cs.all fun c => decide (c.queue < 4128) && s.queuePresent c.queue) = false ∨ 64 < a.copies.length + cs.length then none
  else
    let a1 := { a with copies := a.copies ++ cs }
    if cs ≠ [] ∧ 1 < a1.copies.length then a1.addEffect .replicate else some a1

end Sys2Proof.Machine
end

