-- ==== Sys2Proof/Machine/Flags.lean ====
section
/-! DEFINITION. The one flag of an awl, F (R104), and the computations that set it (R110). -/

namespace Sys2Proof.Machine

/-- The condition X[2:0] of `cmp` over (A, B′); none for 6 and 7, which are program faults. -/
def cmpCondition (x : Nat) (a b : Word) : Option Bool :=
  match x % 8 with
  | 0 => some (a == b)
  | 1 => some (a != b)
  | 2 => some (a.ult b)
  | 3 => some (a.ule b)
  | 4 => some (a.slt b)
  | 5 => some (a.sle b)
  | _ => none

/-- D and F after `cmp`. -/
def Awl.setCompare (a : Awl) (d : BitVec 5) (c : Bool) : Awl := { a.setG d (if c then 1 else 0) with flag := c }

/-- D and F after a lookup: the data and 1 on a hit, 0 and 0 on a miss. -/
def Awl.setLookup (a : Awl) (d : BitVec 5) (hit : Option Nat) : Awl :=
  match hit with
  | some v => { a.setG d (BitVec.ofNat 64 v) with flag := true }
  | none => { a.setG d 0 with flag := false }

/-- The 16-bit ones'-complement sum with end-around carry (`cka`). -/
def onesSum (a b : Word) : Word :=
  let t := a.toNat % 65536 + b.toNat % 65536
  BitVec.ofNat 64 ((t % 65536 + t / 65536) % 65536)

end Sys2Proof.Machine
end

