-- ==== Sys2Proof/Machine/AwlRun.lean ====
section
/-! DEFINITION. Running one instruction of an awl, the program fault and the yield (R82 to R85, R109 to R112). -/

namespace Sys2Proof.Machine

/-- What an instruction makes of the machine and its awl; none is a program fault. -/
abbrev AwlStep := Option (State × Awl)

namespace State

/-- The packet of awl `w` goes to its keeper with a result, and the awl is idle. -/
def giveResult (s : State) (w h : Nat) (r : Result) : State :=
  (s.modPkt h fun q => { q with stage := .atKeeper, result := some r }).setAwl w {}

/-- A program fault: the packet ends as a program drop with no copies or effects, counted and logged (R83). -/
def programFault (s : State) (w h : Nat) (p : Packet) (cycles : Nat) : State :=
  let s1 := s.giveResult w h (s.dropResult p 3 (w / 256) (w % 256) cycles)
  (s1.count Ix.programFaultCount (p.home + 1) 1).event Ix.programFaultCount 2 48 [(2, p.src), (4, p.domSeq)]

/-- The handle and packet of a running awl whose program has `word` at its program counter (R71, R94, R96, R129). The
default bridge's instructions are not listed in the spec, so no word stands in its bank. -/
def awlAt (s : State) (w : Nat) (word : BitVec 64) : Option (Nat × Packet) :=
  if s.running (rigIsland (w / 256)) = false then none
  else
    match (s.awl w).pkt with
    | none => none
    | some h =>
      match s.pkt? h with
      | none => none
      | some p =>
        if (s.programOf p).isDefault = false ∧ (s.programOf p).instrs[(s.awl w).pc]? = some word then some (h, p) else none

/-- The instruction that awl `w` is at would end after the watchdog's limit: the count stands beyond it, and the expiry is
due (R85). -/
def overrunAwl (s : State) (w : Nat) : State := s.setAwl w { s.awl w with cycles := s.watchdogLimit w + 1 }

/-- What an instruction of awl `w` that ends at the count `n` makes of the state, if the watchdog has not expired (R85). -/
def withinLimit (s : State) (w n : Nat) (t : State) : State := if s.watchdogLimit w < n then s.overrunAwl w else t

/-- Awl `w` executes the instruction of opcode `op`: a non-zero unused field is a program fault (R112), the program counter
moves on, and `body` has its effect; `cycles` are the instruction's typical rig clocks. -/
def runAwl (s : State) (op : BitVec 8) (u : Uses) (w : Nat) (o : AwlOp) (cycles : Nat)
    (body : State → Packet → Awl → AwlStep) : Out :=
  if s.sectorPresent (w / 256) = false then .next s
  else
    match s.awlAt w (awlWord op o) with
    | none => .next s
    | some (h, p) =>
      let a := s.awl w
      let a1 := { a with pc := a.pc + 1, cycles := a.cycles + cycles }
      let fault := s.withinLimit w a1.cycles (s.programFault w h p a1.cycles)
      if usesOk u o = false then .next fault
      else
        match body s p a1 with
        | some (s1, a2) => .next ({ s with draws := s1.draws }.withinLimit w a2.cycles (s1.setAwl w a2))
        | none => .next fault

/-- The result of a yield (R82, R155, R311); none where the policing or receive-channel word is malformed. -/
def yieldResult (s : State) (w : Nat) (a : Awl) : Option Result :=
  let police := leField a.md 60 4
  let rx := leField a.md 56 4
  if (bit police 31 ∧ bits police 30 16 ≠ 0) ∨ (bit rx 31 ∧ bits rx 30 12 ≠ 0) then none
  else
    some { window := a.window, copies := a.copies, effects := a.effects, splitFn := a.splitFn, police := police,
           rxChan := rx, outcome := if a.copies = [] then 2 else 0, cycles := a.cycles, rig := w / 256, awl := w % 256,
           arrived := s.raw }

end State

/-- An instruction that only writes D from A and B′. -/
def aluStep (o : AwlOp) (f : Word → Word → Word) (s : State) (_ : Packet) (a : Awl) : AwlStep :=
  some (s, a.setG o.d (f (a.g o.a) (a.second o)))

/-- The shift count B′[5:0]. -/
def shiftCount (b : Word) : Nat := b.toNat % 64

/-- Uses of an instruction written D A B/I IMM. -/
def usesAlu : Uses := { d := true, a := true, bi := true }

/-- The key of an exact lookup or write: g[A], or g[A]:g[A+1] above 64 bits; none for an unused table, or A = 31 with a
wide key (R110, R112). -/
def State.xmKeyOf (s : State) (a : Awl) (o : AwlOp) : Option Nat :=
  let t := o.imm.toNat % 64
  if s.xmBits t = 0 ∨ (64 < s.xmBits t ∧ o.a = 31) then none
  else if s.xmBits t ≤ 64 then some (a.g o.a).toNat
  else some ((a.g o.a).toNat + 18446744073709551616 * (a.g (o.a + 1)).toNat)

/-- Rig clocks that a table read of `typical` clocks takes: at least one, fewer than typical at a lower rig clock, and more
without bound where the table network is congested; how many is a free value (R111). -/
def State.tableStall (s : State) (typical : Nat) : State × Nat :=
  ({ s with draws := s.draws + 2 }, typical - Config.freeNat s.draws % typical + Config.freeNat (s.draws + 1))

/-- A jump within the program. -/
def jumpStep (take : Bool) (target : Nat) (cost : Nat) (s : State) (a : Awl) : AwlStep :=
  some (s, if take then { a with pc := target, cycles := a.cycles + cost } else a)

/-- The copies of a copy list in class `c` (R117): entry order, valid entries, the ingress source left out if asked. -/
def State.listCopies (s : State) (list c src : Nat) (skip : Bool) : List CopySpec :=
  let image := s.record Ix.copyList 0 list
  ((List.range 64).map fun i => image / 65536 ^ i % 65536).filterMap fun e =>
    let dst := e % 1024
    if bit e 15 = false ∨ (skip ∧ dst = src) then none
    else some ⟨if dst < 512 then 8 * dst + c else 4096 + 8 * (dst - 512) + c, bit e 14, false⟩

/-- Valid entries of a copy list. -/
def State.listValid (s : State) (list : Nat) : Nat :=
  ((List.range 64).filter fun i => bit (s.record Ix.copyList 0 list / 65536 ^ i % 65536) 15).length

end Sys2Proof.Machine
end

