-- ==== Sys2Proof/Machine/AwlAlu.lean ====
section
/-! DEFINITION. Awl instructions on registers, and the window hash (R110). -/

namespace Sys2Proof.Machine

/-- NOP (R110): no effect. -/
def execNop (w : Nat) (o : AwlOp) (s : State) : Out :=
  s.runAwl 0x00 {} w o 1
    fun s _ a => some (s, a)

/-- ADD (R110): D = A + B′. -/
def execAdd (w : Nat) (o : AwlOp) (s : State) : Out :=
  s.runAwl 0x01 usesAlu w o 1
    (aluStep o (· + ·))

/-- SUB (R110): D = A − B′. -/
def execSub (w : Nat) (o : AwlOp) (s : State) : Out :=
  s.runAwl 0x02 usesAlu w o 1
    (aluStep o (· - ·))

/-- AND (R110): D = A AND B′. -/
def execAnd (w : Nat) (o : AwlOp) (s : State) : Out :=
  s.runAwl 0x03 usesAlu w o 1
    (aluStep o (· &&& ·))

/-- OR (R110): D = A OR B′. -/
def execOr (w : Nat) (o : AwlOp) (s : State) : Out :=
  s.runAwl 0x04 usesAlu w o 1
    (aluStep o (· ||| ·))

/-- XOR (R110): D = A XOR B′. -/
def execXor (w : Nat) (o : AwlOp) (s : State) : Out :=
  s.runAwl 0x05 usesAlu w o 1
    (aluStep o (· ^^^ ·))

/-- SHL (R110): D = A shifted left by B′[5:0]. -/
def execShl (w : Nat) (o : AwlOp) (s : State) : Out :=
  s.runAwl 0x06 usesAlu w o 1
    (aluStep o (fun x y => x <<< shiftCount y))

/-- SHR (R110): logical shift right by B′[5:0]. -/
def execShr (w : Nat) (o : AwlOp) (s : State) : Out :=
  s.runAwl 0x07 usesAlu w o 1
    (aluStep o (fun x y => x >>> shiftCount y))

/-- SAR (R110): arithmetic shift right by B′[5:0]. -/
def execSar (w : Nat) (o : AwlOp) (s : State) : Out :=
  s.runAwl 0x08 usesAlu w o 1
    (aluStep o (fun x y => x.sshiftRight (shiftCount y)))

/-- MUL (R110): D = low 64 bits of A × B′. -/
def execMul (w : Nat) (o : AwlOp) (s : State) : Out :=
  s.runAwl 0x09 usesAlu w o 3
    (aluStep o (· * ·))

/-- MOVI (R110): D = IMM sign-extended. -/
def execMovi (w : Nat) (o : AwlOp) (s : State) : Out :=
  s.runAwl 0x0A { d := true, imm := true, i1 := true } w o 1
    fun s _ a => some (s, a.setG o.d (o.imm.signExtend 64))

/-- MOVH (R110): D[63:32] = IMM, the low half kept. -/
def execMovh (w : Nat) (o : AwlOp) (s : State) : Out :=
  s.runAwl 0x0B { d := true, imm := true, i1 := true } w o 1
    fun s _ a => some (s, a.setG o.d (o.imm ++ (a.g o.d).truncate 32))

/-- CMP (R110): D and F take the condition X[2:0]; 6 and 7 are program faults. -/
def execCmp (w : Nat) (o : AwlOp) (s : State) : Out :=
  s.runAwl 0x0C { d := true, a := true, bi := true, x := true } w o 1
    fun s _ a => (cmpCondition o.x.toNat (a.g o.a) (a.second o)).map fun c => (s, a.setCompare o.d c)

/-- CKA (R110): 16-bit ones'-complement sum with end-around carry. -/
def execCka (w : Nat) (o : AwlOp) (s : State) : Out :=
  s.runAwl 0x0D usesAlu w o 1
    (aluStep o onesSum)

/-- HSH (R110): CRC-32C over X + 1 window bytes; 1 + ⌈(X + 1) / 8⌉ clocks. -/
def execHsh (w : Nat) (o : AwlOp) (s : State) : Out :=
  s.runAwl 0x0E { d := true, a := true, x := true, imm := true } w o (1 + ceilDiv (o.x.toNat + 1) 8)
    fun s _ a =>
      if 256 < a.address o + o.x.toNat + 1 then none
      else some (s, a.setG o.d (BitVec.ofNat 64 (crc32c (slice a.window (a.address o) (o.x.toNat + 1)))))

end Sys2Proof.Machine
end

