-- ==== Sys2Proof/Machine/AwlData.lean ====
section
/-! DEFINITION. Awl instructions on the window, metadata, scratch and tables (R110 to R116). -/

namespace Sys2Proof.Machine

/-- HEX (R110): D = a window field, zero-extended. -/
def execHex (w : Nat) (o : AwlOp) (s : State) : Out :=
  s.runAwl 0x10 { d := true, a := true, x := true, imm := true } w o 1
    fun s _ a => (a.windowField o).map fun f => (s, a.setG o.d (BitVec.ofNat 64 (getField a.window f.1 f.2)))

/-- HIN (R110): a window field takes the low bits of g[B]; one that reaches the window length is a program fault (R112). -/
def execHin (w : Nat) (o : AwlOp) (s : State) : Out :=
  s.runAwl 0x11 { a := true, b := true, x := true, imm := true } w o 1
    fun s _ a =>
      match a.windowField o with
      | none => none
      | some f =>
        if 8 * a.window.length < f.1 + f.2 then none
        else some (s, { a with window := putField a.window f.1 f.2 (a.g o.b).toNat })

/-- MLD (R110): D = metadata bytes, zero-extended. -/
def execMld (w : Nat) (o : AwlOp) (s : State) : Out :=
  s.runAwl 0x12 { d := true, a := true, x := true, imm := true } w o 1
    fun s _ a =>
      if 64 < a.address o + accessSize o then none
      else some (s, a.setG o.d (BitVec.ofNat 64 (leField a.metadata (a.address o) (accessSize o))))

/-- MST (R110): metadata bytes 32 to 63 take the low bytes of g[B]. -/
def execMst (w : Nat) (o : AwlOp) (s : State) : Out :=
  s.runAwl 0x13 { a := true, b := true, x := true, imm := true } w o 1
    fun s _ a =>
      if a.address o < 32 ∨ 64 < a.address o + accessSize o then none
      else some (s, { a with md := patch a.md (a.address o) (leBytes (accessSize o) (a.g o.b).toNat) })

/-- HINS (R110): X[5:0] + 1 zero bytes inserted. -/
def execHins (w : Nat) (o : AwlOp) (s : State) : Out :=
  s.runAwl 0x14 { a := true, x := true, imm := true } w o 2
    fun s _ a => (a.insertBytes (a.address o) (List.replicate (o.x.toNat % 64 + 1) 0#8)).map fun b => (s, b)

/-- HDEL (R110): X[5:0] + 1 bytes deleted. -/
def execHdel (w : Nat) (o : AwlOp) (s : State) : Out :=
  s.runAwl 0x15 { a := true, x := true, imm := true } w o 2
    fun s _ a => (a.deleteBytes (a.address o) (o.x.toNat % 64 + 1)).map fun b => (s, b)

/-- SLD (R110): D = scratch bytes, naturally aligned. -/
def execSld (w : Nat) (o : AwlOp) (s : State) : Out :=
  s.runAwl 0x18 { d := true, a := true, x := true, imm := true } w o 2
    fun s _ a => (a.scratchAddress o (accessSize o)).map fun x =>
      (s, a.setG o.d (BitVec.ofNat 64 (s.scratchRead (w / 256) x (accessSize o))))

/-- SST (R110): scratch bytes take the low bytes of g[B]. -/
def execSst (w : Nat) (o : AwlOp) (s : State) : Out :=
  s.runAwl 0x19 { a := true, b := true, x := true, imm := true } w o 2
    fun s _ a => (a.scratchAddress o (accessSize o)).map fun x =>
      (s.scratchWrite (w / 256) x (accessSize o) (a.g o.b).toNat, a)

/-- SADD (R107, R110): a 64-bit scratch word rises by g[B]; D = its old value. -/
def execSadd (w : Nat) (o : AwlOp) (s : State) : Out :=
  s.runAwl 0x1A { d := true, a := true, b := true, imm := true } w o 3
    fun s _ a => (a.scratchAddress o 8).map fun x =>
      let old := s.scratchRead (w / 256) x 8
      (s.scratchWrite (w / 256) x 8 (old + (a.g o.b).toNat), a.setG o.d (BitVec.ofNat 64 old))

/-- XLK (R110, R112, R114): exact lookup; a hit marks its entry. -/
def execXlk (w : Nat) (o : AwlOp) (s : State) : Out :=
  s.runAwl 0x20 { d := true, a := true, imm := true } w o 0
    fun s _ a => (s.xmKeyOf a o).map fun key =>
      let t := o.imm.toNat % 64
      let st := s.tableStall 40
      let b := a.setLookup o.d ((s.xmFind t key).map XmEntry.data)
      (st.1.xmTouch t key, { b with cycles := b.cycles + st.2 })

/-- TLK (R110, R112, R116): ternary lookup with a 320-bit key; an empty partition, or a key past g31, is a program fault. -/
def execTlk (w : Nat) (o : AwlOp) (s : State) : Out :=
  s.runAwl 0x21 { d := true, a := true, imm := true } w o 0
    fun s _ a =>
      let k := o.imm.toNat % 16
      if s.reg Ix.tcPartSize (k + 1) = 0 ∨ 27 < o.a.toNat then none
      else
        let part (i : Nat) : Nat := (a.g (o.a + BitVec.ofNat 5 i)).toNat * 2 ^ (64 * i)
        let st := s.tableStall 56
        let b := a.setLookup o.d (s.tcLookup k (part 0 + part 1 + part 2 + part 3 + part 4))
        some (st.1, { b with cycles := b.cycles + st.2 })

/-- CRD (R110): D = committed value of a counter. -/
def execCrd (w : Nat) (o : AwlOp) (s : State) : Out :=
  s.runAwl 0x22 { d := true, a := true, imm := true } w o 0
    fun s _ a =>
      if State.counterLimit ≤ a.address o then none
      else
        let st := s.tableStall 36
        some (st.1, { a.setG o.d (BitVec.ofNat 64 (s.counter (a.address o))) with cycles := a.cycles + st.2 })

end Sys2Proof.Machine
end

