-- ==== Sys2Proof/Machine/AwlEffects.lean ====
section
/-! DEFINITION. Awl instructions that add effects and copies (R110 to R125, R177, R178). -/

namespace Sys2Proof.Machine

/-- `rcv` (R178): the effect carries the number read from the window, and the R-TAG's 6 bytes go if asked. -/
def Awl.recoverBy (a : Awl) (p : Packet) (fn : Nat) (untag : Bool) : Option Awl :=
  (a.addEffect (.recover fn (rtagNumber p.rtag a.window))).bind fun b =>
    if untag && hasRtag p.rtag a.window then
      b.deleteBytes (afterTags a.window) (min 6 (a.window.length - afterTags a.window))
    else some b

/-- `spl` (R120, R177): the R-TAG, the copies, and the generation function the number is drawn from at retire. -/
def Awl.split (a : Awl) (s : State) (p : Packet) (fn qa qb : Nat) : Option Awl :=
  let tagged :=
    if hasRtag p.rtag a.window then
      some a
    else a.insertBytes (afterTags a.window) (beBytes 2 p.rtag ++ beBytes 4 0)
  tagged.bind fun b => ({ b with splitFn := some fn }.addCopies s [⟨qa, false, false⟩, ⟨qb, false, false⟩])

/-- XWR_INSERT (R110): effect, insert or update of a key; the row of X[0] = 0. -/
def execXwrInsert (w : Nat) (o : AwlOp) (s : State) : Out :=
  if o.x.getLsbD 0 = false then
    s.runAwl 0x23 { a := true, b := true, x := true, imm := true } w o 1
      fun s _ a => (s.xmKeyOf a o).bind fun key =>
        (a.addEffect (.xmInsert (o.imm.toNat % 64) key (a.g o.b).toNat)).map fun b => (s, b)
  else .next s

/-- XWR_DELETE (R110): effect, delete of a key; the row of X[0] = 1. -/
def execXwrDelete (w : Nat) (o : AwlOp) (s : State) : Out :=
  if o.x.getLsbD 0 = true then
    s.runAwl 0x23 { a := true, b := true, x := true, imm := true } w o 1
      fun s _ a => (s.xmKeyOf a o).bind fun key =>
        (a.addEffect (.xmDelete (o.imm.toNat % 64) key)).map fun b => (s, b)
  else .next s

/-- CNT_ADD (R110): effect, g[B] added to a counter; the row of X[0] = 0. -/
def execCntAdd (w : Nat) (o : AwlOp) (s : State) : Out :=
  if o.x.getLsbD 0 = false then
    s.runAwl 0x28 { a := true, b := true, x := true, imm := true } w o 1
      fun s _ a =>
        if State.counterLimit ≤ a.address o then none
        else (a.addEffect (.cntAdd (a.address o) (a.g o.b).toNat)).map fun b => (s, b)
  else .next s

/-- CNT_FRAME (R110): effect, 1 and the frame length added to a counter pair; the row of X[0] = 1. -/
def execCntFrame (w : Nat) (o : AwlOp) (s : State) : Out :=
  if o.x.getLsbD 0 = true then
    s.runAwl 0x28 { a := true, b := true, x := true, imm := true } w o 1
      fun s _ a =>
        if State.counterLimit ≤ a.address o + 1 then none
        else (a.addEffect (.cntFrame (a.address o))).map fun b => (s, b)
  else .next s

/-- MTR (R110, R119): effect, a charge of a meter with mode X[1:0]. -/
def execMtr (w : Nat) (o : AwlOp) (s : State) : Out :=
  s.runAwl 0x29 { a := true, x := true, imm := true } w o 1
    fun s _ a =>
      if 262144 ≤ a.address o then none
      else (a.addEffect (.meter (a.address o) (o.x.toNat % 4))).map fun b => (s, b)

/-- FWD (R110): a copy to a queue; X[0] strips the outer VLAN tag. -/
def execFwd (w : Nat) (o : AwlOp) (s : State) : Out :=
  s.runAwl 0x30 { a := true, x := true, imm := true } w o 1
    fun s _ a => (a.addCopies s [⟨a.address o, o.x.getLsbD 0, false⟩]).map fun b => (s, b)

/-- REP (R110, R117): a copy for each valid entry of a copy list; X[0] skips the ingress source; 2 + ⌈v/4⌉ clocks. -/
def execRep (w : Nat) (o : AwlOp) (s : State) : Out :=
  s.runAwl 0x31 { a := true, b := true, x := true, imm := true } w o 2
    fun s p a =>
      if 16384 ≤ a.address o then none
      else
        let cs := s.listCopies (a.address o) ((a.g o.b).toNat % 8) p.src (o.x.getLsbD 0)
        (a.addCopies s cs).map fun b => (s, { b with cycles := b.cycles + ceilDiv (s.listValid (a.address o)) 4 })

/-- MIR (R110): a copy of the frame as received. -/
def execMir (w : Nat) (o : AwlOp) (s : State) : Out :=
  s.runAwl 0x32 { a := true, imm := true } w o 1
    fun s _ a => (a.addCopies s [⟨a.address o, false, true⟩]).map fun b => (s, b)

/-- DROP (R110): every copy added so far goes, with their replication entries. -/
def execDrop (w : Nat) (o : AwlOp) (s : State) : Out :=
  s.runAwl 0x33 {} w o 1
    fun s _ a => some (s, { a with copies := [], effects := a.effects.filter fun e => e != .replicate })

/-- SPL (R110, R120, R177): an R-TAG with number 0 inserted where the window has none, and a copy to g[A] and to g[B]; the generation function is remembered. -/
def execSpl (w : Nat) (o : AwlOp) (s : State) : Out :=
  s.runAwl 0x34 { a := true, b := true, imm := true } w o 2
    fun s p a => (a.split s p (o.imm.toNat % 262144) (a.g o.a).toNat (a.g o.b).toNat).map fun b => (s, b)

/-- RCV (R110, R178): effect, recovery by a function with the R-TAG number in the window; X[0] deletes the R-TAG. -/
def execRcv (w : Nat) (o : AwlOp) (s : State) : Out :=
  s.runAwl 0x35 { x := true, imm := true } w o 1
    fun s p a => (a.recoverBy p (o.imm.toNat % 262144) (o.x.getLsbD 0)).map fun b => (s, b)

/-- PCD (R110, R124): effect, a postcard to target X[3:0]. -/
def execPcd (w : Nat) (o : AwlOp) (s : State) : Out :=
  s.runAwl 0x38 { x := true } w o 1
    fun s _ a => (a.addEffect (.postcard (o.x.toNat % 16))).map fun b => (s, b)

/-- SVI (R110, R125): effect, 64 bytes inserted that are filled at egress. -/
def execSvi (w : Nat) (o : AwlOp) (s : State) : Out :=
  s.runAwl 0x39 { a := true, imm := true } w o 2
    fun s _ a => (a.insertBytes (a.address o) (List.replicate 64 0#8)).bind fun b =>
      (b.addEffect (.inBand (a.address o))).map fun c => (s, c)

/-- TSR (R110): D = raw time, or sync time of a domain in ns modulo 2^64; X above 4 is a program fault. -/
def execTsr (w : Nat) (o : AwlOp) (s : State) : Out :=
  s.runAwl 0x3A { d := true, x := true } w o 4
    fun s _ a =>
      if o.x = 0 then some (s, a.setG o.d s.raw)
      else if 4 < o.x.toNat then none
      else some (s, a.setG o.d (BitVec.ofInt 64 (s.syncNs (o.x.toNat - 1))))

end Sys2Proof.Machine
end

