-- ==== Sys2Proof/Machine/Bridge.lean ====
section
/-! DEFINITION. The default bridge: what a packet that runs it yields (R131, R132, R171 to R175). -/

namespace Sys2Proof.Machine

/-- A frame addressed to 01-80-C2-00-00-00 to 01-80-C2-00-00-0F (R132). -/
def reservedGroup (w : List Byte) : Bool := beField w 0 6 / 16 == 0x0180C200000

/-- The queue of egress source `e` in class `c` (R56). -/
def egressQueue (e c : Nat) : Nat := if e < 512 then 8 * e + c else 4096 + 8 * (e - 512) + c

/-- The identification key fields below the addresses: DSCP, protocol, ports (R171). -/
def idLow (w : List Byte) (ip : IpInfo) : Nat :=
  let dscp := if ip.v6 then beNat (fieldIn w ip.start 2) / 64 % 64 else beNat (fieldIn w (ip.start + 1) 1) / 4
  let ports := (ip.proto == some 6 || ip.proto == some 17) && !ip.nonFirst
  let port (i : Nat) : Nat := if ports then beNat (fieldIn w (ip.l4 + i) 2) else 0
  dscp * 2 ^ 40 + ip.proto.getD 0 % 256 * 2 ^ 32 + port 0 * 2 ^ 16 + port 2

/-- IPv4 key of exact table 7 (R171). -/
def idKey4 (w : List Byte) (vid : Nat) (ip : IpInfo) : Nat :=
  vid * 2 ^ 110 + beNat (fieldIn w (ip.start + 12) 4) * 2 ^ 78 + beNat (fieldIn w (ip.start + 16) 4) * 2 ^ 46 + idLow w ip

/-- Key of ternary partition 15; an IPv4 address in its IPv4-mapped form (R171). -/
def idKey6 (w : List Byte) (vid : Nat) (ip : IpInfo) : Nat :=
  let mapped (i : Nat) : Nat := if i + 4 ≤ w.length then 0xFFFF * 2 ^ 32 + beNat (fieldIn w i 4) else 0
  let src := if ip.v6 then beNat (fieldIn w (ip.start + 8) 16) else mapped (ip.start + 12)
  let dst := if ip.v6 then beNat (fieldIn w (ip.start + 24) 16) else mapped (ip.start + 16)
  vid * 2 ^ 302 + src * 2 ^ 174 + dst * 2 ^ 46 + idLow w ip

namespace State

/-- One exact lookup of the bridge: the entry's data, and the table with a hit marked; none on an unused table (R112). -/
def bridgeLook (s : State) (t key : Nat) : Option (State × Option Nat) :=
  if s.xmBits t = 0 then none else some (s.xmTouch t key, (s.xmFind t key).map XmEntry.data)

/-- One method of R173: none where its table or partition is unused. -/
def idTry (s : State) (m : Nat) (w : List Byte) (vid : Nat) (ip : Option IpInfo) : Option (State × Option Nat) :=
  if m = 3 then
    match ip with
    | some i => if i.v6 then some (s, none) else s.bridgeLook 7 (idKey4 w vid i)
    | none => some (s, none)
  else if m = 4 then
    match ip with
    | some i => if s.reg Ix.tcPartSize 16 = 0 then none else some (s, s.tcLookup 15 (idKey6 w vid i))
    | none => some (s, none)
  else if m = 2 then s.bridgeLook 6 (vid * 2 ^ 48 + beField w 0 6)
  else if m = 0 then s.bridgeLook 4 (vid * 2 ^ 48 + beField w 0 6)
  else s.bridgeLook 5 (vid * 2 ^ 48 + beField w 6 6)

/-- The enabled methods in the order of R173, up to the first hit. -/
def identify (s : State) (w : List Byte) (vid : Nat) (ip : Option IpInfo) : List Nat → Option (State × Option Nat)
  | [] => some (s, none)
  | m :: ms =>
    match s.idTry m w vid ip with
    | none => none
    | some (s1, some d) => some (s1, some (d % 262144))
    | some (s1, none) => s1.identify w vid ip ms

/-- A used function number of a stream handle's word (R174). -/
def usedField (v n : Nat) : Option Nat := if bit v 31 then some (v % 2 ^ n) else none

/-- A used split egress of a stream handle (R174). -/
def usedEgress (v : Nat) : Option Nat := if bit v 15 then some (v % 1024) else none

/-- The rewrite of R175 step 4: destination MAC, VID and PCP of the outer header, a C-tag inserted into an untagged frame. -/
def rewriteHeader (a : Awl) (rec_ : Nat) : Option Awl :=
  let mac := leBytes 6 (rec_ / 256 ^ 24)
  let pcp := rec_ / 256 ^ 21 % 8
  let vid := rec_ / 256 ^ 22 % 4096
  let base := if beField a.window 12 2 = 0x8100 then some a else a.insertBytes 12 (beBytes 4 0x81000000)
  base.map fun b =>
    let dei := beField b.window 14 2 / 4096 % 2
    { b with window := patch (patch b.window 0 mac) 14 (beBytes 2 (pcp * 8192 + dei * 4096 + vid)) }

/-- R175, steps 1 to 5: the awl after them and whether the frame was split; none on a program fault. -/
def streamSteps (s : State) (p : Packet) (a : Awl) (rec_ : Nat) : Option (Awl × Bool) :=
  let f (i n : Nat) : Nat := rec_ / 256 ^ i % 256 ^ n
  let step1 := match usedField (f 8 4) 18 with
    | some fn => a.recoverBy p fn false
    | none => some a
  let step2 := step1.bind fun b =>
    match usedField (f 4 4) 18 with
    | some fn => b.recoverBy p fn (bit (f 20 1) 1)
    | none => some b
  let step3 := step2.map fun b =>
    match usedField (f 12 4) 16 with
    | some n => { b with md := patch b.md 60 (leBytes 4 (2147483648 + n)) }
    | none => b
  let step4 := step3.bind fun b => if bit (f 20 1) 2 then rewriteHeader b rec_ else some b
  step4.bind fun b =>
    match usedField (f 0 4) 18, usedEgress (f 16 2), usedEgress (f 18 2) with
    | some fn, some ea, some eb => (b.split s p fn (egressQueue ea p.cls) (egressQueue eb p.cls)).map fun c => (c, true)
    | _, _, _ => some (b, false)

/-- A frame the bridge drops is counted against its drop reason (R132). -/
def bridgeDrop (s : State) (a : Awl) (reason : Nat) : AwlStep :=
  (a.addEffect (.cntFrame (8192 + 2 * reason))).map fun b => (s, b)

/-- The member set of a copy list holds egress source `src` (R117). -/
def inList (s : State) (list src : Nat) : Bool :=
  (List.range 64).any fun i =>
    let e := s.record Ix.copyList 0 list / 65536 ^ i % 65536
    bit e 15 && e % 1024 == src

/-- Learning (R132): the source MAC is inserted when it is missing or has moved, unless it is static or the VLAN learns
nothing. -/
def bridgeLearn (s : State) (p : Packet) (a : Awl) (vid vlan : Nat) : AwlStep :=
  if bit vlan 14 then some (s, a)
  else
    let key := vid * 2 ^ 48 + beField p.window 6 6
    match s.bridgeLook 1 key with
    | none => none
    | some (s1, e) =>
      let wanted := match e with
        | some d => !bit d 63 && d % 1024 != p.src
        | none => true
      if wanted then (a.addEffect (.xmInsert 1 key p.src)).map fun b => (s1, b) else some (s1, a)

/-- Forwarding (R132): the known unicast copy, the hairpin drop, or the flood, with the VID count. `vlan` is the VLAN
entry of the VID used, if there is one. -/
def bridgeForward (s : State) (p : Packet) (a : Awl) (vid : Nat) (vlan : Option Nat) : AwlStep :=
  let dst := beField a.window 0 6
  let found : Option (State × Option Nat) :=
    if dst / 2 ^ 40 % 2 = 1 then some (s, none) else s.bridgeLook 1 (vid * 2 ^ 48 + dst)
  match found with
  | none => none
  | some (s1, some d) =>
    let e := d % 1024
    if e = p.src then s1.bridgeDrop a 4
    else
      match s1.bridgeLook 3 (e * 4096 + vid) with
      | none => none
      | some (s2, x) =>
        (a.addEffect (.cntFrame (2 * vid))).bind fun b =>
          (b.addCopies s2 [⟨egressQueue e p.cls, bit (x.getD 0) 0, false⟩]).map fun c => (s2, c)
  | some (s1, none) =>
    (a.addEffect (.cntFrame (2 * vid))).bind fun b =>
      match vlan with
      | some v => (b.addCopies s1 (s1.listCopies (v % 16384) p.cls p.src true)).map fun c => (s1, c)
      | none => some (s1, b)

/-- After the checks on receipt: learning, identification, the stream's functions, forwarding (R132, R173, R175). -/
def bridgeOn (s : State) (p : Packet) (a : Awl) (vid vlan : Nat) : AwlStep :=
  (s.bridgeLearn p a vid vlan).bind fun r =>
    let order := [3, 4, 2, 0, 1].filter fun m => bit (s.programOf p).methods m
    (r.1.identify p.window vid (ipInfo p.rtag p.window) order).bind fun i =>
      let rec_ := (i.2.map fun h => s.record Ix.streamHandle 0 h).getD 0
      if bit (rec_ / 256 ^ 20 % 256) 0 = false then i.1.bridgeForward p r.2 vid (some vlan)
      else
        (i.1.streamSteps p r.2 rec_).bind fun t =>
          let moved := bit (rec_ / 256 ^ 20 % 256) 2
          let vid1 := if moved then beField t.1.window 14 2 % 4096 else vid
          if t.2 then (t.1.addEffect (.cntFrame (2 * vid1))).map fun b => (i.1, b)
          else if moved then (i.1.bridgeLook 0 vid1).bind fun v => v.1.bridgeForward p t.1 vid1 v.2
          else i.1.bridgeForward p t.1 vid1 (some vlan)

/-- The default bridge (R132): the awl as it stands at the yield. Its clocks are a free value. -/
def bridge (s : State) (p : Packet) (a : Awl) : AwlStep :=
  let a := { a with cycles := a.cycles + Config.freeNat s.draws }
  ({ s with draws := s.draws + 1 }.bridgeLook 2 p.src).bind fun port =>
    let pd := port.2.getD 0
    let tagVid := if beField p.window 12 2 = 0x8100 then beField p.window 14 2 % 4096 else 0
    let vid := if tagVid = 0 then pd % 4096 else tagVid
    (port.1.bridgeLook 0 vid).bind fun vl =>
      if tagVid = 0 ∧ bit pd 12 then vl.1.bridgeDrop a 0
      else
        match vl.2 with
        | none => vl.1.bridgeDrop a 2
        | some v =>
          if bit pd 13 ∧ vl.1.inList (v % 16384) p.src = false then vl.1.bridgeDrop a 1
          else if reservedGroup p.window then vl.1.bridgeDrop a 3
          else vl.1.bridgeOn p a vid v

/-- The handle and packet of a running awl whose packet runs the default bridge. -/
def bridgeAt (s : State) (w : Nat) : Option (Nat × Packet) :=
  if s.running (rigIsland (w / 256)) = false then none
  else
    match (s.awl w).pkt with
    | none => none
    | some h =>
      match s.pkt? h with
      | some p => if (s.programOf p).isDefault then some (h, p) else none
      | none => none

end State
end Sys2Proof.Machine
end

