-- ==== Sys2Proof/Machine/AwlFlow.lean ====
section
/-! DEFINITION. Awl instructions that jump, and the yield (R110, R82). -/

namespace Sys2Proof.Machine

/-- BR (R110): jumps to IMM[12:0]. -/
def execBr (w : Nat) (o : AwlOp) (s : State) : Out :=
  s.runAwl 0x40 { imm := true } w o 2
    fun s _ a => jumpStep true (o.imm.toNat % 8192) 0 s a

/-- BZ (R110): jumps if g[A] = 0. -/
def execBz (w : Nat) (o : AwlOp) (s : State) : Out :=
  s.runAwl 0x41 { a := true, imm := true } w o 1
    fun s _ a => jumpStep (a.g o.a == 0) (o.imm.toNat % 8192) 1 s a

/-- BNZ (R110): jumps if g[A] ≠ 0. -/
def execBnz (w : Nat) (o : AwlOp) (s : State) : Out :=
  s.runAwl 0x42 { a := true, imm := true } w o 1
    fun s _ a => jumpStep (a.g o.a != 0) (o.imm.toNat % 8192) 1 s a

/-- BF (R110): jumps if F = 1. -/
def execBf (w : Nat) (o : AwlOp) (s : State) : Out :=
  s.runAwl 0x43 { imm := true } w o 1
    fun s _ a => jumpStep a.flag (o.imm.toNat % 8192) 1 s a

/-- BNF (R110): jumps if F = 0. -/
def execBnf (w : Nat) (o : AwlOp) (s : State) : Out :=
  s.runAwl 0x44 { imm := true } w o 1
    fun s _ a => jumpStep (!a.flag) (o.imm.toNat % 8192) 1 s a

/-- CALL (R110): D = address + 1; jumps to IMM[12:0]. -/
def execCall (w : Nat) (o : AwlOp) (s : State) : Out :=
  s.runAwl 0x45 { d := true, imm := true } w o 2
    fun s _ a => jumpStep true (o.imm.toNat % 8192) 0 s (a.setG o.d (BitVec.ofNat 64 a.pc))

/-- JR (R110, R112): jumps to g[A][12:0]; a target at or above the instruction count is a program fault. -/
def execJr (w : Nat) (o : AwlOp) (s : State) : Out :=
  s.runAwl 0x46 { a := true } w o 2
    fun s p a =>
      let t := (a.g o.a).toNat % 8192
      if (s.programOf p).instrs.length ≤ t then none else jumpStep true t 0 s a

/-- YLD (R82): the packet ends and its result goes to the keeper of the ingress sector. The default bridge, whose
instructions the spec does not list, ends a packet with the result of R132 and R175. -/
def execYld (w : Nat) (o : AwlOp) (s : State) : Out :=
  if s.sectorPresent (w / 256) = false then .next s
  else
    match s.bridgeAt w with
    | some (h, p) =>
      if usesOk {} o = false then .next s
      else
        match s.bridge p (s.awl w) with
        | some (s1, a) =>
          let t := match s1.yieldResult w a with
            | some r => s1.giveResult w h r
            | none => s1.programFault w h p a.cycles
          .next ({ s with draws := s1.draws }.withinLimit w a.cycles t)
        | none => .next (s.programFault w h p (s.awl w).cycles)
    | none =>
      match s.awlAt w (awlWord 0x7F o) with
      | none => .next s
      | some (h, p) =>
        let a := { s.awl w with cycles := (s.awl w).cycles + 1 }
        let fault := s.programFault w h p a.cycles
        let t := if usesOk {} o = false then fault
          else
            match s.yieldResult w a with
            | some r => s.giveResult w h r
            | none => fault
        .next (s.withinLimit w a.cycles t)

end Sys2Proof.Machine
end

