-- ==== Sys2Proof/Machine/HostUnits.lean ====
section
/-! DEFINITION. When a channel may start a unit, its hand-over point, and the pacing level (R336, R342 to R345,
R355 to R357). -/

namespace Sys2Proof.Machine

/-! ### Pacing (R345) -/

/-- Units of the pacing level in a byte: R_bus × share / 1,024 in bytes per ru is a whole number of these. -/
def paceUnit : Int := 8724152320000

/-- LPDDR4X transfer rate in MT/s by its code (R427). -/
def memRate (code : Nat) : Nat := if code = 0 then 3200 else if code = 1 then 3733 else 4266

namespace State

/-- What a share of 1 brings in 1 ru on a channel's target bus (R345): link width × rate × 128/130 ÷ 8 from 8 GT/s up,
× 8/10 ÷ 8 below it; 16 bytes × the configured rate of LPDDR4X. -/
def paceGain (s : State) (e : List Byte) : Nat :=
  if entBus e = 1 then 2080 * memRate s.mm.rate
  else if 8000 ≤ s.ho.rate then s.ho.width * s.ho.rate * 16
  else s.ho.width * s.ho.rate * 13

/-- The level of channel `c` now. -/
def paceLevel (s : State) (c : Nat) (e : List Byte) : Int :=
  let x := s.channel c
  min ((entPaceBurst e : Int) * paceUnit)
    (x.level + ((s.paceGain e * entShare e : Nat) : Int) * ((s.rawTotal - x.levelAt : Nat) : Int))

/-- The level is brought up to now. -/
def settlePace (s : State) (c : Nat) : State :=
  match (s.channel c).entry with
  | some e => s.setChannel c { s.channel c with level := s.paceLevel c e, levelAt := s.rawTotal }
  | none => s

/-- Every channel's level is brought up to now: the link trains again (R345). -/
def settleAllPaces (s : State) : State := (tkeys s.ho.channels).foldl settlePace s

/-- A chunk may begin under the channel's pacing. -/
def paceAllows (s : State) (c : Nat) (e : List Byte) : Bool := entShare e == 1024 || decide (0 ≤ s.paceLevel c e)

/-- A chunk of `n` bytes on the target bus begins. -/
def chargePace (s : State) (c : Nat) (e : List Byte) (n : Nat) : State :=
  if entShare e = 1024 then s
  else
    let s1 := s.settlePace c
    s1.setChannel c { s1.channel c with level := (s1.channel c).level - (n : Int) * paceUnit }

/-! ### Starting a unit -/

/-- A channel takes descriptors: its entry is cached, valid and enabled, it is not halted or halting, and no invalidation
waits (R304, R331, R333, R352). -/
def chanReady (s : State) (c : Nat) : Option (List Byte) :=
  let x := s.channel c
  match s.chanEntry c with
  | some e =>
    if entKind e = 0 ∨ x.halting.isSome ∨ x.dropping ∨ s.reg Ix.chHaltCause (c + 1) ≠ 0 then none else some e
  | none => none

/-- DMA mode in force (R344). -/
def dmaMode (s : State) : Nat := s.ho.dmaOper.getD (if s.variant = .tvr8128 then 0 else 1)

/-- Some unit of the device has transfers under way, or a unit that ran waits at the head of its channel for its
write-back: in single-file mode no other unit starts (R343). -/
def unitRuns (s : State) : Bool :=
  s.ho.channels.any fun e => e.2.units.any HUnit.transferring || (e.2.units.head?.any fun u => u.stage == .finished)

/-- A ring's gather waits: ring gathers and scatters go ahead of every channel (R259, R307). -/
def ringsAhead (s : State) : Bool :=
  s.ri.rings.any (fun e => (e.2.gathered.any fun g => g.2.isNone)) || s.ri.pairs.any (fun e => e.2.inputs.any fun g => g.2.isNone)

/-- Channel `c` may start a unit now (R324, R343, R344, R355). -/
def mayStart (s : State) (c : Nat) : Bool :=
  s.hostPowered && s.ho.dmaNext.isNone &&
    !(s.regB Ix.chShadowArm (c + 1) && (s.channel c).units.any HUnit.transferring) &&
    (s.dmaMode == 1 || !s.unitRuns)

/-- Every earlier unit of the channel has completed its data (R336). -/
def earlierDone (s : State) (c first : Nat) : Bool :=
  ((s.channel c).units.takeWhile fun u => u.first != first).all fun u => u.stage == .finished

/-- No unit accepted in an earlier turn of the arbiter still has its move or its frame to begin, unless a barrier, a shadow or
single-file mode keeps it (R307). -/
def inTurn (s : State) (u : HUnit) : Bool :=
  s.ho.channels.all fun e => match e.2.units.find? fun v => v.stage == .accepted with
    | some v => decide (u.turn ≤ v.turn) || v.kind == 1 || !s.mayStart e.1 ||
        (v.kind == 2 && bit (dClass v.last.2) 0 && !s.earlierDone e.1 v.first)
    | none => true

/-- The fields of R330 that a shadow may replace. -/
def withShadow (e sh : List Byte) : List Byte :=
  e.take 3 ++ slice sh 3 3 ++ slice e 6 14 ++ slice sh 20 4 ++ slice e 24 12 ++ slice sh 36 17 ++ slice e 53 1 ++ slice sh 54 10 ++
    slice e 64 64

/-- An entry copied or loaded is checked; an invalid one leaves the channel HALTED with cause 5 (R331). -/
def takeEntry (s : State) (c : Nat) (e : List Byte) : State :=
  let s1 := s.count32 Ix.chEpoch (c + 1) 1
  let x := s1.channel c
  if entValid e then s1.setChannel c { x with entry := some e, entryBad := false, used := s.rawTotal }
  else (s1.setChannel c { x with entry := some e, entryBad := true, used := s.rawTotal }).setReg Ix.chHaltCause (c + 1) 5

/-- The hand-over point: channel `c` starts the unit whose first descriptor is `first` (R355). Where the copied fields fail
their check the channel stops with cause 5 and its units that have not started are aborted. -/
def handOver (s : State) (c first : Nat) : State :=
  match (s.channel c).entry with
  | some e =>
    if s.regB Ix.chShadowArm (c + 1) then
      let s0 := s.settlePace c
      let e1 := withShadow e (leBytes 128 (s.reg Ix.chShadow (c + 1)))
      let s1 := ((s0.setReg Ix.chShadowArm (c + 1) 0).setReg Ix.chEpochIndex (c + 1) first).takeEntry c e1
      if entValid e1 then s1 else (s1.setReg Ix.chHaltCause (c + 1) 0).haltChannel c 5 first
    else s
  | none => s

/-- The unit starts, with the changes `f`, unless its hand-over stops the channel. -/
def startUnit (s : State) (c first : Nat) (f : HUnit → HUnit) : State :=
  let s1 := s.handOver c first
  if (s1.channel c).entryBad then s1
  else
    let x := s1.channel c
    (s1.setChannel c { x with used := s1.rawTotal }).modUnit c first fun u => { f u with stage := .started }

/-- Pieces of at most 4,096 bytes of `n` bytes from offset `off` (R342). -/
def pieces : Nat → Nat → Nat → List (Nat × Nat)
  | 0, _, _ => []
  | fuel + 1, off, n =>
    if n = 0 then [] else if n ≤ 4096 then [(off, n)] else (off, 4096) :: pieces fuel (off + 4096) (n - 4096)

/-- The chunks of `n` bytes from offset 0. -/
def chunksOf (n : Nat) : List (Nat × Nat) := pieces (n / 4096 + 1) 0 n

end State
end Sys2Proof.Machine
end

