-- ==== Sys2Proof/Machine/Wake.lean ====
section
/-! DEFINITION. Sleeping and waking transmit directions, and wake patterns (R388, R402 to R405). -/

namespace Sys2Proof.Machine

/-- Transmit wake time in ns of a port mode (R404); 1000BASE-X never sleeps. -/
def wakeNs (mode : Nat) : Nat := if mode = 2 then 2000 else if mode = 5 then 4000 else 1500

namespace State

def portLink (s : State) (p : Nat) : PortLink := tgetD s.ln.ports p {}
def setPortLink (s : State) (p : Nat) (x : PortLink) : State := { s with ln := { s.ln with ports := tput {} s.ln.ports p x } }
def lane (s : State) (l : Nat) : Lane := tgetD s.ln.lanes l {}
def setLane (s : State) (l : Nat) (x : Lane) : State := { s with ln := { s.ln with lanes := tput {} s.ln.lanes l x } }

/-- Bit `b` of LANE_STATUS of lane `l` becomes `v`. -/
def setLaneStatus (s : State) (l b : Nat) (v : Bool) : State :=
  s.setReg Ix.laneStatus (l + 1) ((if v then setBit else clearBit) (s.reg Ix.laneStatus (l + 1)) b)

/-- A transmit direction stops sleeping: each lane's time asleep is added (R402). -/
def endTxSleep (s : State) (p : Nat) : State :=
  (s.portLanes p).foldl (fun t l =>
    (t.setLaneStatus l 4 false).count Ix.laneTxSleepTime (l + 1) (t.since (t.lane l).txSince / 65536)) s

/-- A sleeping transmit direction begins to wake (R403, R404): counted, and frames wait for the wake time. -/
def wakePort (s : State) (p : Nat) : State :=
  let x := s.portLink p
  if x.asleep then
    let done := s.rawTotal + ns (wakeNs (s.reg Ix.portMode (p + 1)))
    ((s.endTxSleep p).setPortLink p { x with asleep := false, wakeDone := some done }).count Ix.portTxWakes (p + 1) 1
  else s

/-- A wake is complete: a frame may begin. -/
def awake (s : State) (p : Nat) : Bool :=
  let x := s.portLink p
  !x.asleep && (match x.wakeDone with | some t => decide (t ≤ s.rawTotal) | none => true)

/-- The bytes of a frame a mask selects, in frame order; none where the frame lacks one of them. -/
def selectedBytes (mask : Nat) (frame : List Byte) : Option (List Byte) :=
  let sel := (List.range 1024).filter (bit mask ·)
  if sel.all fun j => decide (j < frame.length) then some (sel.map fun j => frame.getD j 0#8) else none

/-- Pattern `n` matches a frame (R388). -/
def patternMatches (s : State) (n : Nat) (frame : List Byte) : Bool :=
  let mask := s.reg Ix.wakeMask (n + 1)
  mask != 0 &&
    match selectedBytes mask frame with
    | some bs => crc16 bs == s.reg Ix.wakeCrc (n + 1)
    | none => false

/-- A good frame at a data port, or at the management port (none), is checked against the eight patterns (R388). -/
def wakePatterns (s : State) (port : Option Nat) (frame : List Byte) : State :=
  (List.range 8).foldl (fun t n =>
    if s.patternMatches n frame then
      let act := s.reg Ix.wakeAction (n + 1)
      let t1 := t.count Ix.wakeMatches (n + 1) 1
      let t2 := match port with
        | some p => if bit act 0 then t1.wakePort p else t1
        | none => t1
      let t3 := if bit act 1 then (tkeys t2.ln.ports).foldl wakePort t2 else t2
      if bit act 2 then t3.request (s.reg Ix.wakeVector 0) s.rawTotal else t3
    else t) s

end State
end Sys2Proof.Machine
end

