-- ==== Sys2Proof/Machine/LaneOps.lean ====
section
/-! DEFINITION. Lanes: their states, timers, anchors and what a change does to their port (R393 to R401, R408). -/

namespace Sys2Proof.Machine
namespace State

/-- The formed port lane `l` belongs to (R32, R34). -/
def lanePort (s : State) (l : Nat) : Option Nat :=
  let mode (p : Nat) : Nat := s.reg Ix.portMode (p + 1)
  if mode l ≠ 0 ∧ mode l ≠ 8 then some l
  else if mode (l / 4 * 4) = 7 then some (l / 4 * 4)
  else if mode (l / 2 * 2) = 6 then some (l / 2 * 2)
  else none

/-- Mode of the port lane `l` belongs to; 0 for none. -/
def laneMode (s : State) (l : Nat) : Nat :=
  match s.lanePort l with
  | some p => s.reg Ix.portMode (p + 1)
  | none => 0

/-- The conditions for leaving OFF (R396); a retaining reset keeps the lanes (R195); a calibration holds its port's lanes in
OFF (R222, R397); after a test instruction no lane works until a power-on or device reset (R409). -/
def laneMayRun (s : State) (l : Nat) : Bool :=
  match s.lanePort l with
  | some p =>
    s.regB Ix.laneEnable (l + 1) && s.reg Ix.laneRefStatus (l / 32 + 1) == 1 && (s.running (l / 32) || s.sy.retaining) &&
      s.reg Ix.tsCalStatus (p + 1) != 1 && !s.sy.tap.tested
  | none => false

def laneState (s : State) (l : Nat) : Nat := s.reg Ix.laneState (l + 1)

/-- Lane `l` enters a state. -/
def enterLane (s : State) (l st : Nat) : State :=
  (s.setReg Ix.laneState (l + 1) st).setLane l { s.lane l with entered := s.rawTotal }

/-- A lane is in TEST by its test mode (R408): PRBS, or far-end loopback. -/
def laneTests (s : State) (l : Nat) : Bool :=
  let m := s.reg Ix.laneTestMode (l + 1)
  m == 1 || m == 3

/-- The coefficients in use become the lane's anchors (R396, R401). -/
def recordAnchors (s : State) (l : Nat) : State := s.setReg Ix.laneRxAnchor (l + 1) (s.reg Ix.laneRxCoeff (l + 1))

/-- Adaptation begins (R395): the start code of the CTLE, and every DFE tap at 0; the gain code it begins at is not stated. -/
def startCoeffs (s : State) (l : Nat) : State :=
  let c := s.reg Ix.laneRxCtleStart (l + 1)
  let ctle := if c = 0xFF then Config.ctleDefault (s.laneMode l) else BitVec.ofNat 8 c
  s.setReg Ix.laneRxCoeff (l + 1) (leNat [ctle, Config.gainStart (s.laneMode l)])

/-- Receive sleep of lane `l` ends: its time is added (R402). -/
def endRxSleep (s : State) (l : Nat) : State :=
  let x := s.lane l
  if x.rxAsleep then
    ((s.setLane l { x with rxAsleep := false, quiet := none }).setLaneStatus l 3 false).count Ix.laneRxSleepTime (l + 1)
      (s.since x.rxSince / 65536)
  else s.setLane l { x with quiet := none }

/-- Receive sleep of lane `l` begins (R402). -/
def beginRxSleep (s : State) (l : Nat) : State :=
  let x := s.lane l
  if x.rxAsleep then s else (s.setLane l { x with rxAsleep := true, rxSince := s.rawTotal }).setLaneStatus l 3 true

/-- The idle guard of lane `l` ends: its time counts in the anchor refresh period (R400, R401). -/
def endGuard (s : State) (l : Nat) : State :=
  let x := s.lane l
  if x.guard then
    (s.setLane l { x with guard := false, guardTime := x.guardTime + s.since x.guardSince }).setLaneStatus l 2 false
  else s

/-- Frame data reaches a port's lanes: their idle guard ends (R400). -/
def laneData (s : State) (p : Nat) : State :=
  (s.portLanes p).foldl (fun t l => (t.endGuard l).setLane l { (t.endGuard l).lane l with lastData := s.rawTotal }) s

/-- One lane leaves UP for state `st` (R396, R399, R402, R407). -/
def leaveUp (s : State) (l st : Nat) : State :=
  let s1 := ((s.endGuard l).endRxSleep l).countSat Ix.laneLinkDownCount (l + 1) 1
  let s2 := (s1.setReg Ix.laneEyeMargin (l + 1) 0).enterLane l st
  s2.setLane l { s2.lane l with linkTimer := some s.rawTotal, signalSeen := false }

/-- Lane `l` leaves UP for `st`, which is its fault (R192), and every other lane of its port that is UP returns to LOCK with it;
a sleeping transmit direction wakes (R397, R403). -/
def portLeavesUp (s : State) (l st : Nat) : State :=
  match s.lanePort l with
  | some p =>
    let s1 := ((s.wakePort p).leaveUp l st).partFaults (partLane l)
    (s1.portLanes p).foldl (fun t m => if m ≠ l ∧ t.laneState m = 4 then (t.leaveUp m 3).recordAnchors m else t) s1
  | none => s.leaveUp l st

/-- A failure in ADAPT or LOCK: SEEK with a back-off of 1 to 64 ms (R398). -/
def laneFails (s : State) (l : Nat) : State :=
  let x := s.lane l
  let s1 := (s.setLane l { x with backoff := some (s.rawTotal, 2 ^ min x.failures 6), failures := x.failures + 1 }).setLaneStatus l 5 true
  (s1.enterLane l 1).countSat Ix.laneBackoffs (l + 1) 1

/-- Lane `l` goes to OFF (R396, R398, R399): the back-off sequence goes on from where it stood, a back-off that runs ends (DESIGN
CHOICE, notes/assumptions/57.md). -/
def laneOff (s : State) (l : Nat) : State :=
  let s1 := if s.laneState l = 4 then s.portLeavesUp l 0 else if s.laneState l = 0 then s else s.enterLane l 0
  let x := s1.lane l
  let s2 := (s1.setLane l { entered := x.entered, failures := x.failures, revertLogged := x.revertLogged }).setReg
    Ix.laneStatus (l + 1) 0
  s2.setReg Ix.lanePrbsLock (l + 1) 0

/-- Lane `l` leaves OFF: to SEEK, or to TEST as its test mode says (R396, R399, R408); a lane in TEST seeks no partner and runs
no link-up timer (DESIGN CHOICE, notes/assumptions/57.md). -/
def laneLeavesOff (s : State) (l : Nat) : State :=
  let m := s.reg Ix.laneTestMode (l + 1)
  let s1 := s.setLaneStatus l 6 (m == 2 || m == 4)
  if s1.laneTests l then
    let s2 := s1.enterLane l 5
    if m = 1 then s2.startCoeffs l else s2
  else
    let s2 := s1.enterLane l 1
    s2.setLane l { s2.lane l with linkTimer := some s.rawTotal, signalSeen := false }

/-- Lane `l` follows the conditions of OFF (R396). -/
def settleLane (s : State) (l : Nat) : State :=
  if s.laneMayRun l then if s.laneState l = 0 then s.laneLeavesOff l else s
  else if s.laneState l = 0 then s else s.laneOff l

/-- Lanes `ls` follow the conditions of OFF, and their ports what that makes of them. -/
def settleLanes (s : State) (ls ports : List Nat) : State := (ls.foldl settleLane s).settlePorts s ports

/-- Lanes `ls` go through OFF (R394, R397, R408). -/
def lanesThroughOff (s : State) (ls ports : List Nat) : State :=
  ((ls.foldl laneOff s).settlePorts s ports).settleLanes ls ports

/-- The port a lane belongs to, as a list. -/
def portsOfLane (s : State) (l : Nat) : List Nat := (s.lanePort l).toList

/-- The lanes of sector `k`. -/
def sectorLanes (k : Nat) : List Nat := (List.range 32).map (32 * k + ·)

/-- Signed value of coefficient byte `i`: CTLE and gain codes are unsigned, DFE taps are I8 (R395). -/
def coeffAt (v i : Nat) : Int := if i < 2 then ((v / 256 ^ i % 256 : Nat) : Int) else toSigned 8 (v / 256 ^ i % 256)

/-- Coefficient bytes of a port mode (R395): the CTLE and gain codes, and 12 DFE taps, 5 at 10GBASE-R, none at 1000BASE-X. -/
def coeffCount (mode : Nat) : Nat := if mode = 1 then 2 else if mode = 2 then 7 else 14

/-- The coefficients adaptation of lane `l` has reached, as LANE_RX_COEFF shows them: a CTLE code of 5 bits, unused taps 0. -/
def coeffsOf (s : State) (l : Nat) (coeffs : List Byte) : Nat :=
  let b := slice coeffs 0 (coeffCount (s.laneMode l))
  leNat ((b.take 1).map (· &&& 31#8) ++ b.drop 1)

/-- The coefficients adaptation has reached are taken: one at the edge of its window goes back to its anchor, which is
counted, and logged at most once a second (R400). -/
def adaptTo (s : State) (l : Nat) (coeffs : List Byte) : State :=
  let v := s.coeffsOf l coeffs
  let anchor := s.reg Ix.laneRxAnchor (l + 1)
  let window : Int := s.reg Ix.laneAnchorWindow (l + 1)
  let at_ (i : Nat) : Bool := decide (window ≤ (coeffAt v i - coeffAt anchor i).natAbs)
  let above := (List.range 14).filter at_
  let kept := (List.range 14).map fun i => BitVec.ofNat 8 ((if at_ i then anchor else v) / 256 ^ i)
  let s1 := (s.setReg Ix.laneRxCoeff (l + 1) (leNat kept)).count Ix.laneCoeffReverts (l + 1) above.length
  match above with
  | [] => s1
  | i :: _ =>
    let x := s1.lane l
    let quiet := (x.revertLogged.map fun t => decide (s.since t < second)).getD false
    if quiet then s1
    else (s1.setLane l { x with revertLogged := some s.rawTotal }).event Ix.laneCoeffReverts 1 (l / 32) [(2, l), (1, i)]

end State
end Sys2Proof.Machine
end

