-- ==== Sys2Proof/Machine/Intake.lean ====
section
/-! DEFINITION. Creation of handles, the end of frames, and mPackets (R36 to R50, R55 to R58, R68 to R75). -/

namespace Sys2Proof.Machine
namespace State

/-- The receive timestamp of a port (R221). -/
def rxTimestamp (s : State) (p : Nat) (capture : Raw) (pipe : Int) : Raw :=
  capture - BitVec.ofInt 64 (psToRu (pipe + s.regI Ix.tsCalARx (p + 1) 4 + s.regI Ix.tsRxOffset (p + 1) 4))

/-- A frame begins at a receive MAC (R36, R37, R220 to R223). -/
def startRx (s : State) (key p : Nat) (capture : Raw) (pipe : Int) (bytes : List Byte) : State :=
  let during := !s.running (portIsland p)
  let r : RxFrame :=
    { ts := s.rxTimestamp p capture pipe, tsInvalid := s.tsInvalid p, duringReset := during, bytes := bytes, pkt := none,
      failed := false, complete := false, cormusIds := s.cormusIds }
  let s1 := (s.laneData p).setRx key r
  if during then { s1 with fr := { s1.fr with rxDuringReset := tmod 0 s1.fr.rxDuringReset p (· + 1) } } else s1

/-- R of R57 for a received frame. -/
def rxCells (s : State) (p : Nat) : Nat := ceilDiv (s.reg Ix.portMaxFrame (p + 1)) 256

/-- The order domain of a frame (R72, R86). -/
def domainOf (s : State) (src cls chan : Nat) (window : List Byte) (rtag : Nat) : Nat :=
  let flow := s.reg Ix.orderMode (src + 1) == 1
  let bucket := if flow = false then 0
    else if src < 512 then flowBucket rtag (s.reg Ix.flowHashFields (src + 1)) window else chan % 64
  src * 512 + cls * 64 + bucket

/-- A frame's reservation, before its first cell is written (R57). -/
def newPacket (src cls : Nat) (pre : Bool) (bytes : List Byte) (ended : Bool) (ts : Raw) (cells : List Nat) (guarded : Bool)
    (chan unit : Nat) (launch : Option (Int × Nat × Nat)) (tsWanted : Bool) : Packet :=
  { src := src, cls := cls, preempt := pre, chan := chan, unit := unit, home := 0, bytes := bytes, ended := ended,
    len := bytes.length, ts := ts, windowDone := ended, cells := cells,
    account := if src < 512 then 8 * src + cls else 4096 + 8 * (src - 512) + cls, reserved := cells.length,
    guarded := guarded, returned := false, domain := 4294967296, domSeq := 0, rtag := 0, epoch := 0, orderGen := 0,
    flowHash := 0, stage := .reserved, accepted := false, acceptedAt := 0, failed := false, stolen := false,
    redispatched := false, faults := 0, result := none, retireNo := none, toEnqueue := [], decided := false,
    retiredAt := 0, charges := [], drawn := none, dei := false, committed := false, surveyDone := false,
    firstQueue := 0xFFFF, firstSeq := 0, firstDepth := 0, decidedCopies := 0, filterCounts := [], launch := launch,
    launchDue := launch.isNone, tsWanted := tsWanted }

/-- A handle is created in the clock of the first cell write (R68, R69, R72, R73): it takes its order domain, sequence
number, R-TAG EtherType and epoch, and joins its sector's dispatch list. -/
def createHandle (s : State) (p : Packet) : State :=
  let h := s.fr.nextPkt
  let rtag := s.reg Ix.rtagEthertype 0
  let window := p.window
  let d := s.domainOf p.src p.cls p.chan window rtag
  let od := s.orderDomain d
  let home := s.homeSector p.src
  let p1 : Packet :=
    { p with
      home := home, domain := d, domSeq := od.nextSeq, rtag := rtag, epoch := s.reg Ix.programEpoch 0,
      orderGen := tgetD s.fr.orderGens p.src 0, stage := .dispatchList,
      flowHash := if p.src < 512 then flowHash rtag (s.reg Ix.flowHashFields (p.src + 1)) window else crc32c [] }
  let s1 := (s.setPkt h p1).setOrderDomain d { od with nextSeq := (od.nextSeq + 1) % 4294967296 }
  { s1 with
    fr := { s1.fr with
      nextPkt := h + 1
      dispatchQ := tput [] s1.fr.dispatchQ home (tgetD s1.fr.dispatchQ home [] ++ [h]) } }

/-- A frame at a receive MAC fails: counted in one counter, and its handle, if it has one, is treated as R49 and R90 say.
`len` is the length its stored bytes stand for. -/
def rxFails (s : State) (key : Nat) (r : RxFrame) (counter len : Nat) : State :=
  let s1 := (s.count counter (key % 512 + 1) 1).setRx key { r with failed := true }
  match r.pkt with
  | some h => (s1.modPkt h fun p => { p with len := len }).failFrame h
  | none => s1

/-- The copy `c` of queue `q` turns out too long, as the counter `x` says (R44, R312). -/
def dropLong (s : State) (q : Nat) (c : QCopy) (x : Nat × Nat) : State :=
  let s1 := (s.setQueue q ((s.queue q).filter fun d => d.seq != c.seq)).count x.1 x.2 1
  if c.index = 0 then s1.completeSurvey c.pkt 8 else s1

/-- Copies of a frame whose length has just become known, longer than their egress maximum, leave the decision (R44,
R312): those enqueued, and those admitted to a queue. -/
def sizeCheck (s : State) (h : Nat) : State :=
  match s.pkt? h with
  | none => s
  | some p =>
    let long (q ch : Nat) (c : CopySpec) : Option (Nat × Nat) := s.sizeDrop q ch (p.copyLen c)
    let s1 := (s.queuesOf h).foldl (fun t q =>
      ((t.queue q).filter fun c => c.pkt == h).foldl (fun u c =>
        match long q c.chan c.spec with
        | some x => u.dropLong q c x
        | none => u) t) s
    let waits (a : Nat × CopySpec) : Option (Nat × Nat) := long a.2.queue (s.hostChannel p a.2.queue) a.2
    ((p.admitted.filterMap waits).foldl (fun t x => t.count x.1 x.2 1) s1).modPkt h fun k =>
      { k with admitted := k.admitted.filter fun a => (waits a).isNone }

/-- A received frame ends well (R36, R58, R66, R388). -/
def rxAccepts (s : State) (key p h : Nat) (frame : List Byte) : State :=
  let s1 := (s.modPkt h fun q => { q with len := frame.length, ended := true, windowDone := true }).dropRx key
  let s2 := (s1.count Ix.rxAcceptedFrames (p + 1) 1).count Ix.rxAcceptedOctets (p + 1) frame.length
  let s3 := (s2.sizeCheck h).acceptFrame h
  if (s.portLink p).asleep then s3.wakePatterns (some p) frame else s3

/-- A frame's end at the receive MAC: runt, size, FCS (R36, R38). The frame is `frame`, all of it received. One that its port
island has diverted is checked and counted like any other, meets the wake patterns, and goes no further (R225, R374, R388). A cycle frame is the ring
controller's, which counts it (R36, R40, R69). -/
def endRx (s : State) (key p : Nat) (r : RxFrame) (frame : List Byte) : State :=
  if r.failed ∨ r.duringReset ∨ (r.pkt = none ∧ s.isCycleFrame p frame) then s.dropRx key
  else if frame.length < 64 then (s.count Ix.rxRunt (p + 1) 1).dropRx key
  else if s.reg Ix.portMaxFrame (p + 1) < frame.length then s
  else
    match r.pkt with
    | none =>
      if r.diverted then
        (if fcsGood frame then (if (s.portLink p).asleep then s.wakePatterns (some p) frame else s)
         else s.count Ix.rxFcsError (p + 1) 1).dropRx key
      else s
    | some h =>
      let s1 := s.modPkt h fun q => { q with bytes := frame }
      if fcsGood frame then s1.rxAccepts key p h frame
      else (s1.rxFails key r Ix.rxFcsError frame.length).dropRx key

/-! ### mPackets (R45, R46) -/

def pmac (s : State) (p : Nat) : PMac := tgetD s.fr.pmac p {}
def setPmac (s : State) (p : Nat) (x : PMac) : State := { s with fr := { s.fr with pmac := tput {} s.fr.pmac p x } }

/-- The frame being reassembled ends as a reassembly error (R45); `smdFault`: the mPacket's SMD was at fault. One that began
during a reset has been counted as that already (R36). -/
def reassemblyError (s : State) (p : Nat) (smdFault : Bool) : State :=
  let s1 := if smdFault then s.count Ix.pmacSmdError (p + 1) 1 else s
  let s2 := s1.setPmac p { s1.pmac p with reassembling := false }
  match s2.rxFrame? (512 + p) with
  | some r =>
    if r.duringReset then s2.dropRx (512 + p)
    else if r.failed ∨ r.complete then s2
    else
      let s3 := s2.rxFails (512 + p) r Ix.rxReassemblyError ((s2.rxBytes r).length + 4)
      s3.dropRx (512 + p)
  | none => s2

/-- A fragment's data joins the frame being reassembled; the final one completes it (R45). -/
def takeFragment (s : State) (p : Nat) (m : MPacket) : State :=
  match s.rxFrame? (512 + p) with
  | none => s
  | some r =>
    let s1 := s.rxAppend (512 + p) r m.data
    let s2 := match s1.rxFrame? (512 + p) with
      | some r1 => s1.setRx (512 + p) { r1 with complete := m.final }
      | none => s1
    let x := s2.pmac p
    s2.setPmac p { x with nextFrag := (x.nextFrag + 1) % 4, reassembling := !m.final }

end State
end Sys2Proof.Machine
end

