-- ==== Sys2Proof/Machine/Frames.lean ====
section
/-! DEFINITION. Commands of frames at the ports, the scrubber, and intake (chapter 2): RX_FRAME_START to HOLD_LIMIT_EXPIRY. -/

namespace Sys2Proof.Machine
open State

/-- A frame begins at a port's express MAC (R36, R37, R220): the link is up and no frame is being received there. -/
def execRxFrameStart (p : Nat) (capture : Raw) (pipe : Int) (s : State) : Out :=
  if s.portPresent p = false then .next s
  else if s.linkUp p ∧ (s.rxFrame? p).isNone then .next (s.startRx p p capture pipe [])
  else .next s

/-- Byte max + 1 arrives (R36, R39, R49): no further byte is stored and the frame fails. -/
def execOversizeTruncation (p : Nat) (pre : Bool) (rest : List Byte) (s : State) : Out :=
  if s.portPresent p = false then .next s
  else
    match s.rxFrame? (macKey p pre) with
    | none => .next s
    | some r =>
      let bytes := s.rxBytes r ++ rest
      let max := s.reg Ix.portMaxFrame (p + 1)
      if r.failed ∨ r.duringReset ∨ bytes.length ≤ max ∨ (pre = false ∧ bytes.length ≠ max + 1) ∨ (pre ∧ rest ≠ []) then
        .next s
      else
        let s1 := match r.pkt with
          | some h => s.modPkt h fun q => { q with bytes := bytes.take max }
          | none => s
        .next (s1.rxFails (macKey p pre) r Ix.rxOversize (max + 4))

/-- A PCS error block, or an uncorrectable FEC codeword (`fec`), inside a frame (R36, R49). -/
def execPcsCodeError (p : Nat) (pre : Bool) (rest : List Byte) (fec : Bool) (s : State) : Out :=
  if s.portPresent p = false then .next s
  else
    let s0 := if fec then s.count Ix.fecUncorrectedCw (p + 1) 1 else s
    match s.rxFrame? (macKey p pre) with
    | none => .next s0
    | some r =>
      let bytes := s.rxBytes r ++ rest
      if r.failed ∨ r.duringReset ∨ (pre ∧ rest ≠ []) then .next s0
      else if s.reg Ix.portMaxFrame (p + 1) < bytes.length then .next s0
      else
        let s1 := s0.rxAppend (macKey p pre) r rest
        .next (s1.rxFails (macKey p pre) r Ix.rxCodeError (bytes.length + 4))

/-- A frame ends at a receive MAC (R36, R38, R58): `rest` are its last bytes, `corrected` the FEC codewords corrected in it,
which count whether or not the frame is tracked (R66). -/
def execFrameEnd (p : Nat) (pre : Bool) (rest : List Byte) (corrected : Nat) (s : State) : Out :=
  if s.portPresent p = false then .next s
  else
    let s1 := s.count Ix.fecCorrectedCw (p + 1) corrected
    match s.rxFrame? (macKey p pre) with
    | none => .next s1
    | some r =>
      if (pre ∧ (rest ≠ [] ∨ (r.complete = false ∧ r.failed = false ∧ r.duringReset = false))) then .next s1
      else .next ((if pre then s1 else s1.laneData p).endRx (macKey p pre) p r (s.rxBytes r ++ rest))

/-- An mPacket reaches the preemptable MAC (R45, R46) of a port whose island is not in reset (R30). A start mPacket that ends the
frame being reassembled begins no frame of its own (DESIGN CHOICE, notes/assumptions/50.md). -/
def execMpacketReceive (p : Nat) (m : MPacket) (s : State) : Out :=
  if s.portPresent p = false then .next s
  else if s.regB Ix.pmacEnable (p + 1) = false ∨ s.linkUp p = false ∨ s.resetting (portIsland p) then .next s
  else
    let x := s.pmac p
    match m.kind with
    | .verify => .next (s.setPmac p { x with responds := x.responds + 1 })
    | .respond =>
      .next (if s.reg Ix.pmacVerifyStatus (p + 1) = 2 then s.setReg Ix.pmacVerifyStatus (p + 1) 3 else s)
    | .unknown => .next (s.reassemblyError p true)
    | .start frame =>
      let s1 := s.count Ix.pmacFragmentsRx (p + 1) 1
      if x.reassembling then .next (s1.reassemblyError p true)
      else if (s1.rxFrame? (512 + p)).isSome then .next s1
      else
        let s2 := s1.startRx (512 + p) p m.capture m.pipe []
        let s3 := s2.setPmac p { s2.pmac p with smd := frame % 4, nextFrag := 3, reassembling := true }
        if m.longEnough = false ∨ (m.final = false ∧ m.mcrcOk = false) then .next (s3.reassemblyError p false)
        else .next (s3.takeFragment p m)
    | .cont frame fragment =>
      let s1 := (s.laneData p).count Ix.pmacFragmentsRx (p + 1) 1
      if x.reassembling = false then .next (s1.count Ix.pmacSmdError (p + 1) 1)
      else if frame % 4 ≠ x.smd then .next (s1.reassemblyError p true)
      else if fragment % 4 ≠ x.nextFrag ∨ m.longEnough = false ∨ (m.final = false ∧ m.mcrcOk = false) then
        .next (s1.reassemblyError p false)
      else .next (s1.takeFragment p m)

/-- A verify mPacket falls due, or the third attempt has gone unanswered (R46). -/
def execPmacVerifySend (p : Nat) (s : State) : Out :=
  if s.portPresent p = false then .next s
  else
    let x := s.pmac p
    let st := s.reg Ix.pmacVerifyStatus (p + 1)
    let due := x.attempts = 0 ∨ ns (s.reg Ix.pmacVerifyTime (p + 1) * 1000000) ≤ s.since x.lastVerify
    if s.regB Ix.pmacEnable (p + 1) = false ∨ s.regB Ix.pmacVerifyDisable (p + 1) ∨ s.portUp p = false ∨
        (st ≠ 1 ∧ st ≠ 2) ∨ ¬due then .next s
    else if x.attempts < 3 then
      .next ((s.setPmac p { x with attempts := x.attempts + 1, lastVerify := s.rawTotal }).setReg Ix.pmacVerifyStatus (p + 1) 2)
    else .next (s.setReg Ix.pmacVerifyStatus (p + 1) 4)

/-- The runs of corrected passes after a pass that corrected the cells `cs` (R54): the third in a row condemns a cell, and a
pass that does not correct a cell begins its run afresh. -/
def State.endPass (s : State) (cs : List Nat) : State :=
  let kept := (s.fr.cells.map fun e => (e.1, if cs.contains e.1 then e.2 else { e.2 with runs := 0 })).filter fun e => e.2 != {}
  cs.eraseDups.foldl (fun t c =>
    let m := t.cellMark c
    t.setCellMark c { m with runs := m.runs + 1, condemned := m.condemned || decide (3 ≤ m.runs + 1) })
    { s with fr := { s.fr with cells := kept, scrubbed := s.rawTotal } }

/-- One pass of the scrubber, due once BUFFER_SCRUB_PERIOD has passed, with what it meets (R51, R53, R54). A cell that the data
path writes during the pass is not written back. -/
def execBufferScrub (findings : List CellFinding) (s : State) : Out :=
  if s.running 48 = false ∨ s.since s.fr.scrubbed < ns (s.reg Ix.bufferScrubPeriod 0 * 1000000) then .next s
  else
    let r := findings.foldl (fun (a : State × List Nat) f =>
      (a.1.readWord f (!f.written), if a.1.looksCorrected f then a.2 ++ [f.cell] else a.2)) (s, [])
    .next (r.1.endPass r.2)

/-- R of R57 for a host frame of `len` bytes without FCS. -/
def hostCells (len : Nat) : Nat := ceilDiv (max (len + 4) 64) 256

/-- A waiting host frame's reservation is granted, and its fetch starts (R57, R58, R308). -/
def execHostIntakeGrant (c : Nat) (cells : List Nat) (s : State) : Out :=
  match s.chanEntry c, (s.channel c).units.find? fun u => u.stage == .waiting with
  | some e, some u =>
    let src := 512 + entHostPort e
    let acct := 4096 + 8 * entHostPort e + u.cls
    if s.mayStart c ∧ s.intakeGrants acct (hostCells u.length) ∧ s.freeChoice cells (hostCells u.length) then
      let s0 := s.handOver c u.first
      match s0.chanEntry c with
      | none => .next s0
      | some e1 =>
        let h := s0.fr.nextPkt
        let d := (u.descs.head?.map Prod.snd).getD []
        let launch := if bit (dCtl d) 5 then some ((dLaunch d : Int) * 65536, entDomain e1, entLateLimit e1) else none
        let pk := newPacket src u.cls false [] false 0 cells (s.regB Ix.intakeGuarded (acct + 1)) c u.first launch (bit (dCtl d) 6)
        let s1 := s0.setPkt h pk
        let s2 := { s1 with fr := { s1.fr with nextPkt := h + 1 } }
        .next (s2.modUnit c u.first fun v =>
          { v with stage := .started, pkt := some h, todo := (chunksOf u.length).map fun p => .fetch p.1 p.2 })
    else .next s
  | _, _ => .next s

/-- Waiting enqueues of keeper `k` are tried again (R59). -/
def execEnqueueRetry (k : Nat) (s : State) : Out :=
  if s.sectorPresent k then .next (if s.running 48 then s.retryOne k else s) else .next s

/-- The hold limit of a down port expires (R62, R63). A port that is up, or comes up in the same clock, releases nothing. -/
def execHoldLimitExpiry (p : Nat) (s : State) : Out :=
  if s.portPresent p = false then .next s
  else if s.portUp p = false ∧ s.holdReached p ∧ s.running 48 then .next (s.expireHold p)
  else .next s

end Sys2Proof.Machine
end

