-- ==== Sys2Proof/Machine/Access.lean ====
section
/-! DEFINITION. Writes of the dictionary: abort codes (R380), the answer, and the pending store of an island (R19, R31). -/

namespace Sys2Proof.Machine

/-- The state after a write, and its abort code. -/
abbrev Wr := State × Nat

/-! ### Abort codes (R380) -/

namespace Abort
def noSuch : Nat := 0x0101
def beyond : Nat := 0x0102
def readOnly : Nat := 0x0201
def writeOnly : Nat := 0x0202
def locked : Nat := 0x0203
def guardFailed : Nat := 0x0204
def tagRequired : Nat := 0x0205
def outOfRange : Nat := 0x0301
def length : Nat := 0x0302
def tableFull : Nat := 0x0303
def busy : Nat := 0x0401
def applyFull : Nat := 0x0402
def notResettable : Nat := 0x0403
def nothingToAbort : Nat := 0x0404
def malformed : Nat := 0x0501
def unknown : Nat := 0x0502
def notExecuted : Nat := 0x0503
end Abort

/-- A write that takes effect. -/
def Wr.ok (s : State) : Wr := (s, 0)

/-- The outcome of a command that is a dictionary write: its state, and its abort code as the answer. -/
def Wr.out (r : Wr) : Out := .next (r.1.reply { abort := r.2 })

/-- A command field of class SC that names only 0 and 1 (R502). -/
def commandWrite (s : State) (v : Nat) (run : State → Wr) : Wr :=
  if v = 0 then (s, 0) else if v = 1 then run s else (s, Abort.outOfRange)

/-- Bit of MV_STATUS: a read or write of the memory view found it held (R386). -/
def mvUnavailable : Nat := 4

namespace State

/-- The records of a pending TABLE write with record `r` written, in record order. -/
def putRec (l : List (Nat × Nat)) (r v : Nat) : List (Nat × Nat) := tset l r v

/-- A write goes into the pending store of island `i` (R19): in place where the parameter is pending already; a 257th
parameter aborts with "apply buffer full". -/
def pendWrite (s : State) (i idx sub r v : Nat) : Wr :=
  let x := s.island i
  if x.pend.any fun w => w.idx == idx && w.sub == sub then
    (s.setIsland i { x with
      pend := x.pend.map fun w => if w.idx = idx ∧ w.sub = sub then { w with recs := putRec w.recs r v } else w }, 0)
  else if 256 ≤ x.pend.length then (s, Abort.applyFull)
  else (s.setIsland i { x with pend := x.pend ++ [⟨idx, sub, [(r, v)]⟩] }, 0)

/-- An island in reset holds every write pending (R31); the image records that start-up writes before any island runs take
effect as they come (R366). -/
def inReset (s : State) (i : Nat) : Bool := (s.islandState i == 1 || s.islandState i == 2) && s.reg Ix.startPhase 0 == 3

/-- A record write that its island holds pending while it is in reset, else takes effect at once (R31). -/
def recordWrite (s : State) (i idx sub r v : Nat) (now : State → Wr) : Wr :=
  if s.inReset i then s.pendWrite i idx sub r v else now s

/-- A BAR write that arrives while the supervisor restarts or a retaining reset runs is queued, up to 1,024; beyond that it is
dropped and counted (R386, R474). -/
def holdWrite (s : State) (i : Instr) : State :=
  if s.sy.held.length < 1024 then { s with sy := { s.sy with held := s.sy.held ++ [i] } }
  else ({ s with mv := { s.mv with status := setBit s.mv.status mvUnavailable } }).count Ix.mvDroppedWrites 0 1

/-- Bytes a held read of the memory view asks for. -/
def readSize (i : Instr) : Nat :=
  match i with
  | .mvSlotLowRead _ n => n
  | .mvIndDataRead n => n
  | _ => 0

/-- A read of the memory view held for 1 ms completes with all bits set, and bit 4 of MV_STATUS says so (R386). -/
def expireReads (s : State) : State :=
  let late := s.sy.heldReads.filter fun e => decide (second / 1000 ≤ s.since e.2.2)
  late.foldl (fun t e =>
      ({ t with mv := { t.mv with status := setBit t.mv.status mvUnavailable } }).reply { data := List.replicate (readSize e.2.1) 0xFF#8 })
    { s with sy := { s.sy with heldReads := s.sy.heldReads.filter fun e => !late.contains e } }

/-- Dictionary traffic waits (R386, R469, R474, R479): the supervisor restarts, a retaining reset runs, or the dictionary is
not served yet. -/
def trafficWaits (s : State) : Bool := s.sy.superDown || s.sy.retaining || decide (s.reg Ix.startPhase 0 < 3)

end State
end Sys2Proof.Machine
end

