-- ==== Sys2Proof/Machine/TimeOps.lean ====
section
/-! DEFINITION. What a domain's change reaches: corrections that become effective, steps, targets and pins converted afresh,
the states of a domain, and silence (R16, R24, R206 to R214, R229 to R231, R291). -/

namespace Sys2Proof.Machine

/-- A fraction as a whole number: exact where it is one, else as the spec leaves open. -/
def Frac.whole (a : Frac) : Int := if a.den = 1 then a.num else Config.fracRounded a.num a.den

/-- Multiples of 4,096 ru: pin edges stand on them (R229, R233). -/
def pinGrid (r : Raw) : Raw := BitVec.ofNat 64 ((r.toNat + 4095) / 4096 * 4096)

namespace State

/-- Bit `b` of TIME_FLAGS of domain `d` becomes `v`. -/
def setTimeFlag (s : State) (d b : Nat) (v : Bool) : State :=
  s.setReg Ix.timeFlags (d + 1) ((if v then setBit else clearBit) (s.reg Ix.timeFlags (d + 1)) b)

/-! ### Apply groups (R22 to R24) -/

def group (s : State) (g : Nat) : ApplyGroup := tgetD s.isl.groups g {}
def setGroup (s : State) (g : Nat) (x : ApplyGroup) : State :=
  { s with isl := { s.isl with groups := tput {} s.isl.groups g x } }

/-- The armed target of group `g` is converted again; one that has now passed applies at once, late (R24). -/
def retarget (s : State) (d g : Nat) : State :=
  match (s.group g).armed with
  | none => s
  | some a =>
    if a.domain ≠ d ∨ 0 ≤ s.dueBy a.raw then s
    else
      let dt := s.rawDelta d (ofTime80 a.target)
      if dt < 0 then s.setGroup g { s.group g with armed := some { a with late := true, raw := s.raw } }
      else s.setGroup g { s.group g with armed := some { a with raw := s.rawIn (min dt horizon) } }

/-! ### Time pins (R228 to R231) -/

def pin (s : State) (n : Nat) : Pin := tgetD s.tm.pins n {}
def setPin (s : State) (n : Nat) (x : Pin) : State := { s with tm := { s.tm with pins := tput {} s.tm.pins n x } }

/-- Sync time of edge `k` of pin `n`: TIO_START, plus k periods for a periodic pin (R228). -/
def edgeSync (s : State) (n k : Nat) : Int :=
  ofTime96 (s.reg Ix.tioStart (n + 1)) +
    (if s.reg Ix.tioMode (n + 1) = 2 then (k : Int) * s.reg Ix.tioPeriod (n + 1) else 0)

/-- Raw distance of edge `k` from now, before its delay is taken off (R229). -/
def edgeDelta (s : State) (n k : Nat) : Int := s.rawDelta (s.reg Ix.tioDomain (n + 1)) (s.edgeSync n k)

/-- Edge `k` of pin `n` as a pulse number and the raw time it is placed at, turns of the counter counted (R229): however far
ahead, an edge is placed at no time but its own (R230). -/
def edgeAt (s : State) (n k : Nat) : Nat × Int :=
  (k, ceilDivInt (s.rawTotal + s.edgeDelta n k - psToRu (s.regI Ix.tioOutDelay (n + 1) 4)) 4096 * 4096)

/-- Number of the first edge of a periodic pin at or after sync time `t`. -/
def firstEdge (s : State) (n : Nat) (t : Int) : Nat :=
  (ceilDivInt (t - ofTime96 (s.reg Ix.tioStart (n + 1))) (s.reg Ix.tioPeriod (n + 1))).toNat

/-- The next edge of pin `n` after its domain's correction has changed (R208, R230): a periodic pin resumes at the first edge
at or after the new sync time; a one-shot carried into the past by a step emits nothing. -/
def repin (s : State) (d n : Nat) (stepped : Bool) : State :=
  let x := s.pin n
  let mode := s.reg Ix.tioMode (n + 1)
  if s.reg Ix.tioDomain (n + 1) ≠ d ∨ (mode ≠ 1 ∧ mode ≠ 2) then s
  else
    match x.next with
    | none => s
    | some (k, _) =>
      if stepped ∧ mode = 1 ∧ s.edgeDelta n 0 < 0 then
        (s.setPin n { x with next := none }).setReg Ix.tioStatus (n + 1) 4
      else
        let k' := if stepped ∧ mode = 2 then s.firstEdge n (s.syncNow d) else k
        s.setPin n { x with next := some (s.edgeAt n k') }

/-! ### Corrections that become effective (R16) -/

/-- The changes of a queue that are effective by now: the correction in force, the changes left, and whether sync time was
stepped. -/
def takeDue (s : State) (c : Correction) : List (Raw × Correction) → Correction × List (Raw × Correction) × Bool
  | [] => (c, [], false)
  | (e, c') :: rest =>
    if 0 ≤ s.dueBy e then
      let r := s.takeDue c' rest
      (r.1, r.2.1, r.2.2 || decide (c'.at e ≠ c.at e))
    else (c, (e, c') :: rest, false)

/-- Gates that follow domain `d`, but for those of a port island in reset, which land when it reaches RUN (R29). -/
def gatesOf (s : State) (d : Nat) : List Nat :=
  (tkeys s.eg.gates).filter fun k => s.gateEnabled k && s.followsDomain k d && !s.resetting (gateIsland k)

/-- A step of domain `d` reaches its gates and the launch times that follow it (R145, R310). -/
def landStep (s : State) (d : Nat) : State :=
  let s1 := (s.gatesOf d).foldl landGate s
  let now := s1.syncNow d
  let land (p : Packet) : Packet :=
    match p.launch with
    | some (t, dd, _) => if dd = d then { p with launchDue := decide (t ≤ now) } else p
    | none => p
  { s1 with fr := { s1.fr with pkts := s1.fr.pkts.map fun e => (e.1, land e.2) } }

/-- Every island switches domain `d` to the corrections that are effective by now: targets and pins are converted afresh,
and after a step the gates land on their schedules (R16, R24, R145, R208, R230). -/
def switchDomain (s : State) (d : Nat) : State :=
  let x := s.dom d
  let r := s.takeDue x.corr x.queue
  if r.2.1.length = x.queue.length then s
  else
    let s1 := s.setDom d { x with corr := r.1, queue := r.2.1 }
    let s2 := (List.range 16).foldl (fun t g => t.retarget d g) s1
    let s3 := (List.range 32).foldl (fun t n => t.repin d n r.2.2) s2
    if r.2.2 then s3.landStep d else s3

/-! ### Steps and states (R210 to R214) -/

/-- A step is counted and logged (R210), and a servo at work returns to ACQUIRING. -/
def noteStep (s : State) (d : Nat) (step : Int) : State :=
  let s1 := (s.count32 Ix.timeStepCount (d + 1) 1).event Ix.timeStepCount 1 meridian [(1, d), (8, ofSigned 64 step)]
  if s1.domState d = 1 ∨ s1.domState d = 2 then
    (s1.enterState d 1).setServo d { s1.servo d with lockRun := 0, missRun := 0 }
  else s1

/-- Domain `d` is stepped by `step` ru (R210). -/
def stepTime (s : State) (d : Nat) (step : Int) : State :=
  (s.sendChange d (s.slewLeft d s.effective) fun c => { c with sync := c.sync + step }).noteStep d step

/-- Domain `d` takes the sync time `v` at the present raw time, as a step of the difference (R210). -/
def setTime (s : State) (d : Nat) (v : Int) : State :=
  let step := v - s.syncNow d
  (s.sendChange d (s.slewLeft d s.effective) fun c => { pivot := s.raw, sync := v, rem := 0, rho := c.rho }).noteStep d step

/-- The servo leaves slew-limited mode (R217). -/
def endSlewLimited (s : State) (d : Nat) : State :=
  (s.setServo d { s.servo d with slewLimited := false }).setTimeFlag d 1 false

/-- A domain enters FREE_RUN (R212). -/
def enterFreeRun (s : State) (d : Nat) : State :=
  let s1 := s.endSlewLimited d
  ((s1.setServo d { s1.servo d with hasSample := false, lockRun := 0, missRun := 0, settling := none, settled := false,
                                    holdoverByStep := false }).enterState d 0).sendRate d

/-! ### Silence (R291, R292) -/

/-- Ports whose gates follow domain `d`'s silence (R291). -/
def silencedPorts (s : State) (d : Nat) : List Nat :=
  (((s.dict.filter fun e => e.1 / 65536 == Ix.gateEnable).map fun e => e.1 % 65536 - 1)).filter fun p =>
    s.gateEnabled p && s.reg Ix.gateDomain (p + 1) == d

/-- SILENCE_STATE of domain `d` becomes `v`: the gates of its classes close or reopen (R291, R292). -/
def setSilence (s : State) (d v : Nat) : State :=
  let ps := s.silencedPorts d
  let s1 := (ps.foldl settlePort s).setReg Ix.silenceState (d + 1) v
  ps.foldl countOverruns s1

/-- Domain `d` is silenced: counted and logged at entry. -/
def silence (s : State) (d : Nat) : State :=
  if s.regB Ix.silenceState (d + 1) then s
  else
    let s1 := (s.countSat Ix.silenceCount (d + 1) 1).event Ix.silenceCount 1 meridian []
    (s1.setDom d { s1.dom d with returnRun := 0 }).setSilence d 1

/-- An accepted sample with offset `theta` is judged (R291, R292). -/
def judgeSilence (s : State) (d : Nat) (theta : Int) : State :=
  let th := s.reg Ix.silenceThreshold (d + 1)
  if th = 0 ∨ s.domState d = 0 then s
  else
    let s1 := if th * 65536 < theta.natAbs then s.silence d else s
    if s1.regB Ix.silenceState (d + 1) = false then s1
    else
      let run := if theta.natAbs ≤ s1.reg Ix.returnThreshold (d + 1) * 65536 then (s1.dom d).returnRun + 1 else 0
      let s2 := s1.setDom d { s1.dom d with returnRun := run }
      if s1.reg Ix.returnIntervals (d + 1) ≤ run then s2.setSilence d 0 else s2

end State
end Sys2Proof.Machine
end

