-- ==== Sys2Proof/Machine/Hss.lean ====
section
/-! DEFINITION. Verification of HSS signatures with L = 2, LMS_SHA256_M32_H15 and LMOTS_SHA256_N32_W4 (RFC 8554, as chapter
15 names it). -/

namespace Sys2Proof.Machine

/-- The 67 four-bit digits signed for a 32-byte digest: its 64 digits and the checksum's three (RFC 8554, 4.4). -/
def otsDigits (q : List Byte) : List Nat :=
  let ds := q.flatMap fun b => [b.toNat / 16, b.toNat % 16]
  let sum := ((ds.map fun d => 15 - d).sum) * 16
  ds ++ [sum / 4096 % 16, sum / 256 % 16, sum / 16 % 16]

/-- The hash chain of element `i` from step `j` over `n` steps. -/
def otsChain (iq : List Byte) (i : Nat) : Nat → Nat → List Byte → List Byte
  | 0, _, x => x
  | n + 1, j, x => otsChain iq i n (j + 1) (sha256 (iq ++ beBytes 2 i ++ beBytes 1 j ++ x))

/-- The one-time public key a signature stands for; `sig` holds type, randomiser and 67 elements. -/
def otsCandidate (ident : List Byte) (q : Nat) (sig msg : List Byte) : List Byte :=
  let iq := ident ++ beBytes 4 q
  let digest := sha256 (iq ++ beBytes 2 0x8181 ++ slice sig 4 32 ++ msg)
  let ds := otsDigits digest
  let z := (ds.zipIdx).flatMap fun e => otsChain iq e.2 (15 - e.1) e.1 (slice sig (36 + 32 * e.2) 32)
  sha256 (iq ++ beBytes 2 0x8080 ++ z)

/-- The root reached from a node over the authentication path. -/
def lmsRoot (ident : List Byte) : Nat → Nat → List Byte → List Byte → List Byte
  | 0, _, _, x => x
  | n + 1, node, path, x =>
    let sib := slice path 0 32
    let pair := if node % 2 = 1 then sib ++ x else x ++ sib
    lmsRoot ident n (node / 2) (path.drop 32) (sha256 (ident ++ beBytes 4 (node / 2) ++ beBytes 2 0x8383 ++ pair))

/-- Bytes of an LMS signature and of an LMS public key. -/
def lmsSigBytes : Nat := 2668
def lmsKeyBytes : Nat := 56

/-- An LMS signature verifies under an LMS public key. -/
def lmsVerify (key sig msg : List Byte) : Bool :=
  let ident := slice key 8 16
  let q := beField sig 0 4
  let kc := otsCandidate ident q (slice sig 4 2180) msg
  let node := 32768 + q
  let leaf := sha256 (ident ++ beBytes 4 node ++ beBytes 2 0x8282 ++ kc)
  decide (sig.length = lmsSigBytes) && decide (key.length = lmsKeyBytes) && beField key 0 4 == 7 && beField key 4 4 == 3 &&
    beField sig 4 4 == 3 && beField sig 2184 4 == 7 && decide (q < 32768) &&
    (lmsRoot ident 15 node (slice sig 2188 480) leaf == slice key 24 32)

/-- A 60-byte HSS public key with L = 2 and these parameters (R435). -/
def hssKeyOk (key : List Byte) : Bool :=
  decide (key.length = 60) && beField key 0 4 == 2 && beField key 4 4 == 7 && beField key 8 4 == 3

/-- A 5,396-byte HSS signature over `msg` verifies under an HSS public key. -/
def hssVerify (key sig msg : List Byte) : Bool :=
  let lower := slice sig (4 + lmsSigBytes) lmsKeyBytes
  hssKeyOk key && decide (sig.length = 5396) && beField sig 0 4 == 1 &&
    lmsVerify (key.drop 4) (slice sig 4 lmsSigBytes) lower &&
    lmsVerify lower (sig.drop (4 + lmsSigBytes + lmsKeyBytes)) msg

end Sys2Proof.Machine
end

