-- ==== Sys2Proof/Machine/Programs.lean ====
section
/-! DEFINITION. Exact-match records from the dictionary, ageing, and loading program images (R113, R114, R126 to R128, R172,
R505, R506). -/

namespace Sys2Proof.Machine

/-! ### Instruction words at load (R109, R110) -/

/-- The fields an opcode uses; none for an opcode R110 does not list. -/
def opUses (op : Nat) : Option Uses :=
  if op = 0x00 ∨ op = 0x33 ∨ op = 0x7F then some {}
  else if (0x01 ≤ op ∧ op ≤ 0x09) ∨ op = 0x0D then some { d := true, a := true, bi := true }
  else if op = 0x0A ∨ op = 0x0B then some { d := true, imm := true, i1 := true }
  else if op = 0x0C then some { d := true, a := true, bi := true, x := true }
  else if op = 0x0E ∨ op = 0x10 ∨ op = 0x12 ∨ op = 0x18 then some { d := true, a := true, x := true, imm := true }
  else if op = 0x11 ∨ op = 0x13 ∨ op = 0x19 ∨ op = 0x23 ∨ op = 0x28 ∨ op = 0x31 then
    some { a := true, b := true, x := true, imm := true }
  else if op = 0x14 ∨ op = 0x15 ∨ op = 0x29 ∨ op = 0x30 then some { a := true, x := true, imm := true }
  else if op = 0x1A then some { d := true, a := true, b := true, imm := true }
  else if op = 0x20 ∨ op = 0x21 ∨ op = 0x22 then some { d := true, a := true, imm := true }
  else if op = 0x32 ∨ op = 0x39 ∨ op = 0x41 ∨ op = 0x42 then some { a := true, imm := true }
  else if op = 0x34 then some { a := true, b := true, imm := true }
  else if op = 0x35 then some { x := true, imm := true }
  else if op = 0x38 then some { x := true }
  else if op = 0x3A then some { d := true, x := true }
  else if op = 0x40 ∨ op = 0x43 ∨ op = 0x44 then some { imm := true }
  else if op = 0x45 then some { d := true, imm := true }
  else if op = 0x46 then some { a := true }
  else none

/-- A word is accepted at load: a listed opcode, unused fields 0, and a `tlk` key within g31 (R109, R112). -/
def wordOk (w : BitVec 64) : Bool :=
  match opUses (awlOpcode w).toNat with
  | none => false
  | some u => usesOk u (awlFields w) && !(awlOpcode w == 0x21 && decide (27 < (awlFields w).a.toNat))

/-- The word's branch target is below the instruction count (R128). -/
def targetOk (n : Nat) (w : BitVec 64) : Bool :=
  !(decide (0x40 ≤ (awlOpcode w).toNat) && decide ((awlOpcode w).toNat ≤ 0x45)) || decide ((awlFields w).imm.toNat % 8192 < n)

/-- The last instruction is `yld`, `br` or `jr` (R128). -/
def lastOk (w : BitVec 64) : Bool := awlOpcode w == 0x7F || awlOpcode w == 0x40 || awlOpcode w == 0x46

/-! ### The image (R126) -/

/-- The image header's fields. -/
structure ImageHead where
  flags : Nat
  total : Nat
  n : Nat
  entry : Nat
  m : Nat
  scratch : Nat
  build : Nat
  deriving DecidableEq, Repr

/-- Header of an image. -/
def imageHead (im : List Byte) : ImageHead :=
  { flags := leField im 6 2, total := leField im 8 4, n := leField im 12 4, entry := leField im 16 2, m := leField im 18 2,
    scratch := leField im 20 4, build := leField im 24 4 }

/-- Offsets: scratch contents, declarations, and the end of the signed span. -/
def ImageHead.scratchAt (h : ImageHead) : Nat := 64 + 8 * h.n
def ImageHead.declsAt (h : ImageHead) : Nat := h.scratchAt + h.scratch
def ImageHead.bodyEnd (h : ImageHead) : Nat := h.declsAt + 16 * h.m

/-- The instruction words of an image. -/
def imageWords (im : List Byte) (n : Nat) : List (BitVec 64) :=
  (List.range n).map fun i => BitVec.ofNat 64 (leField im (64 + 8 * i) 8)

/-- `n` bytes of a table of single bytes, from key `k` of a list of its entries in rising order. -/
def bytesFrom : Nat → Nat → Tbl Nat → List Byte
  | 0, _, _ => []
  | n + 1, k, [] => 0#8 :: bytesFrom n (k + 1) []
  | n + 1, k, (j, v) :: t =>
    if j = k then BitVec.ofNat 8 v :: bytesFrom n (k + 1) t else 0#8 :: bytesFrom n (k + 1) ((j, v) :: t)

/-- The header cause and offset of R128, if the header, the sizes or the entry address are wrong: the field at the lowest
offset that is (DESIGN CHOICE, notes/assumptions/53.md). -/
def headFault (im : List Byte) : Option (Nat × Nat) :=
  let h := imageHead im
  if slice im 0 4 ≠ [0x41#8, 0x57#8, 0x4C#8, 0x50#8] then some (1, 0)
  else if leField im 4 2 ≠ 1 then some (1, 4)
  else if 1 < h.flags then some (1, 6)
  else if h.total ≠ h.bodyEnd + (if h.flags = 1 then 5400 else 0) ∨ 147456 < h.total then some (2, 8)
  else if h.n = 0 ∨ 8192 < h.n then some (1, 12)
  else if h.n ≤ h.entry then some (10, 16)
  else if 80 < h.m then some (1, 18)
  else if 65536 < h.scratch ∨ h.scratch % 8 ≠ 0 then some (9, 20)
  else if leField im 28 4 ≠ 0 then some (1, 28)
  else if h.flags = 1 ∧ leField im h.bodyEnd 4 ≠ 5396 then some (2, h.bodyEnd)
  else none

namespace State

/-- The bytes of a TABLE of single-byte records from its start. -/
def tableBytes (s : State) (idx n : Nat) : List Byte :=
  let base := recKey idx 0 0
  bytesFrom n base (s.tabs.filter fun e => decide (base ≤ e.1) && decide (e.1 < base + n))

/-- A declaration holds against the table geometry in force, or (`staged`) as it will stand once the writes pending in table
island A have been applied (R505). -/
def declHolds (s : State) (staged : Bool) (d : List Byte) : Bool :=
  let kind := leField d 0 1
  let num := leField d 1 1
  let keyBits := leField d 2 2
  let least := leField d 4 4
  let rg (idx : Nat) : Nat := if staged then s.pendReg 49 idx (num + 1) else s.reg idx (num + 1)
  leField d 8 8 == 0 &&
    (if kind = 1 then
      decide (num < 64) && decide (1 ≤ keyBits) && decide (keyBits ≤ 128) && rg Ix.xmKeyBits == keyBits &&
        decide (least ≤ rg Ix.xmCapacity)
    else if kind = 2 then decide (num < 16) && keyBits == 0 && decide (least ≤ rg Ix.tcPartSize)
    else if kind = 3 then num == 0 && keyBits == 0 && decide (least ≤ 16384)
    else if kind = 4 then num == 0 && keyBits == 0 && decide (least ≤ 4063232)
    else if kind = 5 then num == 0 && keyBits == 0 && decide (least ≤ 262144)
    else false)

/-- Declarations, 16 bytes each. -/
def declList (decls : List Byte) : List (List Byte) :=
  (List.range (decls.length / 16)).map fun i => slice decls (16 * i) 16

/-- The signature's cause, if it is missing where it must be present, or does not verify under the owner key (R127, R435). -/
def signatureFault (s : State) (im : List Byte) : Option (Nat × Nat) :=
  let h := imageHead im
  if h.flags = 0 then if s.regB Ix.programSignedOnly 0 then some (4, 6) else none
  else
    let key := leBytes 60 (s.reg Ix.ownerKey 0)
    if hssVerify key (slice im (h.bodyEnd + 4) 5396) (im.take h.bodyEnd) then none else some (5, h.bodyEnd + 4)

/-- What is wrong with word `i` of the `n` of an image, if anything: its instruction (cause 6), or its branch target or the end
of the program (cause 7). -/
def wordFault (n i : Nat) (w : BitVec 64) : Option Nat :=
  if wordOk w = false then some 6
  else if targetOk n w = false ∨ (i + 1 = n ∧ lastOk w = false) then some 7
  else none

/-- The first word that fails, as cause and offset. -/
def firstBad (ws : List (BitVec 64)) : Option (Nat × Nat) :=
  ws.zipIdx.findSome? fun e => (wordFault ws.length e.2 e.1).map fun c => (c, 64 + 8 * e.2)

/-- The first declaration that does not hold, as its position. -/
def firstDecl (s : State) (decls : List Byte) : Option Nat :=
  ((declList decls).zipIdx.find? fun e => !s.declHolds true e.1).map Prod.snd

/-- The check of R128: cause and first failing offset, or none. Where several checks fail, the first in the order of R128's
list decides, and within it the lowest offset (DESIGN CHOICE, notes/assumptions/53.md). -/
def imageFault (s : State) (im : List Byte) : Option (Nat × Nat) :=
  match headFault im with
  | some f => some f
  | none =>
    let h := imageHead im
    let ws := imageWords im h.n
    if sha256 (slice im 64 (h.bodyEnd - 64)) ≠ slice im 32 32 then some (3, 32)
    else
      match s.signatureFault im with
      | some f => some f
      | none =>
        match firstBad ws with
        | some f => some f
        | none => (s.firstDecl (slice im h.declsAt (16 * h.m))).map fun i => (8, h.declsAt + 16 * i)

/-- The program of an image that has passed the check. -/
def programOfImage (im : List Byte) : Program :=
  let h := imageHead im
  { instrs := imageWords im h.n, entry := h.entry, decls := slice im h.declsAt (16 * h.m),
    scratch := slice im h.scratchAt h.scratch, build := h.build, digest := slice im 32 32, isDefault := false, methods := 0,
    image := im.take h.total }

/-- One declaration of the default bridge (R172). -/
def bridgeDecl (kind num keyBits : Nat) : List Byte :=
  leBytes 1 kind ++ leBytes 1 num ++ leBytes 2 keyBits ++ leBytes 4 1 ++ leBytes 8 0

/-- The default bridge loaded with a set of methods: its declarations are those of R172. Its scratch section holds the methods
in a word of 8 bytes at scratch address 0 (R172; where they stand is a DESIGN CHOICE, notes/assumptions/53.md). -/
def bridgeProgram (methods : Nat) : Program :=
  let one (b kind num keyBits : Nat) : List Byte := if bit methods b then bridgeDecl kind num keyBits else []
  { instrs := [], entry := 0,
    decls := bridgeDecl 1 0 12 ++ bridgeDecl 1 1 60 ++ bridgeDecl 1 2 10 ++ bridgeDecl 1 3 22 ++ one 0 1 4 60 ++
      one 1 1 5 60 ++ one 2 1 6 60 ++ one 3 1 7 122 ++ one 4 2 15 0,
    scratch := leBytes 8 methods, build := Config.bridgeBuild methods,
    digest := (List.range 32).map fun i => Config.bridgeDigest (256 * methods + i), isDefault := true, methods := methods }

/-- The programs' banks. -/
def setProgs (s : State) (x : Programs) : State := { s with rg := { s.rg with progs := x } }

/-- A bank's digest, as PROGRAM_DIGEST and PROGRAM_PENDING_DIGEST show it. -/
def digestValue (p : Program) : Nat := leNat p.digest

/-- A check begins (R128): status VERIFYING. A request while VERIFYING or SWITCHING aborts with "busy". -/
def startLoad (s : State) (x : Programs) : Wr :=
  let st := s.reg Ix.programStatus 0
  if st = 1 ∨ st = 3 then (s, Abort.busy) else ((s.setProgs x).setReg Ix.programStatus 0 1, 0)

/-- A write to PROGRAM_LOAD (R128): the image in the stage is copied in that clock. -/
def writeProgramLoad (s : State) (v : Nat) : Wr :=
  commandWrite s v fun s =>
    let len := min (leNat ((s.tableBytes Ix.programStage 12).drop 8)) 147456
    s.startLoad { s.rg.progs with checking := some (s.tableBytes Ix.programStage (max len 64)), checkingDefault := none }

/-- A write to PROGRAM_DEFAULT (R128, R172): the methods as they stand. -/
def writeProgramDefault (s : State) (v : Nat) : Wr :=
  commandWrite s v fun s =>
    s.startLoad { s.rg.progs with checking := none, checkingDefault := some (s.reg Ix.streamIdMethods 0) }

/-- A check that succeeds: the pending bank and LOADED. PROGRAM_REJECT_CAUSE and PROGRAM_REJECT_AT keep what the last rejection
left in them (DESIGN CHOICE, notes/assumptions/53.md). -/
def loaded (s : State) (p : Program) : State :=
  let s1 := s.setProgs { s.rg.progs with pending := some p, checking := none, checkingDefault := none }
  (s1.setReg Ix.programPendingDigest 0 (digestValue p)).setReg Ix.programStatus 0 2

/-- A check that fails: the pending bank is empty, REJECTED, with its cause and offset. -/
def rejected (s : State) (cause off : Nat) : State :=
  let s1 := s.setProgs { s.rg.progs with pending := none, checking := none, checkingDefault := none }
  (((s1.setReg Ix.programPendingDigest 0 0).setReg Ix.programStatus 0 4).setReg Ix.programRejectCause 0 cause).setReg
    Ix.programRejectAt 0 off

/-- One 32-byte record written to XM_ENTRY of table `t` (R114, R506). -/
def writeXmRecord (s : State) (t : Nat) (rec_ : List Byte) : Wr :=
  if rec_.length ≠ 32 then (s, Abort.length)
  else
    let key := leField rec_ 0 16
    let data := leField rec_ 16 8
    let op := leField rec_ 24 1
    if 1 < op ∨ leField rec_ 25 7 ≠ 0 then (s, Abort.outOfRange)
    else
      s.recordWrite 49 Ix.xmEntry (t + 1) key (leNat rec_) fun s =>
        if op = 1 then (s.xmRemove t key, 0)
        else if s.xmBits t = 0 ∨ s.xmFits t key = false then (s, Abort.tableFull)
        else (s.xmPut t key data, 0)

/-- The ageing sweep of table `t` is due (R114). -/
def sweepDue (s : State) (t : Nat) : Bool :=
  let age := s.reg Ix.xmAgeTime (t + 1) * second
  decide (0 < age) && decide ((s.xmTable t).t0 + age ≤ s.rawTotal)

end State

/-- XM_AGE_SWEEP (R114): at t0 + k × XM_AGE_TIME, unmarked entries that may age are removed and every mark is cleared. -/
def execXmAgeSweep (t : Nat) (s : State) : Out :=
  if 64 ≤ t then .next s
  else if s.sweepDue t = false then .next s
  else
    let x := s.xmTable t
    .next ((s.setXm t { x with t0 := x.t0 + s.reg Ix.xmAgeTime (t + 1) * State.second }).xmSweep t)

/-- XM_INSERT (R114): an insert or update from the dictionary. -/
def execXmInsert (t : Nat) (record : List Byte) (s : State) : Out :=
  if 64 ≤ t then Wr.out (s, Abort.noSuch)
  else if leField record 24 1 = 1 then .next s
  else (s.writeXmRecord t record).out

/-- XM_DELETE (R114): a delete from the dictionary. -/
def execXmDelete (t : Nat) (record : List Byte) (s : State) : Out :=
  if 64 ≤ t then Wr.out (s, Abort.noSuch)
  else if leField record 24 1 = 0 then .next s
  else (s.writeXmRecord t record).out

/-- PROGRAM_LOAD (R128): 1 written to PROGRAM_LOAD. -/
def execProgramLoad (s : State) : Out := (s.writeProgramLoad 1).out

/-- PROGRAM_DEFAULT (R128): 1 written to PROGRAM_DEFAULT. -/
def execProgramDefault (s : State) : Out := (s.writeProgramDefault 1).out

/-- PROGRAM_CHECK_DONE (R128): the check in progress ends in LOADED or REJECTED. The default bridge has no staged image: its
first failing offset is taken within its declarations (DESIGN CHOICE, notes/assumptions/53.md). -/
def execProgramCheckDone (s : State) : Out :=
  match s.rg.progs.checking, s.rg.progs.checkingDefault with
  | some im, _ =>
    match s.imageFault im with
    | none => .next (s.loaded (State.programOfImage im))
    | some (cause, off) => .next (s.rejected cause off)
  | none, some methods =>
    let p := State.bridgeProgram methods
    match s.firstDecl p.decls with
    | none => .next (s.loaded p)
    | some i => .next (s.rejected 8 (16 * i))
  | none, none => .next s

end Sys2Proof.Machine
end

