-- ==== Sys2Proof/Machine/Transmit.lean ====
section
/-! DEFINITION. Choosing and sending copies: eligibility, pre-emption, starts, stomps and ends (R48 to R53, R60, R91, R125,
R136, R137, R146, R150, R309, R310). -/

namespace Sys2Proof.Machine
namespace State

def txCopy? (s : State) (key : Nat) : Option TxCopy := tget s.fr.tx key
def setTx (s : State) (key : Nat) (t : TxCopy) : State := { s with fr := { s.fr with tx := tset s.fr.tx key t } }
def dropTx (s : State) (key : Nat) : State := { s with fr := { s.fr with tx := terase s.fr.tx key } }

/-- The transmit timestamp of a port (R221). -/
def txTimestamp (s : State) (p : Nat) (launch : Raw) (pipe : Int) : Raw :=
  launch + BitVec.ofInt 64 (psToRu (pipe + s.regI Ix.tsCalATx (p + 1) 4 + s.regI Ix.tsTxOffset (p + 1) 4))

/-- Class `c` of port `p` is express (R149). -/
def expressClass (s : State) (p c : Nat) : Bool := bit (s.reg Ix.pmacExpressClasses (p + 1)) c

/-- Cut-through is allowed for a copy to port `p` of a frame not yet accepted (R48). -/
def mayCutThrough (s : State) (p : Nat) (k : Packet) (c : QCopy) : Bool :=
  decide (k.src < 512) && s.regB Ix.portCutThrough (k.src + 1) && decide (s.macRate p ≤ s.macRate k.src) &&
    decide (s.reg Ix.portMaxFrame (k.src + 1) ≤ s.reg Ix.portMaxFrame (p + 1)) && !k.preempt && c.alone

/-- Longest piece that goes out whole while pre-emption is active (R146). -/
def fragmentBytes (s : State) (p : Nat) : Nat := 64 * (1 + s.reg Ix.pmacAddFragSize (p + 1))

/-- L of R146 for a copy that would start now. -/
def guardLength (s : State) (p c : Nat) (k : Packet) (spec : CopySpec) : Nat :=
  let len := if k.accepted then k.copyLen spec else s.reg Ix.portMaxFrame (k.src + 1)
  if s.preemptActive p && !s.expressClass p c then min len (s.fragmentBytes p) else len

/-- A launch-timed frame's target, converted afresh, has come (R208, R310). -/
def launchCame (s : State) (k : Packet) : Bool :=
  match k.launch with
  | some (target, d, _) => k.launchDue && decide (s.rawDelta d target ≤ 0)
  | none => true

/-- The tests of R136 other than the guard band for the head copy of class `c` of port `p`. -/
def headReady (s : State) (p c : Nat) (d : QCopy) (k : Packet) : Bool :=
  !k.failed && (k.accepted || s.mayCutThrough p k d) && bit (s.gateStates p) c && s.shapersAllow (8 * p + c) && s.launchCame k

/-- The head copy of a queue with its packet. -/
def headOf (s : State) (q : Nat) : Option (QCopy × Packet) :=
  match s.queue q with
  | d :: _ => (s.pkt? d.pkt).map fun k => (d, k)
  | [] => none

/-- Class `c` of port `p` is eligible (R136). -/
def eligible (s : State) (p c : Nat) : Bool :=
  match s.headOf (8 * p + c) with
  | some (d, k) => s.headReady p c d k && s.guardPasses p c (s.guardLength p c k d.spec)
  | none => false

/-- A head copy that only the guard band holds back is counted once (R146). -/
def noteDeferral (s : State) (p c : Nat) : State :=
  let q := 8 * p + c
  match s.headOf q with
  | some (d, k) =>
    if d.deferred = false ∧ s.headReady p c d k ∧ s.guardPasses p c (s.guardLength p c k d.spec) = false then
      let s1 := s.setQueue q ((s.queue q).map fun e => if e.seq = d.seq then { e with deferred := true } else e)
      s1.count Ix.gateGuardDeferrals (p + 1) 1
    else s
  | none => s

/-- A copy is not sent because a cell failed before its first cell left (R53); `c` is that cell. -/
def dropBadHead (s : State) (p q : Nat) (d : QCopy) (c : Nat) : State :=
  let s0 := if d.lossLogged then s else s.logBadCell c q d.seq
  let s1 := (s0.setQueue q ((s0.queue q).filter fun e => e.seq != d.seq)).count Ix.txBufferDrop (p + 1) 1
  (if d.index = 0 then s1.completeSurvey d.pkt 5 else s1).reap d.pkt

/-- Copies at the head of queue `q` of port `p` that read a bad cell are removed, one after another (R53). -/
def dropBadRun (p q : Nat) : Nat → State → State
  | 0, s => s
  | n + 1, s =>
    match s.queue q with
    | d :: _ =>
      match s.badCellOf d.pkt with
      | some c => dropBadRun p q n (s.dropBadHead p q d c)
      | none => s
    | [] => s

/-- Head copies of port `p` that read a bad cell are removed (R53). -/
def dropBadHeads (s : State) (p : Nat) : State :=
  (List.range 8).foldl (fun t c => dropBadRun p (8 * p + c) (t.queue (8 * p + c)).length t) s

/-- The record of a copy that its frame carries (R125): that of R121, but for bytes 20 to 31, which describe this copy, its
outcome and its residence. -/
def inBandRecord (k : Packet) (q : Nat) (d : QCopy) (outcome : Nat) (ts : Raw) : Survey :=
  patch (surveyRecord k outcome ts) 20 (leBytes 4 d.seq ++ leBytes 2 k.src ++ leBytes 2 q ++ leBytes 4 d.depth)

/-- The window of a copy as sent: in-band records are filled for this copy (R125), then the outer tag goes if asked. -/
def sentWindow (k : Packet) (q : Nat) (d : QCopy) (outcome : Nat) (ts : Raw) : List Byte :=
  if d.spec.asReceived then k.copyWindow d.spec
  else
    let mine := inBandRecord k q d outcome ts
    let offs := ((k.result.map Result.effects).getD []).filterMap fun e =>
      match e with
      | .inBand o => some o
      | _ => none
    let w := offs.foldl (fun w o => patch w o mine) (k.copyWindow { d.spec with strip := false })
    if d.spec.strip then stripTag w else w

/-- A launch-timed copy that starts later than its limit allows is counted, and its record says so (R310). -/
def noteLaunch (s : State) (h : Nat) (k : Packet) : State :=
  match k.launch with
  | some (target, d, limit) =>
    if limit ≠ 0 ∧ target + (limit : Int) * 65536 < s.syncNow d then
      (s.count Ix.launchLateSent 0 1).modFrameUnit k.chan h fun u => { u with late := true }
    else s
  | none => s

/-- The first copy of a host frame carries its egress timestamp into the unit's record (R309, R318). -/
def noteTimestamp (s : State) (p : Nat) (k : Packet) (d : QCopy) (ts : Raw) : State :=
  if d.index = 0 ∧ 512 ≤ k.src ∧ k.tsWanted ∧ k.chan < 4096 then
    s.modFrameUnit k.chan d.pkt fun u => { u with ts := some (ts, !s.tsInvalid p) }
  else s

/-- A head copy starts at a MAC (R136, R151, R153). The length of a cut-through copy is not known yet: it is charged the longest
frame its ingress port takes, as R146 takes it, and the charge becomes that of its length at its end (DEDUCED). `found` is what
is met as its codewords are read: those of its first cell before it starts (R51, R53). -/
def startCopy (s0 : State) (p key q : Nat) (d : QCopy) (k0 : Packet) (ts : Raw) (found : List CellFinding) : State :=
  let mine := found.filter fun f => k0.cells.contains f.cell
  let first (f : CellFinding) : Bool := k0.cells.head? == some f.cell
  let s := (mine.filter first).foldl (fun t f => t.readWord f true) s0
  match s.badCellOf d.pkt with
  | some c => s.dropBadHead p q d c
  | none =>
    let cut := !k0.accepted
    let k1 := (s.pkt? d.pkt).getD k0
    let k := if d.index = 0 then { k1 with firstCut := cut } else k1
    let len := if cut then max (k.copyLen d.spec) (s.reg Ix.portMaxFrame (k.src + 1)) else k.copyLen d.spec
    let s1 := ((s.settleQueue q).chargeShaper q len).setQueue q ((s.queue q).filter fun e => e.seq != d.seq)
    let t : TxCopy :=
      { copy := d, queue := q, bytes := sentWindow k q d 0 ts, started := s.raw, resumed := s.rawTotal, sent := 0, ts := ts, charged := len,
        cutThrough := cut, stomp := false, cutAt := none, preempted := false, countedPre := false, overrun := false }
    let s2 := (((s1.setPkt d.pkt k).setTx key t).noteLaunch d.pkt k).noteTimestamp p k d ts
    let s3 := if d.index = 0 ∧ cut = false then s2.completeSurveyAt d.pkt 0 ts else s2
    (mine.filter fun f => !first f).foldl (fun t f => t.readWord f true) s3

/-- A preemptable frame in transmission is preempted at its next allowed point (R137, R150). -/
def preempt (s : State) (p : Nat) (t : TxCopy) : State :=
  let s1 := (s.settleQueue t.queue).setTx (512 + p)
    { t with preempted := true, countedPre := true, sent := s.bytesSent (512 + p) t }
  if t.countedPre then s1 else s1.count Ix.pmacPreempted (p + 1) 1

/-- The remainder of a preempted frame may go on but for the guard band (R137). -/
def resumeReady (s : State) (p : Nat) (t : TxCopy) : Bool :=
  t.preempted && !(s.gate p).hold && bit (s.gateStates p) (t.queue % 8) && s.shapersAllow t.queue

/-- The remainder of a preempted frame passes the guard band (R146). -/
def resumePasses (s : State) (p : Nat) (t : TxCopy) : Bool :=
  let left := match s.pkt? t.copy.pkt with
    | some k => k.copyLen t.copy.spec - s.bytesSent (512 + p) t
    | none => 0
  s.guardPasses p (t.queue % 8) (min left (s.fragmentBytes p))

/-- The remainder of a preempted frame may go on (R137, R146). -/
def mayResume (s : State) (p : Nat) (t : TxCopy) : Bool := s.resumeReady p t && s.resumePasses p t

/-- The preempted frame goes on. -/
def resume (s : State) (p : Nat) (t : TxCopy) : State :=
  (s.settleQueue t.queue).setTx (512 + p) { t with preempted := false, resumed := s.rawTotal }

/-- A continuation that only the guard band holds back is counted once (R146). -/
def noteHeldBack (s : State) (p : Nat) (t : TxCopy) : State :=
  if s.resumeReady p t ∧ s.resumePasses p t = false ∧ t.copy.deferred = false then
    (s.setTx (512 + p) { t with copy := { t.copy with deferred := true } }).count Ix.gateGuardDeferrals (p + 1) 1
  else s

/-- The highest class of `classes` that is eligible. -/
def bestClass (s : State) (p : Nat) (classes : List Nat) : Option Nat := classes.find? fun c => s.eligible p c

/-- Classes of port `p` from 7 down, express or preemptable. -/
def classesOf (s : State) (p : Nat) (express : Bool) : List Nat :=
  ([7, 6, 5, 4, 3, 2, 1, 0] : List Nat).filter fun c => s.expressClass p c == express

/-- The head copy of class `c` starts at MAC `key`. -/
def startClass (s : State) (p key c : Nat) (ts : Raw) (found : List CellFinding) : State :=
  match s.headOf (8 * p + c) with
  | some (d, k) => s.startCopy p key (8 * p + c) d k ts found
  | none => s

/-- Selection while pre-emption is active (R137): an eligible express copy first, preempting what runs; then hold or a
closed gate preempts; then a remainder resumes; then a preemptable copy starts. -/
def selectActive (s : State) (p : Nat) (ts : Raw) (found : List CellFinding) : State :=
  if (s.txCopy? p).isSome then s
  else
    match s.bestClass p (s.classesOf p true), s.txCopy? (512 + p) with
    | some c, some t => (if t.preempted then s else s.preempt p t).startClass p p c ts found
    | some c, none => s.startClass p p c ts found
    | none, some t =>
      if t.preempted then if s.mayResume p t then s.resume p t else s.noteHeldBack p t
      else if (s.gate p).hold ∨ bit (s.gateStates p) (t.queue % 8) = false then s.preempt p t
      else s
    | none, none =>
      if (s.gate p).hold then s
      else
        match s.bestClass p (s.classesOf p false) with
        | some c => s.startClass p (512 + p) c ts found
        | none => s

/-- Selection while pre-emption is not active (R137, R150): all classes together, and hold stops preemptable ones. -/
def selectWhole (s : State) (p : Nat) (ts : Raw) (found : List CellFinding) : State :=
  if (s.txCopy? p).isSome then s
  else
    match s.txCopy? (512 + p) with
    | some t => if t.preempted ∧ s.mayResume p t then s.resume p t else s.noteHeldBack p t
    | none =>
      let classes := ([7, 6, 5, 4, 3, 2, 1, 0] : List Nat).filter fun c => s.expressClass p c || !(s.gate p).hold
      match s.bestClass p classes with
      | some c => s.startClass p p c ts found
      | none => s

/-- The bytes of a copy that ends now, without FCS (R49, R53). -/
def finalData (s : State) (t : TxCopy) : List Byte :=
  let tail := match s.pkt? t.copy.pkt with
    | some k => k.tail
    | none => []
  let all := t.bytes ++ tail
  if t.stomp then all.take (t.cutAt.getD all.length) else all

/-- A copy has left the wire (R49, R50, R60): its FCS correct or complemented, counted, its shaper debt taken, and cells
nobody reads are freed. -/
def endCopy (s : State) (p key : Nat) (t : TxCopy) : State :=
  let data := s.finalData t
  let fcs := if t.stomp then complementBytes (fcsOf data) else fcsOf data
  let s1 := if t.queue < 4096 then s.endShaper t.queue t.charged (if t.cutThrough then data.length + 4 else t.charged) else s
  let s2 := (s1.dropTx key).count
    (if t.stomp then Ix.txStomped else Ix.txFrames) (p + 1) 1
  let s3 := { s2 with
    fr := { s2.fr with
      wire := tset s2.fr.wire p { frame := data ++ fcs, stomped := t.stomp, ts := t.ts } } }
  let s4 := s3.setPortLink p { s3.portLink p with idleSince := s.rawTotal }
  (if t.copy.index = 0 ∧ t.stomp then s4.completeSurvey t.copy.pkt 5 else s4).reap t.copy.pkt

/-- The copy at a MAC may end: all its bytes are there (R50). -/
def mayEnd (s : State) (t : TxCopy) : Bool :=
  !t.preempted && (t.stomp || (match s.pkt? t.copy.pkt with | some k => k.accepted || k.failed | none => true))

end State

/-- COPY_TX_END (R60): the copy at the express or preemptable MAC of port `p` finishes on the wire. -/
def execCopyTxEnd (p : Nat) (pre : Bool) (s : State) : Out :=
  if s.portPresent p = false then .next s
  else
    match s.txCopy? (State.macKey p pre) with
    | some t => if s.mayEnd t then .next (s.endCopy p (State.macKey p pre) t) else .next s
    | none => .next s

end Sys2Proof.Machine
end

