-- ==== Sys2Proof/Machine/NetIo.lean ====
section
/-! DEFINITION. Frames the device itself sends and takes: its addresses, UDP, and the port's express MAC
(R226, R374, R375). The layouts of IP and UDP are those of their standards. -/

namespace Sys2Proof.Machine

/-- The sum of the 16-bit words of a byte list. -/
def sum16 : List Byte → Nat
  | a :: b :: t => a.toNat * 256 + b.toNat + sum16 t
  | [a] => a.toNat * 256
  | [] => 0

/-- The Internet checksum of a byte list. -/
def inetSum (bs : List Byte) : Nat :=
  let r := 65535 - sum16 bs % 65535
  if sum16 bs = 0 then 65535 else r

/-- A block that includes its checksum verifies. -/
def inetGood (bs : List Byte) : Bool := decide (sum16 bs ≠ 0) && decide (sum16 bs % 65535 = 0)

/-- A UDP datagram as the device finds it in a frame. -/
structure Udp where
  v6 : Bool
  src : List Byte
  dst : List Byte
  sport : Nat
  dport : Nat
  data : List Byte
  deriving DecidableEq, Repr

/-- The pseudo-header of UDP over IPv6, and over IPv4. -/
def pseudo (v6 : Bool) (src dst : List Byte) (len : Nat) : List Byte :=
  src ++ dst ++ (if v6 then beBytes 4 len ++ [0#8, 0#8, 0#8, 17#8] else [0#8, 17#8] ++ beBytes 2 len)

/-- The UDP header and data at byte `h` of a frame; a bad checksum, or a zero one over IPv6, is none (R374). -/
def udpAt (w : List Byte) (v6 : Bool) (src dst : List Byte) (h : Nat) : Option Udp :=
  let len := beField w (h + 4) 2
  let seg := slice w h len
  let sum := beField w (h + 6) 2
  if len < 8 ∨ w.length < h + len then none
  else if sum = 0 ∧ v6 then none
  else if sum ≠ 0 ∧ inetGood (pseudo v6 src dst len ++ seg) = false then none
  else some ⟨v6, src, dst, beField w h 2, beField w (h + 2) 2, seg.drop 8⟩

/-- The UDP datagram of a frame, after at most one VLAN tag: no IPv4 options, no fragments (R374). -/
def udpOf (w : List Byte) : Option Udp :=
  let p := if tagAt w 12 then 16 else 12
  let h := p + 2
  if beField w p 2 = 0x0800 then
    if beField w h 1 = 0x45 ∧ beField w (h + 6) 2 % 16384 = 0 ∧ beField w (h + 9) 1 = 17 ∧ h + 28 ≤ w.length ∧
        inetGood (slice w h 20) = true then
      udpAt w false (slice w (h + 12) 4) (slice w (h + 16) 4) (h + 20)
    else none
  else if beField w p 2 = 0x86DD then
    if beField w (h + 6) 1 = 17 ∧ h + 48 ≤ w.length then udpAt w true (slice w (h + 8) 16) (slice w (h + 24) 16) (h + 40)
    else none
  else none

/-- EtherType and payload of a UDP datagram; `sum` none leaves the checksum 0. -/
def udpPacket (v6 : Bool) (src dst : List Byte) (sport dport : Nat) (data : List Byte) (summed : Bool) : List Byte :=
  let len := data.length + 8
  let bare := beBytes 2 sport ++ beBytes 2 dport ++ beBytes 2 len ++ [0#8, 0#8] ++ data
  let sum := if summed then inetSum (pseudo v6 src dst len ++ bare) else 0
  let seg := beBytes 2 sport ++ beBytes 2 dport ++ beBytes 2 len ++ beBytes 2 sum ++ data
  if v6 then beBytes 2 0x86DD ++ [0x60#8, 0#8, 0#8, 0#8] ++ beBytes 2 len ++ [17#8, 255#8] ++ src ++ dst ++ seg
  else
    let head (c : Nat) : List Byte :=
      [0x45#8, 0#8] ++ beBytes 2 (len + 20) ++ [0#8, 0#8, 0#8, 0#8, 255#8, 17#8] ++ beBytes 2 c ++ src ++ dst
    beBytes 2 0x0800 ++ head (inetSum (head 0)) ++ seg

namespace State

/-- DEVICE_MAC_BASE as a number, and the six bytes of the address `n` above it (R375). -/
def macBase (s : State) : Nat := beNat (leBytes 6 (s.reg Ix.deviceMacBase 0))
def macOf (s : State) (n : Nat) : List Byte := beBytes 6 (s.macBase + n)

/-- The device's own IP addresses; an address of 0 is none. -/
def ipv4 (s : State) : List Byte := leBytes 4 (s.reg Ix.deviceIpv4 0)
def ipv6 (s : State) : List Byte := leBytes 16 (s.reg Ix.deviceIpv6 0)

/-- A datagram is for one of the device's addresses. -/
def ownsIp (s : State) (u : Udp) : Bool :=
  if u.v6 then s.reg Ix.deviceIpv6 0 != 0 && u.dst == s.ipv6 else s.reg Ix.deviceIpv4 0 != 0 && u.dst == s.ipv4

/-- The supervisor's own functions run: the core is up and no retaining reset is under way (R476, R479). -/
def supervisorUp (s : State) : Bool := !s.sy.superDown && !s.sy.retaining

/-- Port `p` can begin a frame of the device's own where `gate` says that its gate is open (R226, R375): up, awake, and no
express frame in transmission. -/
def canEmit (s : State) (p : Nat) (gate : Bool) : Bool := s.portUp p && s.awake p && (s.txCopy? p).isNone && gate

/-- The gate of class `c` of port `p` is open for a time message: time messages go on while the class is silenced (R291). -/
def timeOpen (s : State) (p c : Nat) : Bool := if s.gateEnabled p then bit (s.gate p).states c else true

/-- A frame of the device's own leaves port `p`, padded to the least size, with its FCS or, stomped, with the FCS complemented;
it is counted (R49, R66). -/
def emitAs (s : State) (p : Nat) (frame : List Byte) (ts : Raw) (stomped : Bool) : State :=
  let padded := frame ++ List.replicate (60 - frame.length) 0#8
  let fcs := if stomped then complementBytes (fcsOf padded) else fcsOf padded
  let s1 : State := { s with fr := { s.fr with wire := tput {} s.fr.wire p { frame := padded ++ fcs, stomped := stomped, ts := ts } } }
  (s1.setPortLink p { s1.portLink p with idleSince := s.rawTotal }).count (if stomped then Ix.txStomped else Ix.txFrames) (p + 1) 1

/-- A frame of the device's own leaves port `p` whole. -/
def emit (s : State) (p : Nat) (frame : List Byte) (ts : Raw) : State := s.emitAs p frame ts false

/-- A frame of the device's own is sent, or its port begins to wake for it; else it waits. -/
def trySend (s : State) (p : Nat) (gate : Bool) (frame : List Byte) (ts : Raw) (sent : State → State) : State :=
  if s.canEmit p gate then sent (s.emit p frame ts)
  else if s.portUp p && !s.awake p then s.wakePort p
  else s

end State
end Sys2Proof.Machine
end

