-- ==== Sys2Proof/Machine/Meridian.lean ====
section
/-! DEFINITION. Commands to a domain's time: corrections, steps, slews, rates and the snapshot (R206, R210, R211, R235). -/

namespace Sys2Proof.Machine
namespace State

/-- TIME_SET (R205, R210): nanoseconds of 10^9 or above abort. -/
def writeTimeSet (s : State) (d v : Nat) : Wr :=
  if 1000000000 ≤ v / 65536 % 4294967296 then (s, Abort.outOfRange) else (s.setTime d (ofTime96 v), 0)

/-- TIME_ADJUST (R210). -/
def writeTimeAdjust (s : State) (d : Nat) (v : Int) : Wr := (s.stepTime d v, 0)

/-- TIME_SLEW (R210): `v` ns are removed by a rate deviation; the remainder is replaced. -/
def writeTimeSlew (s : State) (d : Nat) (v : Int) : Wr := (s.sendChange d (v * 18446744073709551616) id, 0)

/-- TIME_RATE_SET (R210, R212): the rate while the domain is in FREE_RUN. -/
def writeTimeRateSet (s : State) (d : Nat) (v : Int) : Wr :=
  if v < rateMin ∨ rateMax < v then (s, Abort.outOfRange)
  else
    let s1 := s.setRegI Ix.timeRateSet (d + 1) 8 v
    (if s.domState d = 0 then s1.sendRate d else s1, 0)

/-- TIME_SNAPSHOT (R235): raw time and the four domains' sync times, latched in one clock. -/
def writeTimeSnapshot (s : State) (v : Nat) : Wr :=
  commandWrite s v fun s =>
    let bs := leBytes 8 s.raw.toNat ++ (List.range 4).flatMap fun d => leBytes 12 (time96 (s.syncNow d))
    (s.setReg Ix.timeSnapshotValue 0 (leNat bs), 0)

/-- TIME_SLEW_REMAINING in ns (R211): whole, or as the spec leaves open. -/
def slewRemaining (s : State) (d : Nat) : Int := (Frac.mk' (s.slewLeft d s.raw) 18446744073709551616).whole

/-- The slew remainder of domain `d` has been removed (R211). -/
def slewDone (s : State) (d : Nat) : Bool := (s.dom d).slew != 0 && s.slewLeft d s.raw == 0

end State

/-- CORRECTION_SWITCH (R16): the changes of domain `d` whose effective raw time has come are in force in every island. -/
def execCorrectionSwitch (d : Nat) (s : State) : Out :=
  if 4 ≤ d then .next s else .next (s.switchDomain d)

/-- PIVOT_RETAKE (R206): the pivot is re-taken at the present raw time, the remainder carried. -/
def execPivotRetake (d : Nat) (s : State) : Out :=
  if 4 ≤ d then .next s
  else
    let s1 := s.switchDomain d
    .next (s1.setDom d { s1.dom d with corr := (s1.dom d).corr.retake s1.raw })

/-- TIME_SET (R210). -/
def execTimeSet (d value : Nat) (s : State) : Out :=
  if 4 ≤ d then Wr.out (s, Abort.noSuch) else (s.writeTimeSet d value).out

/-- TIME_ADJUST (R210). -/
def execTimeAdjust (d : Nat) (value : Int) (s : State) : Out :=
  if 4 ≤ d then Wr.out (s, Abort.noSuch) else (s.writeTimeAdjust d value).out

/-- TIME_SLEW (R210). -/
def execTimeSlew (d : Nat) (value : Int) (s : State) : Out :=
  if 4 ≤ d then Wr.out (s, Abort.noSuch) else (s.writeTimeSlew d value).out

/-- TIME_RATE_SET (R210). -/
def execTimeRateSet (d : Nat) (value : Int) (s : State) : Out :=
  if 4 ≤ d then Wr.out (s, Abort.noSuch) else (s.writeTimeRateSet d value).out

/-- SLEW_END (R211): the remainder has reached 0 and the slew part of the rate ends. The end is on the time bus since the
slew began, unless it lay beyond the horizon then. -/
def execSlewEnd (d : Nat) (s : State) : Out :=
  if 4 ≤ d then .next s
  else if s.slewDone d then
    let s1 := s.switchDomain d
    let s2 := s1.setDom d { s1.dom d with slew := 0, part := 0 }
    .next (if (s2.corrLast d).rho = State.cutRate (s2.baseRate d) then s2 else s2.sendRate d)
  else .next s

/-- TIME_SNAPSHOT (R235). -/
def execTimeSnapshot (s : State) : Out := (s.writeTimeSnapshot 1).out

end Sys2Proof.Machine
end

