-- ==== Sys2Proof/Machine/Servo.lean ====
section
/-! DEFINITION. The servo of a domain: samples, path-delay steps, alternate paths, lock and holdover (R212 to R219, R227,
R290 to R292). -/

namespace Sys2Proof.Machine

/-- 7,812,500 ns: the least raw time between accepted samples (R213). -/
def sampleGap : Nat := 512000000000

/-- The mean of a list of delays. -/
def meanOf (l : List Int) : Frac := Frac.mk' l.sum l.length

/-- |x − mean of l| exceeds `th` ru. -/
def deviates (l : List Int) (x : Int) (th : Nat) : Bool := decide (th * l.length < (x * l.length - l.sum).natAbs)

namespace State

/-- PD_STEP_THRESHOLD in ru. -/
def pdThreshold (s : State) (d : Nat) : Nat := s.reg Ix.pdStepThreshold (d + 1) * 65536

/-- A sample is rejected and counted (R213). -/
def rejectSample (s : State) (d : Nat) : State := s.count Ix.servoSamplesRejected (d + 1) 1

/-- The last offset seen on a path: false the slave port, true SERVO_ALT_PORT. -/
def pathSample (s : State) (d : Nat) (alt : Bool) : PathSample := if alt then (s.servo d).alt else (s.servo d).main

/-- The path in use is SERVO_ALT_PORT. -/
def onAlt (s : State) (d : Nat) : Bool := s.reg Ix.servoPathInUse (d + 1) == 1

/-- An offset is taken at a path, and shown in SERVO_OFFSET or SERVO_ALT_OFFSET (R218, R237). -/
def notePath (s : State) (d : Nat) (theta : Int) (alt : Bool) : State :=
  let x := s.servo d
  let ps : PathSample := { theta := theta, taken := s.rawTotal, seen := true }
  let s1 := s.setServo d (if alt then { x with alt := ps } else { x with main := ps })
  let s2 := if alt then s1.setRegI Ix.servoAltOffset (d + 1) 8 theta else s1
  if alt = s.onAlt d then s2.setRegI Ix.servoOffset (d + 1) 8 theta else s2

/-- The servo takes the other path; delays are learned afresh on it (R218). -/
def usePath (s : State) (d : Nat) (alt : Bool) : State :=
  (s.setReg Ix.servoPathInUse (d + 1) (if alt then 1 else 0)).setServo d
    { s.servo d with delays := [], detector := false, settling := none, settled := false }

/-- The alternate path has changed: nothing of the old one is known, and the slave port is in use (R218). -/
def forgetAlt (s : State) (d : Nat) : State :=
  let s1 := if s.onAlt d then s.usePath d false else s
  let x := s1.servo d
  let s2 := s1.setServo d { x with alt := {}, disagreeRun := 0, inEpisode := false, suspect := none, suspectRun := [] }
  (s2.setTimeFlag d 2 false).setTimeFlag d 3 false

/-- The source has changed: delays, the detector and both paths are learned afresh, on the slave port (R212, R215, R237). -/
def forgetPaths (s : State) (d : Nat) : State :=
  let s1 := (s.usePath d false).forgetAlt d
  s1.setServo d { s1.servo d with main := {}, holdoverByStep := false }

/-- A suspect path that has settled and agrees with the path in use is eligible again (R218). -/
def settleSuspect (s : State) (d : Nat) (delay : Int) : State :=
  let x := s.servo d
  let run := match x.suspectRun with
    | f :: _ => if s.pdThreshold d < (delay - f).natAbs then [delay] else x.suspectRun ++ [delay]
    | [] => [delay]
  let agree := decide ((x.main.theta - x.alt.theta).natAbs ≤ s.pdThreshold d)
  if s.reg Ix.pdStableIntervals (d + 1) ≤ run.length ∧ agree then
    (s.setServo d { x with suspect := none, suspectRun := [] }).setTimeFlag d 2 false
  else s.setServo d { x with suspectRun := run }

/-- A sample of the other path, which the servo does not use (R218). -/
def otherPath (s : State) (d : Nat) (delay : Int) : State :=
  if (s.servo d).suspect.isSome then s.settleSuspect d delay else s

/-- Both paths are compared at a sample of the path in use (R218). While the other path is suspect it is not eligible, and the
servo stays. -/
def comparePaths (s : State) (d : Nat) : State :=
  let x := s.servo d
  let th := s.pdThreshold d
  if x.main.seen = false ∨ x.alt.seen = false ∨ s.reg Ix.servoAltPort (d + 1) = 0xFFFF then s
  else if (x.main.theta - x.alt.theta).natAbs ≤ th then
    (s.setServo d { x with disagreeRun := 0, inEpisode := false }).setTimeFlag d 3 false
  else
    let run := x.disagreeRun + 1
    let s1 := s.setServo d { x with disagreeRun := run }
    if run < s.reg Ix.pdStableIntervals (d + 1) ∨ x.inEpisode then s1
    else
      let s2 := ((s1.setServo d { s1.servo d with inEpisode := true }).countSat Ix.servoPathDisagree (d + 1) 1).event
        Ix.servoPathDisagree 1 meridian []
      let mainOk := decide (x.main.theta.natAbs ≤ th)
      let altOk := decide (x.alt.theta.natAbs ≤ th)
      if mainOk = altOk ∨ x.suspect.isSome then s2.setTimeFlag d 3 true
      else if altOk = s2.onAlt d then s2
      else s2.usePath d altOk

/-- The other path can take over (R218). -/
def canTakeOver (s : State) (d : Nat) : Bool :=
  let o := s.pathSample d (!s.onAlt d)
  s.reg Ix.servoAltPort (d + 1) != 0xFFFF && (s.servo d).suspect.isNone && o.seen &&
    decide (s.since o.taken ≤ ns (s.reg Ix.servoHoldoverTimeout (d + 1) * 1000000)) &&
    decide (o.theta.natAbs ≤ s.pdThreshold d)

/-- A settling run holds the delays `run`: long enough, the path is stable and its mean is in force (R216). -/
def settleRun (s : State) (d : Nat) (run : List Int) : State :=
  let x := s.servo d
  if s.reg Ix.pdStableIntervals (d + 1) ≤ run.length then
    (s.setServo d { x with settling := none, settled := true, delays := run }).setRegI Ix.servoPathDelay (d + 1) 8
      (meanOf run).whole
  else s.setServo d { x with settling := some run }

/-- A path-delay step (R215, R218): rejected, counted and logged; the other path takes over, or the domain holds over while a
settling run starts with this sample. -/
def pathDelayStep (s : State) (d : Nat) (delay : Int) : State :=
  let mean := (meanOf (s.servo d).delays).whole
  let s1 := ((s.rejectSample d).countSat Ix.servoPdSteps (d + 1) 1).event Ix.servoPdSteps 1 meridian
    [(8, ofSigned 64 mean), (8, ofSigned 64 delay)]
  if s1.canTakeOver d then
    let old := s1.reg Ix.servoPathInUse (d + 1)
    let s2 := s1.usePath d (!s1.onAlt d)
    ((s2.setServo d { s2.servo d with suspect := some old, suspectRun := [] }).setTimeFlag d 2 true).event
      Ix.servoPathInUse 1 meridian []
  else
    let s2 := s1.enterHoldover d 3
    (s2.setServo d { s2.servo d with holdoverByStep := true, settled := false, oldMean := mean }).settleRun d [delay]

/-- A sample of a settling run (R216). -/
def settleSample (s : State) (d : Nat) (run : List Int) (delay : Int) : State :=
  (s.rejectSample d).settleRun d (match run with
    | f :: _ => if s.pdThreshold d < (delay - f).natAbs then [delay] else run ++ [delay]
    | [] => [delay])

/-- D of an accepted sample enters the mean of the last 8 (R215). -/
def takeDelay (s : State) (d : Nat) (delay : Int) : State :=
  let x := s.servo d
  let l := (delay :: x.delays.reverse).take 8
  (s.setServo d { x with delays := l.reverse, detector := x.detector || decide (8 ≤ l.length) }).setRegI
    Ix.servoPathDelay (d + 1) 8 (meanOf l).whole

/-- The first accepted sample after a settled path-delay step, or after quorum was regained, sets the way the domain heals
(R217, R290). -/
def beginHealing (s : State) (d : Nat) (theta : Int) : State :=
  let x := s.servo d
  if x.settled then
    let delta := (meanOf x.delays).whole - x.oldMean
    ((s.setServo d { x with settled := false, holdoverByStep := false, slewLimited := true }).setTimeFlag d 1 true).event
      Ix.servoLockThreshold 1 meridian [(8, ofSigned 64 delta), (8, ofSigned 64 theta)]
  else if x.healing then
    let th := s.reg Ix.servoStepThreshold (d + 1)
    if th ≠ 0 ∧ th * 65536 < theta.natAbs then s.setServo d { x with healing := false }
    else (s.setServo d { x with healing := false, slewLimited := true }).setTimeFlag d 1 true
  else s

/-- Lock and loss of lock (R212). -/
def judgeLock (s : State) (d : Nat) (theta : Int) : State :=
  let x := s.servo d
  let good := decide (theta.natAbs ≤ s.reg Ix.servoLockThreshold (d + 1) * 65536)
  let n := s.reg Ix.servoLockCount (d + 1)
  let x1 := if good then { x with lockRun := x.lockRun + 1, missRun := 0 } else { x with lockRun := 0, missRun := x.missRun + 1 }
  let s1 := s.setServo d x1
  if s1.domState d = 1 ∧ n ≤ x1.lockRun then s1.enterState d 2
  else if s1.domState d = 2 ∧ n ≤ x1.missRun then s1.enterState d 1
  else s1

/-- The PI step of R213; `dt` is the raw time since the previous accepted sample. -/
def piStep (s : State) (d : Nat) (theta : Int) (dt : Nat) : State :=
  let x := s.servo d
  let t := min dt (ns (s.reg Ix.servoHoldoverTimeout (d + 1) * 1000000))
  let e := Frac.mk' (theta * 1000000000) t
  let bound := Frac.ofInt 1953125
  let i1 := Frac.clamp bound.neg bound (x.integ.add (e.divNat (2 ^ s.reg Ix.servoKi (d + 1))))
  let y := ((e.divNat (2 ^ s.reg Ix.servoKp (d + 1))).add i1).neg
  let lim := Frac.ofInt (s.reg Ix.servoSlewLimit (d + 1))
  let y1 := if x.slewLimited then Frac.clamp (x.heldI.neg.add lim.neg) (x.heldI.neg.add lim) y else y
  let integ := if y1 = y then i1 else x.integ
  let s1 := s.setServo d { x with integ := integ, output := ppbToRate y1 }
  let s2 := s1.setRegI Ix.servoIntegrator (d + 1) 8 (integ.mulInt 65536).whole
  if x.slewLimited ∧ theta.natAbs ≤ s.reg Ix.servoLockThreshold (d + 1) * 65536 then s2.endSlewLimited d else s2

/-- An accepted sample (R213): the offset steps the domain, or moves the integrator and the output. -/
def acceptSample (s : State) (d : Nat) (theta delay : Int) : State :=
  let x := s.servo d
  let dt := s.since x.lastAccepted
  let s1 := ((s.count Ix.servoSamples (d + 1) 1).setTimeFlag d 0 false).judgeSilence d theta
  let s2 := (s1.beginHealing d theta).takeDelay d delay
  let s3 := (s2.setServo d { s2.servo d with lastAccepted := s.rawTotal, hasSample := true }).setDom d
    { (s2.setServo d { s2.servo d with lastAccepted := s.rawTotal, hasSample := true }).dom d with quietSince := s.rawTotal }
  let s4 := if s3.domState d = 0 ∨ s3.domState d = 3 then s3.enterState d 1 else s3
  let th := s4.reg Ix.servoStepThreshold (d + 1)
  if (s4.servo d).slewLimited = false ∧ th ≠ 0 ∧ th * 65536 < theta.natAbs then
    ((s4.stepTime d (-theta)).countSat Ix.servoSteps (d + 1) 1).judgeLock d theta
  else if x.hasSample = false then
    (((s4.setServo d { s4.servo d with integ := {} }).setReg Ix.servoIntegrator (d + 1) 0).judgeLock d theta).sendRate d
  else ((s4.piStep d theta dt).judgeLock d theta).sendRate d

/-- A sample on the path in use: rejected by R213, R215 or R216, or accepted. -/
def takeSample (s : State) (d : Nat) (theta delay : Int) (valid : Bool) : State :=
  let x := s.servo d
  if valid = false ∨ (x.hasSample ∧ s.since x.lastAccepted < sampleGap) then s.rejectSample d
  else
    match x.settling with
    | some run => s.settleSample d run delay
    | none =>
      if x.detector ∧ x.settled = false ∧ s.reg Ix.servoSource (d + 1) ≠ 3 ∧ deviates x.delays delay (s.pdThreshold d) then s.pathDelayStep d delay
      else s.acceptSample d theta delay

/-- The port a path of domain `d` is measured at: its slave port, or SERVO_ALT_PORT where that is a passive port of the domain,
or a slave port of another domain with the same grandmaster (R212, R218). -/
def pathPort (s : State) (d : Nat) (alt : Bool) : Option Nat :=
  if alt then
    let p := s.reg Ix.servoAltPort (d + 1)
    let root (e : Nat) : List Byte := slice (s.ptp p e).best 6 8
    let mine := match s.slavePort d with
      | some q => slice (s.ptp q d).best 6 8
      | none => []
    let shares (e : Nat) : Bool := e != d && s.ptpState p e == 3 && root e == mine
    if p < 512 ∧ (s.ptpState p d = 4 ∨ (List.range 4).any shares = true) then some p else none
  else s.slavePort d

/-- The timestamps behind a sample of port `p` are valid: none was taken by a time-lost island (R17, R223). -/
def stampsValid (s : State) (p d : Nat) : Bool := !(s.ptp p d).syncLost && !(s.ptp p d).delayLost

/-- PTP_ASYMMETRY of port `p` in ru, as the standard's delayAsymmetry (R226). -/
def asymmetry (s : State) (p : Nat) : Int := psToRu (s.regI Ix.ptpAsymmetry (p + 1) 4)

/-- A sample the time protocol measured at port `p` (R213, R218): `theta` is the offset before delayAsymmetry is taken off. -/
def pathSampled (s : State) (d p : Nat) (theta delay : Int) (alt : Bool) : State :=
  let valid := s.stampsValid p d
  let th := theta - s.asymmetry p
  let s1 := if valid then s.notePath d th alt else s
  if alt = s1.onAlt d then
    let s2 := s1.comparePaths d
    if alt = s2.onAlt d then s2.takeSample d th delay valid else s2
  else if valid then s1.otherPath d delay else s1

end State

/-- SERVO_SAMPLE (R213 to R219, R227, R288): an offset sample reaches the servo of domain `d`. Without a source, or while the
domain is PARTITIONED, there is no sample; a grandmaster never follows the network (R224). -/
def execServoSample (d : Nat) (x : ServoInput) (s : State) : Out :=
  if 4 ≤ d then .next s
  else
    let src := s.reg Ix.servoSource (d + 1)
    if s.domState d = 4 then .next s
    else
      match x with
      | .offered =>
        match (s.dom d).offered with
        | [] => .next s
        | (theta, delay) :: rest =>
          let s1 := s.setDom d { s.dom d with offered := rest }
          if src ≠ 2 ∧ src ≠ 3 then .next s1
          else .next ((s1.setRegI Ix.servoOffset (d + 1) 8 theta).takeSample d theta delay true)
      | .path theta delay alt =>
        if src ≠ 1 ∨ s.reg Ix.timeRole (d + 1) ≠ 1 then .next s
        else
          match s.pathPort d alt with
          | some p => .next (s.pathSampled d p theta delay alt)
          | none => .next s

/-- SERVO_HOLDOVER_TIMEOUT (R212): no sample accepted for the timeout; the domain enters HOLDOVER. -/
def execServoHoldoverTimeout (d : Nat) (s : State) : Out :=
  if 4 ≤ d then .next s
  else if (s.domState d = 1 ∨ s.domState d = 2) ∧
      State.ns (s.reg Ix.servoHoldoverTimeout (d + 1) * 1000000) ≤ s.since (s.dom d).quietSince then
    .next (s.enterHoldover d 3)
  else .next s

/-- HOLDOVER_LIMIT (R212): a state has run for the limit without an accepted sample. -/
def execHoldoverLimit (d : Nat) (s : State) : Out :=
  let limit := State.ns (s.reg Ix.holdoverLimit (d + 1) * 1000000000)
  if 4 ≤ d then .next s
  else if bit (s.reg Ix.timeFlags (d + 1)) 0 = false ∧ limit ≤ s.since (s.dom d).enteredAt ∧
      limit ≤ s.since (s.dom d).quietSince then
    .next ((s.setTimeFlag d 0 true).event Ix.holdoverLimit 1 State.meridian [])
  else .next s

/-- SILENCE_HOLDOVER_TIMEOUT (R291): a stay in HOLDOVER or PARTITIONED has lasted longer than SILENCE_HOLDOVER. -/
def execSilenceHoldoverTimeout (d : Nat) (s : State) : Out :=
  if 4 ≤ d then .next s
  else
    let limit := s.reg Ix.silenceHoldover (d + 1)
    if limit ≠ 0 ∧ s.reg Ix.silenceThreshold (d + 1) ≠ 0 ∧ (s.domState d = 3 ∨ s.domState d = 4) ∧
        State.ns (limit * 1000000) < s.since (s.dom d).enteredAt then .next (s.silence d)
    else .next s

end Sys2Proof.Machine
end

