-- ==== Sys2Proof/Machine/Quorum.lean ====
section
/-! DEFINITION. The best master clock algorithm's port states, and quorum (R224, R282 to R290). -/

namespace Sys2Proof.Machine

namespace State

/-! ### Quorum (R283 to R290) -/

def quorum (s : State) (d : Nat) : Quorum := (s.dom d).quorum
def setQuorum (s : State) (d : Nat) (x : Quorum) : State := s.setDom d { s.dom d with quorum := x }

def memberId (s : State) (d : Nat) : Nat := s.reg Ix.quorumMemberId (d + 1)
def weightBytes (s : State) (d : Nat) : List Byte := leBytes 32 (s.reg Ix.quorumWeights (d + 1))
def weight (s : State) (d n : Nat) : Nat := ((s.weightBytes d).getD n 0#8).toNat
def tiebreak (s : State) (d : Nat) : Nat := s.reg Ix.quorumTiebreak (d + 1)

/-- W_total, and the configuration digest (R283). -/
def totalWeight (s : State) (d : Nat) : Nat := ((s.weightBytes d).map BitVec.toNat).sum
def quorumDigest (s : State) (d : Nat) : Nat := crc32c (s.weightBytes d ++ leBytes 1 (s.tiebreak d))

/-- Member `n` is seen; a member always sees itself (R286). -/
def sees (s : State) (d n : Nat) : Bool := n == s.memberId d || (s.quorum d).seen.contains n

/-- Members seen, W_seen and the seen map. -/
def seenMembers (s : State) (d : Nat) : List Nat := (List.range 32).filter (s.sees d)
def seenWeight (s : State) (d : Nat) : Nat := ((s.seenMembers d).map (s.weight d)).sum
def seenMap (s : State) (d : Nat) : Nat := ((s.seenMembers d).map (2 ^ ·)).sum

/-- Quorum holds (R287). -/
def quorumHolds (s : State) (d : Nat) : Bool :=
  !s.regB Ix.quorumEnable (d + 1) || decide (s.totalWeight d < 2 * s.seenWeight d) ||
    (decide (2 * s.seenWeight d = s.totalWeight d) && decide (s.tiebreak d < 32) && s.sees d (s.tiebreak d))

/-- Quorum is regained: the domain leaves PARTITIONED for ACQUIRING, and the port states unfreeze (R290). -/
def regainQuorum (s : State) (d : Nat) : State :=
  if s.domState d ≠ 4 then s
  else
    let s1 := s.setServo d { s.servo d with healing := true, lockRun := 0, missRun := 0 }
    ((((s1.setDom d { s1.dom d with quietSince := s.rawTotal }).enterState d 1)).sendRate d).decidePorts d

/-- The rings that follow domain `d` note a loss of quorum for their next gather (R288). -/
def markRings (s : State) (d : Nat) : State :=
  ((List.range 16).filter fun m => s.reg Ix.henayDomain (m + 1) == d).foldl (fun t m =>
    { t with ri := { t.ri with rings := tmod {} t.ri.rings m fun (x : MRing) => { x with lost := true } } }) s

/-- Quorum is judged (R287, R288): W_seen, the seen map and the state are shown; a loss partitions the domain. -/
def judgeQuorum (s : State) (d : Nat) : State :=
  let s1 := (s.setReg Ix.quorumSeenWeight (d + 1) (s.seenWeight d)).setReg Ix.quorumSeenMap (d + 1) (s.seenMap d)
  let old := s.reg Ix.quorumState (d + 1)
  let holds := s1.quorumHolds d
  let new := if s.regB Ix.quorumEnable (d + 1) = false then 0 else if holds then 1 else 2
  let s2 := s1.setReg Ix.quorumState (d + 1) new
  if holds then s2.regainQuorum d
  else
    let s3 := if old = 1 then
        (s2.countSat Ix.quorumLosses (d + 1) 1).event Ix.quorumLosses 1 meridian [(2, s2.seenWeight d), (4, s2.seenMap d)]
      else s2
    if s3.domState d = 4 then s3 else (s3.enterHoldover d 4).markRings d

/-- Entry `e` is newer than what is held for member `n` (R286). -/
def newerRoll (s : State) (d n e : Nat) : Bool :=
  let held := tgetD (s.quorum d).held n 0
  let ahead := (e + 65536 - held) % 65536
  let behind := (held + 65536 - e) % 65536
  if (s.quorum d).seen.contains n then decide (1 ≤ ahead ∧ ahead ≤ 32767)
  else
    let k := ceilDiv (s.reg Ix.quorumAge (d + 1)) (s.reg Ix.rollPeriod (d + 1)) + 1
    decide (e ≠ held) && !decide (1 ≤ behind ∧ behind ≤ k)

/-- Entry `n` of a roll-call body is taken (R286). -/
def takeRoll (s : State) (d n e : Nat) : State :=
  if e = 0 ∨ n = s.memberId d ∨ s.newerRoll d n e = false then s
  else
    let x := s.quorum d
    s.setQuorum d { x with held := tset x.held n e, rises := tset x.rises n s.rawTotal,
                           seen := if x.seen.contains n then x.seen else x.seen ++ [n] }

/-- A roll-call body (R285, R286): one of another version or configuration is counted and ignored. -/
def takeRollCall (s : State) (d : Nat) (body : List Byte) : State :=
  if body.length < 76 ∨ beField body 0 1 ≠ 1 ∨ beField body 8 4 ≠ s.quorumDigest d then
    s.count Ix.quorumConfigMismatch (d + 1) 1
  else ((List.range 32).foldl (fun t n => t.takeRoll d n (beField body (12 + 2 * n) 2)) s).judgeQuorum d

/-- The body of the device's own roll call (R285). -/
def rollBody (s : State) (d : Nat) : List Byte :=
  let id := s.memberId d
  let flags := ofBool (s.quorumHolds d) + 2 * ofBool (decide (s.domState d = 4)) +
    4 * ofBool (decide (id < 32 ∧ id = s.tiebreak d))
  let entry (n : Nat) : Nat :=
    if n = id then (s.quorum d).roll else if (s.quorum d).seen.contains n then tgetD (s.quorum d).held n 0 else 0
  leBytes 1 1 ++ leBytes 1 flags ++ leBytes 1 id ++ leBytes 1 (s.tiebreak d) ++ beBytes 2 (s.totalWeight d) ++
    beBytes 2 (s.seenWeight d) ++ beBytes 4 (s.quorumDigest d) ++ (List.range 32).flatMap fun n => beBytes 2 (entry n)

end State

/-- ROLL_ADVANCE (R284): ROLL_PERIOD has passed, and a member's roll number goes on by one, from 65,535 to 1. -/
def execRollAdvance (d : Nat) (s : State) : Out :=
  if 4 ≤ d then .next s
  else if 32 ≤ s.memberId d ∨ s.since (s.quorum d).lastRoll < State.ns (s.reg Ix.rollPeriod (d + 1) * 1000000) then .next s
  else
    let x := s.quorum d
    .next (s.setQuorum d { x with roll := if x.roll = 65535 then 1 else x.roll + 1, lastRoll := s.rawTotal })

/-- ROLL_CALL_RECEIVE (R286): a roll-call body of domain `d`, from a time message or a ring-control record. -/
def execRollCallReceive (d : Nat) (body : List Byte) (s : State) : Out :=
  if 4 ≤ d then .next s else .next (s.takeRollCall d body)

/-- MEMBER_AGE_OUT (R286, R287): member `m` has not risen within QUORUM_AGE. -/
def execMemberAgeOut (d m : Nat) (s : State) : Out :=
  if 4 ≤ d ∨ 32 ≤ m then .next s
  else
    let x := s.quorum d
    if x.seen.contains m ∧ State.ns (s.reg Ix.quorumAge (d + 1) * 1000000) ≤ s.since (tgetD x.rises m 0) then
      .next ((s.setQuorum d { x with seen := x.seen.filter (· != m) }).judgeQuorum d)
    else .next s

end Sys2Proof.Machine
end

