-- ==== Sys2Proof/Machine/Ptp.lean ====
section
/-! DEFINITION. The time engine: messages received and sent, roll calls in signaling messages, and calibration
(R222 to R226, R282, R285). The message layouts are those of IEEE 1588 and IEEE 802.1AS (PRESUMED). -/

namespace Sys2Proof.Machine

/-- The 34-byte header of a message: its type, total length, flags, correction, sequence, control and interval. -/
structure PtpHead where
  kind : Nat
  length : Nat
  flags : Nat
  correction : Nat
  seq : Nat
  control : Nat
  interval : Nat
  deriving DecidableEq, Repr

def ptpHeader (s : State) (p d : Nat) (h : PtpHead) : List Byte :=
  leBytes 1 ((if s.isGptp d then 16 else 0) + h.kind) ++ [0x12#8] ++ beBytes 2 h.length ++
    leBytes 1 (s.reg Ix.timePtpDomainNumber (d + 1)) ++ [0#8] ++ beBytes 2 h.flags ++ beBytes 8 h.correction ++
    [0#8, 0#8, 0#8, 0#8] ++ portIdentity p ++ beBytes 2 h.seq ++
    leBytes 1 h.control ++ leBytes 1 h.interval

/-- A 10-byte PTP timestamp of a sync time. -/
def ptpStamp (sync : Int) : List Byte :=
  beBytes 6 (sync / 65536000000000 % 281474976710656).toNat ++ beBytes 4 (sync / 65536 % 1000000000).toNat

/-- The organization TLV gPTP adds to Follow_Up. -/
def followUpTlv : List Byte := beBytes 2 3 ++ beBytes 2 28 ++ beBytes 3 0x0080C2 ++ beBytes 3 1 ++ List.replicate 22 0#8

/-- Destination group addresses: MAC, IPv4 and IPv6, for peer-delay messages and for all others. -/
def ptpGroups (gptp peer : Bool) : List Byte × List Byte × List Byte :=
  let mac := if gptp || peer then beBytes 6 0x0180C200000E else beBytes 6 0x011B19000000
  if peer then (mac, beBytes 4 0xE000006B, beBytes 16 0xFF02000000000000000000000000006B)
  else (mac, beBytes 4 0xE0000181, beBytes 16 0xFF0E0000000000000000000000000181)

/-- The two octets that keep the UDP checksum of a message whose bytes have changed (R226). -/
def balance (before after : List Byte) : List Byte := beBytes 2 ((sum16 before + 65535 - sum16 after % 65535) % 65535)

/-- The frame that carries message `m` from port `p`; `bare` is the message before the port island wrote into it. -/
def ptpFrame (s : State) (p d : Nat) (peer event : Bool) (m bare : List Byte) : List Byte :=
  let g := ptpGroups (s.isGptp d) peer
  let port := if event then 319 else 320
  let src := s.macOf p
  let tr := if s.isGptp d then 0 else s.reg Ix.timeTransport (d + 1)
  if tr = 1 then
    beBytes 6 (0x01005E000000 + beNat g.2.1 % 8388608) ++ src ++ udpPacket false s.ipv4 g.2.1 port port m false
  else if tr = 2 then
    beBytes 6 (0x333300000000 + beNat g.2.2 % 4294967296) ++ src ++
      udpPacket true s.ipv6 g.2.2 port port (m ++ balance bare m) true
  else g.1 ++ src ++ beBytes 2 0x88F7 ++ m

namespace State

/-- Class of the engine's messages at port `p` (R226). -/
def ptpClass (s : State) (p : Nat) : Nat := s.reg Ix.ptpTxClass (p + 1)

/-- A message interval object as its byte. -/
def intervalByte (s : State) (idx p : Nat) : Nat := s.reg idx (p + 1)

/-- The interval in ns of a log2 object. -/
def intervalNs (s : State) (idx p : Nat) : Nat :=
  let k := s.regI idx (p + 1) 1
  if 0 ≤ k then 1000000000 * 2 ^ k.toNat else 1000000000 / 2 ^ (-k).toNat

/-- `interval` ns have passed since a message of this kind was sent, or none was. -/
def sendDue (s : State) (sent : Option Stamp) (interval : Nat) : Bool :=
  match sent with
  | some r => decide (ns interval ≤ s.since r)
  | none => true

/-- The engine may send for domain `d` on port `p`: a present port, the domain enabled, the engine running (R225, R476). -/
def engineMay (s : State) (p d : Nat) : Bool := s.portPresent p && decide (d < 4) && s.ptpEnabled p d && s.supervisorUp

/-- Message `m` of domain `d` leaves port `p`. -/
def sendPtp (s : State) (p d : Nat) (peer event : Bool) (m bare : List Byte) (ts : Raw) (sent : State → State) : State :=
  s.trySend p (s.timeOpen p (s.ptpClass p)) (ptpFrame s p d peer event m bare) ts fun t =>
    sent { t with tm := { t.tm with sent := tset t.tm.sent p m } }

/-- The Sync of port `p` with its timestamp, one-step or two-step, and the Follow_Up of a two-step Sync (R224, R226). -/
def syncMessages (s : State) (p d : Nat) (ts : Raw) : List Byte × List Byte × Option (List Byte) :=
  let x := s.ptp p d
  let sync := s.syncAt d ts
  let two := s.regB Ix.timeTwoStep (d + 1)
  let int := s.intervalByte Ix.ptpSyncInterval p
  let head (flags corr : Nat) : List Byte := ptpHeader s p d ⟨0, 44, flags, corr, x.seqSync, 0, int⟩
  let bare := head (if two then 0x0200 else 0) 0 ++ List.replicate 10 0#8
  if two then
    let tlv := if s.isGptp d then followUpTlv else []
    let f := ptpHeader s p d ⟨8, 44 + tlv.length, 0, (sync % 65536).toNat, x.seqSync, 2, int⟩ ++ ptpStamp sync ++ tlv
    (bare, bare, some f)
  else (head 0 (sync % 65536).toNat ++ ptpStamp sync, bare, none)

/-- The clock a domain announces: that of its slave port with one more step removed, or its own. -/
def announcedClock (s : State) (d : Nat) : List Byte :=
  match (s.slavePort d).bind fun p => s.heardAt p d with
  | some h =>
    let v := h.onward.vec
    slice v 0 1 ++ (if s.domState d = 4 then [248#8] else slice v 1 1) ++ slice v 2 14
  | none => s.ownClock d

/-- The roll-call TLV (R285). -/
def rollTlv (s : State) (d : Nat) : List Byte :=
  beBytes 2 0x8000 ++ beBytes 2 82 ++ beBytes 3 (s.reg Ix.rollCallOrgId (d + 1) % 16777216) ++ beBytes 3 1 ++ s.rollBody d

/-- The Announce of port `p`, with its roll call where the domain has quorum enabled (R285). -/
def announceMessage (s : State) (p d : Nat) : List Byte :=
  let tlv := if s.regB Ix.quorumEnable (d + 1) then s.rollTlv d else []
  ptpHeader s p d ⟨11, 64 + tlv.length, 0, 0, (s.ptp p d).seqAnnounce, 5, s.intervalByte Ix.ptpAnnounceInterval p⟩ ++
    List.replicate 10 0#8 ++ [Config.timeByte 10, Config.timeByte 11, 0#8] ++ s.announcedClock d ++ [Config.timeByte 12] ++ tlv

/-- The domain a time message of port `p` belongs to, and the message (R225). -/
def timeMessage (s : State) (p : Nat) (w : List Byte) : Option (Nat × List Byte) :=
  let at_ := if tagAt w 12 then 16 else 12
  let m : Option (List Byte) :=
    if beField w at_ 2 = 0x88F7 then some (w.drop (at_ + 2))
    else
      match udpOf w with
      | some u => if (u.dport = 319 ∨ u.dport = 320) ∧ s.ownsIp u then some u.data else none
      | none => none
  match m with
  | none => none
  | some b =>
    ((List.range 4).find? fun d =>
      bit (s.reg Ix.ptpPortDomains (p + 1)) d && s.reg Ix.timePtpDomainNumber (d + 1) == beField b 4 1).map fun d => (d, b)

/-- Port `p` sends Sync, and Follow_Up where two-step, with the transmit timestamp of its position (R224, R226). -/
def sendSync (s : State) (p d : Nat) (launch : Raw) (pipe : Int) : State :=
  let ts := s.txTimestamp p launch pipe
  let m := s.syncMessages p d ts
  let note (t : State) : State :=
    let t1 := t.setPtp p d { t.ptp p d with sentSync := some t.rawTotal, seqSync := ((t.ptp p d).seqSync + 1) % 65536 }
    match m.2.2 with
    | some f => (t1.emit p (ptpFrame s p d false false f f) ts)
    | none => t1
  s.sendPtp p d false true m.1 m.2.1 ts note

/-- Port `p` sends Announce (R285). -/
def sendAnnounce (s : State) (p d : Nat) : State :=
  let m := s.announceMessage p d
  s.sendPtp p d false false m m s.raw fun t =>
    t.setPtp p d { t.ptp p d with sentAnnounce := some t.rawTotal, seqAnnounce := ((t.ptp p d).seqAnnounce + 1) % 65536 }

/-- Port `p` sends a peer delay request, or where the profile measures end to end a delay request (R224); PTP_ASYMMETRY is taken
off its correctionField (R226). The spec gives delay requests no interval of their own: they keep PTP_PDELAY_INTERVAL
(DESIGN CHOICE, notes/assumptions/26.md). -/
def sendPdelay (s : State) (p d : Nat) : State :=
  let peer := s.reg Ix.timeProfile (d + 1) != 1
  let head (kind length control : Nat) : List Byte := ptpHeader s p d
    ⟨kind, length, 0, ofSigned 64 (-(s.asymmetry p)), (s.ptp p d).seqPdelay, control, s.intervalByte Ix.ptpPdelayInterval p⟩
  let m := if peer then head 2 54 5 ++ List.replicate 20 0#8 else head 1 44 1 ++ List.replicate 10 0#8
  s.sendPtp p d peer true m m s.raw fun t =>
    t.setPtp p d { t.ptp p d with
      sentPdelay := some t.rawTotal, seqPdelay := ((t.ptp p d).seqPdelay + 1) % 65536, delayLost := s.tsInvalid p }

/-- The number of a fraction of a nanosecond moved by `ru`, as a correctionField. -/
def corrected (m : List Byte) (ru : Int) : Nat := ofSigned 64 (beField m 8 8 + ru)

/-- The answer to a peer delay request: Pdelay_Resp with the receive timestamp, and its Follow_Up with the transmit timestamp
(R224: always two-step). -/
def answerPdelay (s : State) (x : TimeMsg) (launch : Raw) (pipe : Int) : State :=
  let p := x.port
  let d := x.dom
  let seq := beField x.bytes 30 2
  let came := s.syncAt d x.ts
  let ts := s.txTimestamp p launch pipe
  let goes := s.syncAt d ts
  let asker := slice x.bytes 20 10
  let m := ptpHeader s p d ⟨3, 54, 0x0200, 0, seq, 5, 0x7F⟩ ++ ptpStamp came ++ asker
  let f := ptpHeader s p d ⟨10, 54, 0, corrected x.bytes (goes % 65536 - came % 65536), seq, 5, 0x7F⟩ ++ ptpStamp goes ++ asker
  s.sendPtp p d true true m m ts fun t => t.emit p (ptpFrame s p d true false f f) ts

/-- The answer to a delay request: Delay_Resp with the receive timestamp (R224). -/
def answerDelay (s : State) (x : TimeMsg) : State :=
  let p := x.port
  let d := x.dom
  let came := s.syncAt d x.ts
  let m := ptpHeader s p d ⟨9, 54, 0, corrected x.bytes (-(came % 65536)), beField x.bytes 30 2, 3,
    s.intervalByte Ix.ptpPdelayInterval p⟩ ++ ptpStamp came ++ slice x.bytes 20 10
  s.sendPtp p d false false m m s.raw id

/-- What a message tells the engine: an Announce of another clock may change the port states (R282); a completed delay exchange
gives the mean link delay; and a timestamp behind a sample may be invalid (R223). -/
def engineNotes (s : State) (x : TimeMsg) : State :=
  let p := x.port
  let d := x.dom
  let kind := beField x.bytes 0 1 % 16
  let s1 := match x.delay with
    | some v => s.setRegI Ix.ptpMeanLinkDelay (p + 1) 8 v
    | none => s
  let y := s1.ptp p d
  if kind = 0 then s1.setPtp p d { y with syncLost := x.lost }
  else if kind = 3 then s1.setPtp p d { y with delayLost := y.delayLost || x.lost }
  else if kind = 11 ∧ 64 ≤ x.bytes.length ∧ s1.ptpEnabled p d = true ∧ slice x.bytes 20 8 ≠ clockIdentity then
    (s1.setPtp p d { y with lastAnnounce := x.at_, announceSeen := true, best := slice x.bytes 47 16,
                            sender := slice x.bytes 20 10 }).decidePorts d
  else s1

/-- Message `x` asks for an answer of the engine: a peer delay request where the profile uses them, or a delay request at a
master port. -/
def asks (s : State) (x : TimeMsg) : Bool :=
  let kind := beField x.bytes 0 1 % 16
  let profile := s.reg Ix.timeProfile (x.dom + 1)
  s.ptpEnabled x.port x.dom && decide (44 ≤ x.bytes.length) &&
    ((kind == 2 && profile != 1) || (kind == 1 && profile == 1 && s.ptpState x.port x.dom == 2))

/-- The engine takes its oldest message; one whose answer cannot leave now stays the oldest. -/
def engineTakes (s : State) (reply : OnWire) : State :=
  match s.tm.waiting with
  | [] => s
  | x :: rest =>
    let taken : State := { s with tm := { s.tm with waiting := rest } }
    if s.asks x = false then taken.engineNotes x
    else
      let open_ := s.canEmit x.port (s.timeOpen x.port (s.ptpClass x.port))
      let answer (t : State) : State := if beField x.bytes 0 1 % 16 = 2 then t.answerPdelay x reply.instant reply.pipe else t.answerDelay x
      if open_ then answer taken else answer s

/-- Port `p` sends the domain's roll call in a Signaling message (R285). -/
def sendRollCall (s : State) (p d : Nat) : State :=
  let tlv := s.rollTlv d
  let m := ptpHeader s p d ⟨12, 44 + tlv.length, 0, 0, (s.ptp p d).seqRoll, 5, 0x7F⟩ ++ List.replicate 10 0xFF#8 ++ tlv
  s.sendPtp p d false false m m s.raw fun t =>
    t.setPtp p d { t.ptp p d with sentRoll := some t.rawTotal, seqRoll := ((t.ptp p d).seqRoll + 1) % 65536 }

/-- Port `p` measures delay in domain `d`: to its peer whatever its state, or end to end where it follows a master, as slave or
as alternate path (R218, R224). -/
def asksDelay (s : State) (p d : Nat) : Bool :=
  s.reg Ix.timeProfile (d + 1) != 1 || s.ptpState p d == 3 || (s.ptpState p d == 4 && s.reg Ix.servoAltPort (d + 1) == p)

/-- Three announce intervals have passed at port `p` without Announce: what it heard is forgotten, a listening port becomes
master, and the states are decided afresh (R282). -/
def announceTimeout (s : State) (p d : Nat) : State :=
  let s1 := s.setPtp p d { s.ptp p d with announceSeen := false, best := [], sender := [] }
  let s2 := if s.ptpState p d = 1 ∧ s.domState d ≠ 4 then s1.setPtpState p d 2 else s1
  s2.decidePorts d

/-- TS_CALIBRATE (R222): the loopback measurement begins; the lanes are in OFF and the port is down. -/
def writeTsCalibrate (s : State) (p v : Nat) : Wr :=
  commandWrite s v fun s =>
    let s1 := s.setReg Ix.tsCalStatus (p + 1) 1
    (((s1.portLanes p).foldl settleLane s1).settlePorts s [p], 0)

end State

/-- TS_CALIBRATE (R222). -/
def execTsCalibrate (p : Nat) (s : State) : Out :=
  if s.portPresent p = false then Wr.out (s, Abort.noSuch) else (s.recordWrite (p / 32) Ix.tsCalibrate (p + 1) 0 1 fun s => s.writeTsCalibrate p 1).out

/-- TS_CALIBRATION_DONE (R222): the results of the port's lanes, as pairs of a_rx and a_tx images in lane order, or a failure. -/
def execTsCalibrationDone (p : Nat) (ok : Bool) (delays : List (Nat × Nat)) (s : State) : Out :=
  if s.portPresent p = false then .next s
  else if s.reg Ix.tsCalStatus (p + 1) ≠ 1 then .next s
  else
    let s1 := if ok then
        ((s.portLanes p).zip delays).foldl (fun t e =>
          (t.setReg Ix.tsCalARx (e.1 + 1) (e.2.1 % 4294967296)).setReg Ix.tsCalATx (e.1 + 1) (e.2.2 % 4294967296)) s
      else s
    let s2 := s1.setReg Ix.tsCalStatus (p + 1) (if ok then 2 else 3)
    .next (((s2.portLanes p).foldl State.settleLane s2).settlePorts s [p])

/-- TIME_MESSAGE_RECEIVE (R225, R476): a time message at port `p` is diverted to the engine's queue, or dropped where that is
full. Then, until the next message comes, the engine takes as many messages as `x.taken` lists, each with the launch instant of
its answer: the spec gives the engine no rate but a typical one (DESIGN CHOICE, notes/assumptions/26.md). -/
def execTimeMessageReceive (p : Nat) (frame : List Byte) (x : TimeArrival) (delay : Option Int) (s : State) : Out :=
  if s.portPresent p = false then .next s
  else if s.portUp p = false then .next s
  else
    match s.timeMessage p frame with
    | none => .next s
    | some (d, m) =>
      let s1 := s.count Ix.ptpRxMessages (p + 1) 1
      if s.supervisorUp = false ∨ 1024 ≤ s.tm.waiting.length then .next (s1.count Ix.ptpRxDropped (p + 1) 1)
      else
        let msg : TimeMsg := ⟨p, d, m, s.rxTimestamp p x.capture x.pipe, s.tsInvalid p, s.rawTotal, delay⟩
        let s2 : State := { s1 with tm := { s1.tm with waiting := s1.tm.waiting ++ [msg] } }
        .next (x.taken.foldl State.engineTakes s2)

/-- PTP_SYNC_SEND (R224, R226, R282, R288): at each interval a master port sends Sync, and Follow_Up where two-step, while quorum holds. -/
def execPtpSyncSend (p d : Nat) (launch : Raw) (pipe : Int) (s : State) : Out :=
  if s.portPresent p = false ∨ 4 ≤ d then .next s
  else if s.engineMay p d = false ∨ s.ptpState p d ≠ 2 ∨ s.quorumHolds d = false ∨ s.domState d = 4 ∨
      s.sendDue (s.ptp p d).sentSync (s.intervalNs Ix.ptpSyncInterval p) = false then .next s
  else .next (s.sendSync p d launch pipe)

/-- PTP_ANNOUNCE_SEND (R285, R288): at each interval a master port sends Announce; it goes on while quorum is lost. -/
def execPtpAnnounceSend (p d : Nat) (s : State) : Out :=
  if s.portPresent p = false ∨ 4 ≤ d then .next s
  else if s.engineMay p d = false ∨ s.ptpState p d ≠ 2 ∨
      s.sendDue (s.ptp p d).sentAnnounce (s.intervalNs Ix.ptpAnnounceInterval p) = false then .next s
  else .next (s.sendAnnounce p d)

/-- PTP_PDELAY_SEND (R224): a delay request, at each Pdelay interval. -/
def execPtpPdelaySend (p d : Nat) (s : State) : Out :=
  if s.portPresent p = false ∨ 4 ≤ d then .next s
  else if s.engineMay p d = false ∨ s.asksDelay p d = false ∨
      s.sendDue (s.ptp p d).sentPdelay (s.intervalNs Ix.ptpPdelayInterval p) = false then .next s
  else .next (s.sendPdelay p d)

/-- ROLL_CALL_SIGNALING (R285): no Announce has gone out within ROLL_PERIOD; the roll call goes in a Signaling message. -/
def execRollCallSignaling (p d : Nat) (s : State) : Out :=
  if s.portPresent p = false ∨ 4 ≤ d then .next s
  else
    let period := s.reg Ix.rollPeriod (d + 1) * 1000000
    let x := s.ptp p d
    if s.engineMay p d = false ∨ s.regB Ix.quorumEnable (d + 1) = false ∨ s.sendDue x.sentAnnounce period = false ∨
        s.sendDue x.sentRoll period = false then .next s
    else .next (s.sendRollCall p d)

/-- ANNOUNCE_RECEIPT_TIMEOUT (R282): three announce intervals without Announce; the port takes a new master. -/
def execAnnounceReceiptTimeout (p d : Nat) (s : State) : Out :=
  if s.portPresent p = false ∨ 4 ≤ d then .next s
  else
    let x := s.ptp p d
    let limit := State.ns (3 * s.intervalNs Ix.ptpAnnounceInterval p)
    if s.engineMay p d = false ∨ s.reg Ix.timeRole (d + 1) ≠ 1 ∨ s.since x.lastAnnounce < limit ∨
        (x.announceSeen = false ∧ s.ptpState p d ≠ 1) then .next s
    else .next (s.announceTimeout p d)

end Sys2Proof.Machine
end

