-- ==== Sys2Proof/Machine/GateSteps.lean ====
section
/-! DEFINITION. Gate, hold, wake and sampling steps (R141 to R150, R157, R158, R162 to R165). -/

namespace Sys2Proof.Machine
namespace State

/-- Gate `k` is not where its plan is: an entry, a cycle boundary or a base time has come (R141). -/
def entryDue (s : State) (k : Nat) : Bool :=
  let v := (s.plan k).view (s.gateNs k)
  s.gateEnabled k && ((s.gate k).occurrence != v.occurrence || (s.gate k).states != v.states)

/-- A stream gate's latches are cleared (R158): a write to STREAM_GATE_REOPEN. -/
def writeStreamGateReopen (s : State) (g v : Nat) : Wr :=
  commandWrite s v fun s =>
    (s.setGate (512 + g) { s.gate (512 + g) with latchClosed := false, latchOctets := false }, 0)

/-- The stream gate belongs to a present port island. -/
def streamGatePresent (s : State) (g : Nat) : Bool := decide (g < 16384) && s.islandPresent (gateIsland (512 + g))

/-! ### Queue sampling (R162 to R164) -/

/-- Depth in bytes of queue `q`: L of the copies that wait in it, bytes so far for a frame not yet complete (R162). -/
def queueBytes (s : State) (q : Nat) : Nat :=
  min 0xFFFFFFFF ((s.queue q).map fun d =>
    match s.pkt? d.pkt with
    | some k => if k.accepted then k.copyLen d.spec else k.bytes.length
    | none => 0).sum

/-- Sojourn of the head copy in whole ns (R162). -/
def headSojourn (s : State) (q : Nat) : Nat :=
  match s.queue q with
  | d :: _ => nsSat (s.since d.enqueued)
  | [] => 0

/-- One more sample of queue `q` in a window that already holds `n`. -/
def sampleQueue (s : State) (n q : Nat) : QWindow :=
  let w := tgetD s.fr.sampling.queues q { ({} : QWindow) with bins := [n] }
  let cells := min 0xFFFFFFFF (s.queueDepth q)
  let bytes := s.queueBytes q
  let soj := s.headSojourn q
  let least (a b : Nat) : Nat := if n = 0 then b else min a b
  let k := histBin (s.reg Ix.queueHistBase 0) soj
  { minCells := least w.minCells cells, maxCells := max w.maxCells cells, sumCells := w.sumCells + cells,
    minBytes := least w.minBytes bytes, maxBytes := max w.maxBytes bytes, sumBytes := w.sumBytes + bytes,
    minSojourn := least w.minSojourn soj, maxSojourn := max w.maxSojourn soj, sumSojourn := w.sumSojourn + soj,
    bins := (List.range 16).map fun i => satAdd 32 (w.bins.getD i 0) (if i = k then 1 else 0) }

/-- The present window ends with the samples taken so far (R163, R164). The raw time of a window without samples is a free
value. -/
def endWindow (s : State) : State :=
  let x := s.fr.sampling
  let last := if x.samples = 0 then BitVec.ofNat 64 (Config.freeNat s.draws) else x.last
  { s with
    draws := s.draws + 1
    fr := { s.fr with
      sampling := { samples := 0, number := x.number + 1, last := x.last, queues := [], ended := true, endNumber := x.number,
                    endLast := last, endSamples := x.samples, endQueues := x.queues } } }

/-- Record q of QUEUE_STATS (R163). -/
def queueStats (s : State) (q : Nat) : List Byte :=
  let x := s.fr.sampling
  let n := x.endSamples
  let w := tgetD x.endQueues q { ({} : QWindow) with bins := [n] }
  let three (a b c : Nat) : List Byte := leBytes 4 a ++ leBytes 4 b ++ leBytes 4 (c / n)
  if x.ended = false then List.replicate 128 0#8
  else if n = 0 then leBytes 8 x.endNumber ++ leBytes 8 x.endLast.toNat ++ List.replicate 112 0#8
  else
    leBytes 8 x.endNumber ++ leBytes 8 x.endLast.toNat ++ leBytes 4 n ++ three w.minCells w.maxCells w.sumCells ++
      three w.minBytes w.maxBytes w.sumBytes ++ three w.minSojourn w.maxSojourn w.sumSojourn ++
      ((List.range 16).flatMap fun i => leBytes 4 (w.bins.getD i 0)) ++ List.replicate 8 0#8

/-- A write to one of the sampling parameters ends the present window first (R164). -/
def writeSampling (s : State) (idx lo hi v : Nat) : Wr :=
  if v < lo ∨ hi < v then (s, Abort.outOfRange) else (s.endWindow.setReg idx 0 v, 0)

/-- Object and range of a sampling parameter: 0 period, 1 window, 2 histogram base (R169). -/
def samplingParam (which : Nat) : Option (Nat × Nat × Nat) :=
  if which = 0 then some (Ix.queueSamplePeriod, 100, 1000000000)
  else if which = 1 then some (Ix.queueSampleWindow, 1, 1000000)
  else if which = 2 then some (Ix.queueHistBase, 1, 1000000)
  else none

/-- Lead of R165 in ru: transmit wake time and margin. -/
def wakeLead (s : State) (p : Nat) : Int :=
  ((wakeNs (s.reg Ix.portMode (p + 1)) + s.reg Ix.gateWakeMargin (p + 1) : Nat) : Int) * 65536

/-- A gate of a wake class is open, so the direction stays awake until it closes (R165). -/
def gateKeepsAwake (s : State) (p : Nat) : Bool :=
  s.gateEnabled p && ((s.gate p).states &&& s.reg Ix.gateWakeClasses (p + 1)) != 0

/-- A wake is due under R165: a wake class opens within the lead. -/
def gateWakeDue (s : State) (p : Nat) : Bool :=
  s.gateEnabled p && s.reg Ix.gateWakeClasses (p + 1) != 0 &&
    (s.openingAhead p (s.reg Ix.gateWakeClasses (p + 1)) (s.wakeLead p)).isSome

end State

/-- GATE_ENTRY_CHANGE (R141, R150): an entry or cycle boundary falls due at port `p`. -/
def execGateEntryChange (p : Nat) (s : State) : Out :=
  if s.portPresent p = false then .next s
  else if s.running (State.portIsland p) = false ∨ s.entryDue p = false then .next s
  else .next ((s.refreshGate p false).countOverruns p)

/-- GATE_CHANGE_TIME (R142, R145): the pending schedule becomes oper. -/
def execGateChangeTime (p : Nat) (s : State) : Out :=
  if s.portPresent p = false then .next s
  else if s.running (State.portIsland p) = false ∨ s.changeDue p = false then .next s
  else .next ((s.changeGate p).countOverruns p)

/-- PMAC_HOLD_ASSERT (R150): PMAC_HOLD_ADVANCE before a Set-And-Hold-MAC entry, hold is asserted and a preemptable frame in
transmission is preempted. -/
def execPmacHoldAssert (p : Nat) (s : State) : Out :=
  if s.portPresent p = false then .next s
  else if s.running (State.portIsland p) = false ∨ (s.gate p).hold ∨ s.gateEnabled p = false then .next s
  else
    match s.holdAhead p with
    | none => .next s
    | some _ =>
      let s1 := s.setHold p true
      match s1.txCopy? (512 + p) with
      | some t => .next (if s1.preemptActive p ∧ t.preempted = false then s1.preempt p t else s1)
      | none => .next s1

/-- STREAM_GATE_ENTRY_CHANGE (R157): an entry or the change time of stream gate `g` falls due. -/
def execStreamGateEntryChange (g : Nat) (s : State) : Out :=
  if s.streamGatePresent g = false then .next s
  else if s.running (gateIsland (512 + g)) = false then .next s
  else if s.changeDue (512 + g) then .next (s.changeGate (512 + g))
  else if s.entryDue (512 + g) then .next (s.refreshGate (512 + g) false)
  else .next s

/-- STREAM_GATE_REOPEN (R158): 1 written to STREAM_GATE_REOPEN of gate `g`. -/
def execStreamGateReopen (g : Nat) (s : State) : Out :=
  if s.streamGatePresent g = false then Wr.out (s, Abort.noSuch)
  else (s.recordWrite (gateIsland (512 + g)) Ix.streamGateReopen (g + 1) 0 1 fun s => s.writeStreamGateReopen g 1).out

/-- QUEUE_SAMPLE (R162, R163): at a whole multiple of QUEUE_SAMPLE_PERIOD of raw time every queue is sampled in one clock; the
window ends with its last sample. -/
def execQueueSample (s : State) : Out :=
  let x := s.fr.sampling
  let live := ((tkeys s.fr.queues) ++ (tkeys x.queues) ++ ((s.fr.tx.map fun e => e.2.queue))).eraseDups
  let qs := live.foldl (fun t q => tset t q (s.sampleQueue x.samples q)) x.queues
  let s1 := { s with fr := { s.fr with sampling := { x with samples := x.samples + 1, last := s.raw, queues := qs } } }
  if s.running 48 = false ∨ s.multipleDue x.last (State.ns (s.reg Ix.queueSamplePeriod 0)) = false then .next s
  else .next (if s.reg Ix.queueSampleWindow 0 ≤ x.samples + 1 then s1.endWindow else s1)

/-- QUEUE_SAMPLE_CONFIG_WRITE (R164): a write of a sampling parameter ends the present window. -/
def execQueueSampleConfigWrite (which value : Nat) (s : State) : Out :=
  match State.samplingParam which with
  | some (idx, lo, hi) => (s.writeSampling idx lo hi value).out
  | none => Wr.out (s, Abort.noSuch)

/-- GATE_WAKE (R165): a sleeping transmit direction begins to wake ahead of a wake-class opening. -/
def execGateWake (p : Nat) (s : State) : Out :=
  if s.portPresent p = false then .next s
  else if s.gateWakeDue p then .next (s.wakePort p) else .next s

end Sys2Proof.Machine
end

