-- ==== Sys2Proof/Machine/RingOps.lean ====
section
/-! DEFINITION. Henay rings: timing, layouts, cycle frames, gather and scatter, the priority vector (R240 to R275). -/

namespace Sys2Proof.Machine

/-! ### Timing (R250 to R252) -/

/-- T_k in ru. -/
def Timing.start (t : Timing) (k : Int) : Int := ((t.base : Int) + k * t.cycle) * 65536

/-- Number of the cycle that has begun by a sync time in ru, 0 or more once the base has come. -/
def Timing.cycleAt (t : Timing) (sync : Int) : Int := (sync - (t.base : Int) * 65536) / ((t.cycle : Int) * 65536)

/-- The ranges of R250. -/
def Timing.ok (t : Timing) : Bool :=
  decide (10000 ≤ t.cycle ∧ t.cycle ≤ 1000000000) && decide (0 ≤ t.output ∧ t.output < t.cycle) &&
    decide (-(t.cycle : Int) < t.input ∧ t.input ≤ 0)

/-- The cycle a frame with counter `c` received at sync time `rx` belongs to, if it is in step (R252). -/
def Timing.cycleOf (t : Timing) (c : Nat) (rx : Int) : Option Nat :=
  let near := t.cycleAt (rx + (t.cycle : Int) * 32768)
  let d := toSigned 32 (((c : Int) - near) % 4294967296).toNat
  let k := near + d
  if k < 0 ∨ (t.cycle : Int) * 32768 < ((t.start k - rx).natAbs : Int) then none else some k.toNat

/-! ### Layout records (R258) -/

def slotAddr (r : List Byte) : Nat := leField r 0 2
def slotOffset (r : List Byte) : Nat := leField r 2 2
def slotLen (r : List Byte) : Nat := leField r 4 2
def slotCmd (r : List Byte) : Nat := leField r 6 1
def slotFrame (r : List Byte) : Nat := leField r 7 1
def slotExpect (r : List Byte) : Nat := leField r 8 2

/-- Command codes (R244). -/
def cmdRead : Nat := 1
def cmdWrite : Nat := 2
def cmdReadWrite : Nat := 3
def cmdClaim : Nat := 4
def cmdSpare : Nat := 5

/-- A slot's data travel to the nodes, and come back from them (R258). -/
def inSend (r : List Byte) : Bool := slotAddr r != 0xFFFE && (slotCmd r == cmdWrite || slotCmd r == cmdReadWrite || slotCmd r == cmdSpare)
def inReceive (r : List Byte) : Bool :=
  slotAddr r != 0xFFFE && (slotCmd r == cmdRead || slotCmd r == cmdReadWrite || slotCmd r == cmdSpare)

/-- Room of each slot in an image; a spare slot that was claimed keeps its room in both (R258). -/
def imageRooms (inImage : List Byte → Bool) (kept : List Nat) (l : List (List Byte)) : List Nat :=
  ((List.range l.length).zip l).map fun e => if inImage e.2 || kept.contains e.1 then slotLen e.2 else 0

/-- Position of slot `j` in an image, and the image's size. -/
def imagePos (inImage : List Byte → Bool) (kept : List Nat) (l : List (List Byte)) (j : Nat) : Nat :=
  ((imageRooms inImage kept l).take j).sum
def sendSize (kept : List Nat) (l : List (List Byte)) : Nat := (imageRooms inSend kept l).sum
def receiveSize (kept : List Nat) (l : List (List Byte)) : Nat := (imageRooms inReceive kept l).sum

/-- Frames of a layout; an empty layout sends one. -/
def frameCount (l : List (List Byte)) : Nat := l.foldl (fun n r => max n (slotFrame r + 1)) 1

/-- Slots of frame `f`, each with its slot number. -/
def frameSlots (l : List (List Byte)) (f : Nat) : List (Nat × List Byte) :=
  ((List.range l.length).zip l).filter fun e => slotFrame e.2 == f

/-- First record a check fails at. -/
def firstFail (ok : List Byte → Bool) (l : List (List Byte)) : Option Nat := l.findIdx? fun r => !ok r

/-- Frame indices start at 0, never fall and run without a gap; the first record that breaks this. -/
def framesBreak : Nat → Nat → List (List Byte) → Option Nat
  | _, _, [] => none
  | i, prev, r :: rs =>
    if slotFrame r = prev ∨ (slotFrame r = prev + 1 ∧ 0 < i) then framesBreak (i + 1) (slotFrame r) rs else some i

/-- Bytes of frame `f` on the wire, FCS included, with or without a VLAN tag. -/
def frameBytesOf (l : List (List Byte)) (tagged : Bool) (f : Nat) : Nat :=
  max 64 (14 + (if tagged then 4 else 0) + 32 + ((frameSlots l f).map fun e => 12 + slotLen e.2).sum + 4)

/-! ### Cycle frames (R243, R244) -/

/-- A datagram in a frame: where its header begins, and its fields. -/
structure Datagram where
  at_ : Nat
  addr : Nat
  offset : Nat
  len : Nat
  cmd : Nat
  notReady : Bool
  receipt : Nat
  slot : Nat
  deriving DecidableEq, Repr

/-- The datagrams of a frame from byte `a` on, as many as lie wholly in it. -/
def datagrams (w : List Byte) : Nat → Nat → List Datagram
  | 0, _ => []
  | n + 1, a =>
    let len := beField w (a + 4) 2 % 8192
    if w.length < a + 12 + len then []
    else
      { at_ := a, addr := beField w a 2, offset := beField w (a + 2) 2, len := len, cmd := beField w (a + 6) 1 % 16,
        notReady := bit (beField w (a + 6) 1) 4, receipt := beField w (a + 8) 2, slot := beField w (a + 10) 2 } ::
        datagrams w n (a + 12 + len)

/-- The datagrams of a cycle frame. -/
def CycleHead.datagrams (h : CycleHead) (w : List Byte) : List Datagram := Machine.datagrams w h.count (h.at_ + 32)

/-- Data of a datagram. -/
def Datagram.data (g : Datagram) (w : List Byte) : List Byte := slice w (g.at_ + 12) g.len

/-- The record of the first ring-control slot of a frame, of the wanted type (R274). -/
def controlRecord (h : CycleHead) (w : List Byte) (ty : Nat) : Option (List Byte) :=
  match (h.datagrams w).find? fun g => g.addr == 0xFFFE && g.cmd == cmdWrite with
  | some g => if beField (g.data w) 0 1 = ty then some (g.data w) else none
  | none => none

/-- A frame is a start claim (R275). -/
def isStartClaim (h : CycleHead) (w : List Byte) : Bool :=
  h.counter == 0 && h.count == 1 &&
    (match h.datagrams w with
     | [g] => g.addr == 0xFFFE && g.slot == 0xFFFF && (controlRecord h w 2).isSome
     | _ => false)

namespace State

def ringIsland : Nat := 54

def mring (s : State) (m : Nat) : MRing := tgetD s.ri.rings m {}
def setMring (s : State) (m : Nat) (x : MRing) : State := { s with ri := { s.ri with rings := tput {} s.ri.rings m x } }
def ptPair (s : State) (k : Nat) : PtPair := tgetD s.ri.pairs k {}
def setPtPair (s : State) (k : Nat) (x : PtPair) : State := { s with ri := { s.ri with pairs := tput {} s.ri.pairs k x } }

/-- Timing of master ring `m`, and of pair `k` (R250). -/
def ringTiming (s : State) (m : Nat) : Timing :=
  { base := time80Ns (s.reg Ix.henayBaseTime (m + 1)), cycle := s.reg Ix.henayCycleTime (m + 1),
    output := s.regI Ix.henayOutputOffset (m + 1) 4, input := s.regI Ix.henayInputOffset (m + 1) 4,
    dom := s.reg Ix.henayDomain (m + 1) }
def pairTiming (s : State) (k : Nat) : Timing :=
  { base := time80Ns (s.reg Ix.henayPtBaseTime (k + 1)), cycle := s.reg Ix.henayPtCycleTime (k + 1),
    output := s.regI Ix.henayPtOutputOffset (k + 1) 4, input := s.regI Ix.henayPtInputOffset (k + 1) 4,
    dom := s.reg Ix.henayPtDomain (k + 1) }

/-- Entries of a TABLE of open length. -/
def tableLen (s : State) (idx sub : Nat) : Nat := tgetD s.lens (dictKey idx sub) 0

/-- The layout of ring `m`. -/
def layout (s : State) (m : Nat) : List (List Byte) :=
  (List.range (s.reg Ix.henayLayoutCount (m + 1))).map fun j => leBytes 16 (s.record Ix.henayLayout (m + 1) j)

/-! ### Gather and scatter (R259) -/

/-- Addresses of the elements of a list. -/
def elements (s : State) (base idx sub : Nat) : List Nat :=
  (List.range (s.tableLen idx sub)).map fun r => (base + s.record idx sub r) % 18446744073709551616

/-- The elements' bytes, concatenated. -/
def gatherFrom (s : State) (base size idx sub : Nat) : List Byte := (s.elements base idx sub).flatMap fun a => s.load a size

/-- Every element of a gather can be read: else it meets a bus error that no repetition ends (R350). -/
def gatherOk (s : State) (base size idx sub : Nat) : Bool := (s.elements base idx sub).all fun a => s.readOk a size

/-- The elements a gather for `who` could not read are accounted for (R198, R415). -/
def noteGather (s : State) (who base size idx sub : Nat) : State :=
  ((s.elements base idx sub).filter fun a => !s.readOk a size).foldl (fun t a => t.noteBadRead who a size) s

/-- Bytes stored element by element for `who`, in list order. -/
def scatterInto (who size : Nat) : State → List Nat → List Byte → State
  | s, [], _ => s
  | s, a :: rest, bs => scatterInto who size (s.storeFor who a (bs.take size)) rest (bs.drop size)

def scatterTo (s : State) (who base size idx sub : Nat) (bs : List Byte) : State :=
  scatterInto who size s (s.elements base idx sub) bs

/-! ### Ports (R241) -/

/-- Port `p` is present, enabled and not subsumed (R241). -/
def portFormed (s : State) (p : Nat) : Bool :=
  decide (p < 512) && s.portPresent p && s.reg Ix.portMode (p + 1) != 0 && s.reg Ix.portMode (p + 1) != 8

/-- The port checks of R241. -/
def ringPortsOk (s : State) (m : Nat) : Bool :=
  let ps := s.ringPorts m
  ps.all (fun p => s.portFormed p && !s.portTaken (some m) none p) &&
    (s.reg Ix.henayTopology (m + 1) != 0 || s.reg Ix.henayOutPort (m + 1) != s.reg Ix.henayInPort (m + 1)) &&
    (match s.watchPair m with
     | some k => s.reg Ix.henayPtPortA (k + 1) == s.reg Ix.henayOutPort (m + 1) &&
         s.reg Ix.henayPtPortB (k + 1) == s.reg Ix.henayInPort (m + 1)
     | none => true)
def pairPortsOk (s : State) (k : Nat) : Bool := (s.pairPorts k).all fun p => s.portFormed p && !s.portTaken none (some k) p

/-! ### The layout check (R258) -/

/-- The first cause that fails, with its first failing record. A spare slot that has been claimed keeps its room in both
images. -/
def layoutFault (s : State) (m : Nat) : Option (Nat × Nat) :=
  let l := s.layout m
  let at1 (c : Nat) (o : Option Nat) : Option (Nat × Nat) := o.map fun r => (c, r)
  let flag (c : Nat) (ok : Bool) : Option (Nat × Nat) := if ok then none else some (c, 0)
  let cmdOk (r : List Byte) : Bool :=
    (slotCmd r == cmdRead || slotCmd r == cmdWrite || slotCmd r == cmdReadWrite || slotCmd r == cmdSpare) &&
      (decide (slotAddr r < 0xFFFE) || slotCmd r == cmdWrite)
  let addrOk (r : List Byte) : Bool :=
    if slotCmd r = cmdSpare then slotAddr r == 0
    else decide (1 ≤ slotAddr r ∧ slotAddr r ≤ 0x400) || slotAddr r == 0xFFFE || slotAddr r == 0xFFFF
  let lenOk (r : List Byte) : Bool := decide (slotLen r ≤ 4096) && (slotCmd r != cmdSpare || decide (8 ≤ slotLen r))
  let tagged := bit (s.reg Ix.henayVlan 0) 15
  let big := (List.range (frameCount l)).find? fun f =>
    (s.ringPorts m).any fun p => decide (s.reg Ix.portMaxFrame (p + 1) < frameBytesOf l tagged f)
  let first (f : Nat) : Nat := (((frameSlots l f).head?).map Prod.fst).getD 0
  let t := s.ringTiming m
  let kept := (s.mring m).kept
  let gl := s.tableLen Ix.henayGatherList (m + 1) * s.reg Ix.henayGatherSize (m + 1)
  let sl := s.tableLen Ix.henayScatterList (m + 1) * s.reg Ix.henayScatterSize (m + 1)
  [at1 1 (framesBreak 0 0 l), at1 2 (firstFail cmdOk l), at1 3 (firstFail addrOk l), at1 4 (firstFail lenOk l),
    at1 5 (firstFail (fun r => decide (slotOffset r + slotLen r ≤ 65536)) l), flag 6 (sendSize kept l == gl),
    flag 7 (receiveSize kept l == sl), flag 8 (decide ((l.map slotLen).sum ≤ 131072)), at1 9 (big.map first), flag 10 t.ok,
    flag 11 (s.ringPortsOk m), flag 13 (s.reg Ix.henayRingId (m + 1) != 0)].findSome? id

/-! ### State shown (R269, R276) -/

/-- HENAY_STATE follows the ring's state, BROKEN and the layout check. -/
def showRing (s : State) (m : Nat) : State :=
  let x := s.mring m
  s.setReg Ix.henayState (m + 1)
    (if x.mode = 0 then 0 else if x.bad then 4 else if x.broken ∧ (x.mode = 1 ∨ x.mode = 2) then 3 else x.mode)

/-- The ring is master of its ring: STARTING or RUNNING. -/
def isMaster (s : State) (m : Nat) : Bool := (s.mring m).mode == 1 || (s.mring m).mode == 2

/-- The pair is watched by a ring that is master: it reads OFF and serves nothing (R272). -/
def pairMuted (s : State) (k : Nat) : Bool := (List.range 16).any fun m => s.watchPair m == some k && s.isMaster m

/-- The pair serves: enabled with good ports, the ring island running, no retaining reset, and not muted. -/
def pairServes (s : State) (k : Nat) : Bool :=
  (s.ptPair k).enabled && !s.pairMuted k && s.running ringIsland && !s.sy.retaining

/-- HENAY_PT_STATE (R270): it turns frames back while the port its frames would go on to is not UP. -/
def pairState (s : State) (k : Nat) : Nat :=
  let x := s.ptPair k
  let b := s.reg Ix.henayPtPortB (k + 1)
  let onward := if x.fromA then b else s.reg Ix.henayPtPortA (k + 1)
  if x.enabled = false ∨ s.pairMuted k then 0
  else if b ≠ 0xFFFF ∧ s.portUp onward = false then 3
  else if x.served then 2 else 1

/-- The ring takes another mode. -/
def setMode (s : State) (m mode : Nat) : State := (s.setMring m { s.mring m with mode := mode }).showRing m

/-- The master's first cycle with T_k − lead at or after now (R276), and by R142 from a reference time in ru (R251). -/
def firstCycle (s : State) (m : Nat) (tr : Int) : Nat :=
  let t := s.ringTiming m
  ((changeTime t.base t.cycle (tr + (s.reg Ix.henayGatherLead (m + 1) : Int) * 65536)).1 - t.base) / t.cycle

/-- A ring enters STARTING (R276, R280). -/
def startRing (s : State) (m : Nat) : State :=
  let x := s.mring m
  let first := s.firstCycle m (s.syncNow (s.ringTiming m).dom)
  (s.setMring m { x with first := first, gathered := none, lastGather := none, lastSent := none, leaving := false, yieldTo := none, backoff := none,
                         missRun := 0, claimRun := 0, claimOut := false }).setMode m 1

/-- A ring enters STANDBY and listens afresh (R276). -/
def standBy (s : State) (m : Nat) : State :=
  let x := s.mring m
  let t := s.ringTiming m
  let now := t.cycleAt (s.syncNow t.dom - (t.cycle : Int) * 32768)
  (s.setMring m { x with listenFrom := s.rawTotal, missRun := 0, judged := if now < 0 then none else some now.toNat,
                         leaving := false, slotAt := none, refSeen := none, claimRun := 0,
                         claimOut := false }).setMode m 5

/-- Listen time L in ru of raw time (R276). -/
def listenTime (s : State) (m : Nat) : Nat :=
  let l := s.reg Ix.henayListenTime (m + 1)
  ns (if l = 0 then 3 * s.reg Ix.henayCycleTime (m + 1) else l)

/-! ### The priority vector and control records (R273, R274) -/

def nodeId (s : State) (m : Nat) : Nat := s.reg Ix.henayNodeId (m + 1)

/-- The priority vector of ring `m` (R273). -/
def vector (s : State) (m : Nat) : Nat :=
  s.reg Ix.henayMasterPriority (m + 1) * 16777216 +
    (255 - s.reg Ix.timeClockClass (s.reg Ix.henayDomain (m + 1) + 1)) * 65536 + s.nodeId m

/-- The vector a frame carries, to be compared with this ring's: from its claim or roll-call record, else the node IDs alone
on both sides (R276, R281). -/
def vectors (s : State) (m : Nat) (h : CycleHead) (w : List Byte) : Nat × Nat :=
  match controlRecord h w 2 with
  | some r => (s.vector m, beField r 4 4)
  | none =>
    match controlRecord h w 1 with
    | some r => (s.vector m, beField r 4 4)
    | none => (s.nodeId m, h.node)

/-- The record of a ring-control slot of `len` bytes: the roll call, or a record of type 0 (R274). -/
def controlData (s : State) (m len : Nat) (roll : Bool) : List Byte :=
  let d := s.reg Ix.henayDomain (m + 1)
  let r := if roll ∧ 84 ≤ len then leBytes 1 1 ++ leBytes 1 d ++ beBytes 2 84 ++ beBytes 4 (s.vector m) ++ s.rollBody d
    else leBytes 1 0 ++ leBytes 1 d ++ beBytes 2 4
  slice r 0 len

/-! ### Frames sent (R243, R253, R261) -/

/-- The Ethernet header of a cycle frame from port `p` (R242, R271). -/
def cycleEthernet (s : State) (p : Nat) : List Byte :=
  let v := s.reg Ix.henayVlan 0
  let tag := if bit v 15 then beBytes 2 0x8100 ++ beBytes 2 (bits v 14 12 * 8192 + bits v 11 0) else []
  leBytes 6 (s.reg Ix.henayDestMac 0) ++ s.macOf p ++ tag ++ beBytes 2 (s.reg Ix.henayEthertype 0)

/-- The cycle header. `ref` is the sync time of the reference, in ru. -/
def cycleHeader (s : State) (m flags counter count pos node : Nat) (ref : Option Int) : List Byte :=
  let stamp := match ref with
    | some r => beBytes 6 (r / 65536000000000 % 281474976710656).toNat ++ beBytes 4 (r / 65536 % 1000000000).toNat
    | none => List.replicate 10 0#8
  [1#8] ++ leBytes 1 flags ++ beBytes 2 (s.reg Ix.henayRingId (m + 1)) ++ beBytes 4 counter ++ stamp ++ beBytes 2 count ++
    leBytes 1 pos ++ [0#8] ++ beBytes 2 node ++ List.replicate 8 0#8

/-- One datagram as the master sends it. -/
def datagramBytes (slot : Nat) (r data : List Byte) : List Byte :=
  beBytes 2 (slotAddr r) ++ beBytes 2 (slotOffset r) ++ beBytes 2 (slotLen r) ++ leBytes 1 (slotCmd r) ++ [0#8] ++
    beBytes 2 0 ++ beBytes 2 slot ++ data

/-- Data slot `j` is sent with: its part of the send image; zeros for spare and read slots; a control record. -/
def slotData (s : State) (m : Nat) (kept : List Nat) (l : List (List Byte)) (image : List Byte) (roll : Bool) (j : Nat)
    (r : List Byte) : List Byte :=
  if slotAddr r = 0xFFFE then s.controlData m (slotLen r) roll
  else if slotCmd r = cmdWrite ∨ slotCmd r = cmdReadWrite then slice image (imagePos inSend kept l j) (slotLen r)
  else List.replicate (slotLen r) 0#8

/-- Frame `f` of a cycle as it leaves port `p`; the first ring-control slot of a frame with the reference flag carries the roll
call. -/
def cycleFrame (s : State) (m p k f : Nat) (kept : List Nat) (l : List (List Byte)) (image : List Byte) (flags : Nat)
    (ref : Option Int) : List Byte :=
  let slots := frameSlots l f
  let firstCtl := (slots.find? fun e => slotAddr e.2 == 0xFFFE).map Prod.fst
  let body := slots.flatMap fun e =>
    datagramBytes e.1 e.2 (s.slotData m kept l image (decide (ref.isSome ∧ firstCtl = some e.1)) e.1 e.2)
  s.cycleEthernet p ++
    s.cycleHeader m flags (k % 4294967296) slots.length (f + 8 * (frameCount l - 1)) (s.nodeId m) ref ++ body

/-- A null cycle frame (R261). -/
def nullFrame (s : State) (m p k flags : Nat) (ref : Option Int) : List Byte :=
  s.cycleEthernet p ++ s.cycleHeader m flags (k % 4294967296) 0 0 (s.nodeId m) ref

/-- A cycle frame leaves through the express MAC ahead of every queue: one that finds it busy is delayed and counted, a
preemptable frame in transmission is preempted (R242). -/
def sendCycleFrame (s : State) (m p : Nat) (frame : List Byte) (ts : Raw) : State :=
  let s1 := if (s.txCopy? p).isSome then s.count Ix.henayTxDelayed (m + 1) 1 else s
  let s2 := match s1.txCopy? (512 + p) with
    | some t => if s1.preemptActive p ∧ t.preempted = false then s1.preempt p t else s1
    | none => s1
  s2.emit p frame ts

/-- A frame of its ring ID passes a ring that watches (R276 to R279, R274): the listen time starts again, a back-off notes it,
a frame of the winner is noted, a reference frame ends the run of missing ones, and a roll call in it is read. -/
def sawFrame (s : State) (m : Nat) (h : CycleHead) (w : List Byte) : State :=
  let x := s.mring m
  let claim := isStartClaim h w
  let yt := match x.yieldTo with
    | some (n, t) => if n = h.node then some (n, s.rawTotal) else some (n, t)
    | none => none
  let x1 := { x with listenFrom := s.rawTotal, yieldTo := yt, backoff := x.backoff.map fun b => (b.1, true) }
  let x2 := if bit h.flags 1 ∧ claim = false then { x1 with missRun := 0, refSeen := some h.counter } else x1
  let s1 := s.setMring m x2
  let s2 := if claim then s1 else s1.setReg Ix.henayMasterNode (m + 1) h.node
  match controlRecord h w 1 with
  | some r => s2.takeRollCall (beField r 1 1 % 4) (slice r 8 76)
  | none => s2

/-- Every ring that watches through pair `k` and stands by or claims sees a frame that passes it. -/
def watchPass (s : State) (k : Nat) (h : CycleHead) (w : List Byte) : State :=
  (List.range 16).foldl (fun t m =>
    if t.watchPair m = some k ∧ ((t.mring m).mode = 5 ∨ (t.mring m).mode = 6) ∧ t.reg Ix.henayRingId (m + 1) = h.ring then
      t.sawFrame m h w
    else t) s

/-! ### Cycle frames received (R36, R40, R43, R242) -/

/-- What the checks of R36 make of a cycle frame. -/
inductive CycleCheck where
  /-- Every check passes. -/
  | passes
  /-- It failed before a byte of it was sent on: a runt is over before the pipeline of R249 has run (DEDUCED). -/
  | dropped
  /-- It failed after that: what is sent on, `frame` without FCS, ends stomped (R43). -/
  | stomped (frame : List Byte)
  deriving DecidableEq, Repr

/-- The checks of R36 on a cycle frame, `w` without its FCS, received on port `p`, whose lanes have carried its data; a failure is
counted in one counter. -/
def checkCycle (s0 : State) (p : Nat) (w : List Byte) (stop : RxEnd) : State × CycleCheck :=
  let s := s0.laneData p
  let max := s.reg Ix.portMaxFrame (p + 1)
  if w.length + 4 < 64 then (s.count Ix.rxRunt (p + 1) 1, .dropped)
  else if max < w.length + 4 then (s.count Ix.rxOversize (p + 1) 1, .stomped (w.take max))
  else
    match stop with
    | .good => (s, .passes)
    | .codeError => (s.count Ix.rxCodeError (p + 1) 1, .stomped w)
    | .badFcs => (s.count Ix.rxFcsError (p + 1) 1, .stomped w)

end State
end Sys2Proof.Machine
end

