-- ==== Sys2Proof/Machine/Lanes.lean ====
section
/-! DEFINITION. Commands of the serial lanes: references, bring-up, adaptation, sleep, quiet signalling, eye margin and PRBS
(chapter 13). -/

namespace Sys2Proof.Machine
open State

namespace State

/-- Time lane `l` has been in its state, in ms. -/
def laneAged (s : State) (l ms : Nat) : Bool := decide (ns (ms * 1000000) ≤ s.since (s.lane l).entered)

/-- The silence of a quiet period the partner announced: Tq + 2 µs from the last QUIET or refresh (R406). -/
def inQuiet (s : State) (l : Nat) : Bool :=
  match (s.lane l).quiet with
  | some (tq, t) => decide (s.since t < ns ((tq + 2) * 1000))
  | none => false

/-- Every class of port `p` has no eligible copy, none is in transmission, and no message of the supervisor waits (R136, R403). -/
def nothingToSend (s : State) (p : Nat) : Bool :=
  ((List.range 8).all fun c => !s.eligible p c) && (s.txCopy? p).isNone && (s.txCopy? (512 + p)).isNone &&
    s.co.out.all fun e => e.1 != p

/-- Port `p`'s transmit direction may sleep (R165, R241, R403, R404). -/
def maySleep (s : State) (p : Nat) : Bool :=
  let mode := s.reg Ix.portMode (p + 1)
  let x := s.portLink p
  s.regB Ix.portTxSleepEnable (p + 1) && mode != 1 && s.portUp p && !x.asleep &&
    (match x.wakeDone with | some t => decide (t ≤ s.rawTotal) | none => true) && s.nothingToSend p &&
    !s.ringPort p && !s.gateWakeDue p && !s.gateKeepsAwake p && !s.sy.retaining &&
    decide (ns (s.reg Ix.portTxSleepIdle (p + 1) * 1000) ≤ s.since x.idleSince)

/-- A write to LANE_ANCHOR_RETAKE (R401). -/
def writeAnchorRetake (s : State) (l v : Nat) : Wr := commandWrite s v fun s => (s.recordAnchors l, 0)

/-- The idle-guard time of the present refresh period (R401). -/
def guardTotal (s : State) (l : Nat) : Nat :=
  let x := s.lane l
  x.guardTime + (if x.guard then min (s.since x.guardSince) (s.since x.refreshFrom) else 0)

/-- A new anchor refresh period begins (R401). -/
def newRefresh (s : State) (l : Nat) : State :=
  let fec := match s.lanePort l with
    | some p => s.reg Ix.fecUncorrectedCw (p + 1)
    | none => 0
  s.setLane l { s.lane l with refreshFrom := s.rawTotal, guardTime := 0, guardSince := s.rawTotal, fecAt := fec }

/-- One bit at the PRBS checker (R408). -/
def prbsBit (l : Nat) (s : State) (error : Bool) : State :=
  let x := s.lane l
  if s.regB Ix.lanePrbsLock (l + 1) then
    let win := (error :: x.prbsWin).take 1024
    let s1 := (if error then s.count Ix.lanePrbsErrors (l + 1) 1 else s).setLane l { x with prbsWin := win }
    if 64 ≤ (win.filter id).length then (s1.setReg Ix.lanePrbsLock (l + 1) 0).setLane l { x with prbsWin := [], prbsRun := 0 }
    else s1
  else
    let run := if error then 0 else x.prbsRun + 1
    let s1 := s.setLane l { x with prbsRun := run, prbsWin := [] }
    if 64 ≤ run then s1.setReg Ix.lanePrbsLock (l + 1) 1 else s1

/-- Lane `l` enters UP: its timers stop, and its status bits of bring-up clear (R397 to R399, R401). -/
def laneUp (s : State) (l : Nat) : State :=
  let s1 := (((s.enterLane l 4).setLaneStatus l 0 false).setLaneStatus l 1 false).setLaneStatus l 5 false
  (s1.setLane l { s1.lane l with linkTimer := none, backoff := none, failures := 0, lastData := s.rawTotal, eyeAt := s.rawTotal }).newRefresh l

/-- Lane `l` exists on the variant. -/
def lanePresent (s : State) (l : Nat) : Bool := s.portPresent l

end State

/-- LANE_REF_FAIL (R393): the reference of sector `k` is absent or off frequency; its lanes go to OFF. -/
def execLaneRefFail (k : Nat) (s : State) : Out :=
  if s.sectorPresent k = false then .next s
  else if s.reg Ix.laneRefStatus (k + 1) = 0 then .next s
  else
    let s1 := (s.setReg Ix.laneRefStatus (k + 1) 0).countSat Ix.laneRefLossCount (k + 1) 1
    .next (((sectorLanes k).foldl settleLane (s1.event Ix.laneRefStatus 1 k [(1, k)])).settlePorts s (sectorPorts k))

/-- LANE_REF_GOOD (R393): the reference has been good for 1 ms; the lanes leave OFF. -/
def execLaneRefGood (k : Nat) (s : State) : Out :=
  if s.sectorPresent k = false then .next s
  else .next ((s.setReg Ix.laneRefStatus (k + 1) 1).settleLanes (sectorLanes k) (sectorPorts k))

/-- LANE_SIGNAL_DETECT (R396, R398): signal has been present for 10 µs in SEEK, with no back-off running. -/
def execLaneSignalDetect (l : Nat) (s : State) : Out :=
  if s.lanePresent l = false then .next s
  else if s.laneState l ≠ 1 ∨ (s.lane l).backoff.isSome then .next s
  else
    let s1 := s.setLane l { s.lane l with signalSeen := true }
    .next ((s1.enterLane l 2).startCoeffs l)

/-- LANE_SIGNAL_LOSS (R396, R406): no signal for 1 µs, outside an announced quiet period. -/
def execLaneSignalLoss (l : Nat) (s : State) : Out :=
  if s.lanePresent l = false then .next s
  else
    let st := s.laneState l
    if st = 2 ∨ st = 3 then .next (s.laneFails l)
    else if st = 4 ∧ s.inQuiet l = false then .next ((s.portLeavesUp l 1).settlePorts s (s.portsOfLane l))
    else .next s

/-- LANE_ADAPT_CONVERGED (R396): the slicer error has stayed below the limit; `coeffs` are the coefficients reached, which
become the anchors. -/
def execLaneAdaptConverged (l : Nat) (coeffs : List Byte) (s : State) : Out :=
  if s.lanePresent l = false then .next s
  else if s.laneState l ≠ 2 then .next s
  else .next (((s.setReg Ix.laneRxCoeff (l + 1) (s.coeffsOf l coeffs)).enterLane l 3).recordAnchors l)

/-- LANE_ADAPT_TIMEOUT (R396). -/
def execLaneAdaptTimeout (l : Nat) (s : State) : Out :=
  if s.lanePresent l = false then .next s
  else if s.laneState l = 2 ∧ s.laneAged l (s.reg Ix.laneAdaptTimeout (l + 1)) then .next (s.laneFails l) else .next s

/-- LANE_LOCK_TIMEOUT (R396). -/
def execLaneLockTimeout (l : Nat) (s : State) : Out :=
  if s.lanePresent l = false then .next s
  else if s.laneState l = 3 ∧ s.laneAged l (s.reg Ix.laneLockTimeout (l + 1)) then .next (s.laneFails l) else .next s

/-- LANE_READY (R397): every lane of port `p` has been ready for 1 ms, and all enter UP together; at 1000BASE-X with
auto-negotiation, `anDone` says that it has completed with full duplex. -/
def execLaneReady (p : Nat) (anDone : Bool) (s : State) : Out :=
  if s.portPresent p = false then .next s
  else
    let mode := s.reg Ix.portMode (p + 1)
    let ls := s.portLanes p
    let an := mode = 1 ∧ s.regB Ix.laneAnEnable (p + 1) ∧ anDone = false
    if mode = 0 ∨ mode = 8 ∨ an ∨ ls.all (fun l => s.laneState l == 3 && s.laneAged l 1) = false then .next s
    else
      let s1 := ls.foldl State.laneUp s
      .next ((s1.setPortLink p { idleSince := s.rawTotal }).settlePorts s [p])

/-- LANE_BLOCK_LOCK_LOSS (R396): block lock is lost, or the bit-error state is high, with signal present; adaptation restarts
from the anchors. -/
def execLaneBlockLockLoss (l : Nat) (s : State) : Out :=
  if s.lanePresent l = false then .next s
  else if s.laneState l ≠ 4 then .next s
  else
    let s1 := s.portLeavesUp l 2
    .next ((s1.setReg Ix.laneRxCoeff (l + 1) (s1.reg Ix.laneRxAnchor (l + 1))).settlePorts s (s.portsOfLane l))

/-- LANE_BACKOFF_END (R398). -/
def execLaneBackoffEnd (l : Nat) (s : State) : Out :=
  if s.lanePresent l = false then .next s
  else
    match (s.lane l).backoff with
    | some (t, ms) =>
      if ns (ms * 1000000) ≤ s.since t then .next ((s.setLane l { s.lane l with backoff := none }).setLaneStatus l 5 false)
      else .next s
    | none => .next s

/-- LANE_LINKUP_TIMEOUT (R399). -/
def execLaneLinkupTimeout (l : Nat) (s : State) : Out :=
  if s.lanePresent l = false then .next s
  else
    let x := s.lane l
    match x.linkTimer with
    | some t =>
      if ns (s.reg Ix.laneLinkupTimeout (l + 1) * 1000000) ≤ s.since t then
        let b := if x.signalSeen then 1 else 0
        .next (((s.setLane l { x with linkTimer := none }).setLaneStatus l b true).event Ix.laneStatus 1 (l / 32) [(2, l), (1, b)])
      else .next s
    | none => .next s

/-- IDLE_GUARD (R400): no frame data for LANE_IDLE_GUARD_TIME in UP; a frame that is arriving is frame data. -/
def execIdleGuard (l : Nat) (s : State) : Out :=
  if s.lanePresent l = false then .next s
  else
    let x := s.lane l
    let inFrame := (s.portsOfLane l).any fun p => (s.rxFrame? (State.macKey p false)).isSome
    if s.laneState l = 4 ∧ x.guard = false ∧ inFrame = false ∧ ns (s.reg Ix.laneIdleGuardTime (l + 1) * 1000) ≤ s.since x.lastData then
      .next ((s.setLane l { x with guard := true, guardSince := s.rawTotal }).setLaneStatus l 2 true)
    else .next s

/-- LANE_ANCHOR_REFRESH (R400, R401): a refresh period ends with the coefficients at `coeffs`. -/
def execLaneAnchorRefresh (l : Nat) (coeffs : List Byte) (s : State) : Out :=
  if s.lanePresent l = false then .next s
  else
    let x := s.lane l
    let period := ns (s.reg Ix.laneAnchorRefresh (l + 1) * 1000000000)
    if s.laneState l ≠ 4 ∨ period = 0 ∨ s.since x.refreshFrom < period then .next s
    else
      let s1 := if x.rxAsleep then s else s.adaptTo l coeffs
      let fec := match s.lanePort l with
        | some p => s.reg Ix.fecUncorrectedCw (p + 1)
        | none => 0
      let good := decide (s.guardTotal l * 10 < period) && fec == x.fecAt
      .next ((if good then s1.recordAnchors l else s1).newRefresh l)

/-- LANE_ANCHOR_RETAKE (R401): 1 written to LANE_ANCHOR_RETAKE. -/
def execLaneAnchorRetake (l : Nat) (s : State) : Out :=
  if s.lanePresent l = false then Wr.out (s, Abort.noSuch) else (s.recordWrite (l / 32) Ix.laneAnchorRetake (l + 1) 0 1 fun s => s.writeAnchorRetake l 1).out

/-- PORT_TX_SLEEP (R403 to R405): the transmit direction of port `p` goes to sleep. -/
def execPortTxSleep (p : Nat) (s : State) : Out :=
  if s.portPresent p = false then .next s
  else if s.maySleep p then
    let s1 := s.setPortLink p { s.portLink p with asleep := true, wakeDone := none, quietFrom := s.rawTotal }
    .next ((s1.portLanes p).foldl (fun t l => (t.setLane l { t.lane l with txSince := s.rawTotal }).setLaneStatus l 4 true) s1)
  else .next s

/-- PORT_TX_WAKE (R403): something waits to be sent at port `p`, whose transmit direction sleeps. -/
def execPortTxWake (p : Nat) (s : State) : Out :=
  if s.portPresent p = false then .next s
  else if s.nothingToSend p then .next s else .next (s.wakePort p)

/-- QUIET_REFRESH (R405): a quiet period of a sleeping native port ends, and its 2 µs refresh is sent. -/
def execQuietRefresh (p : Nat) (s : State) : Out :=
  if s.portPresent p = false then .next s
  else
    let x := s.portLink p
    let tq := ns (s.reg Ix.portQuietPeriod (p + 1) * 1000)
    if s.reg Ix.portMode (p + 1) = 5 ∧ x.asleep ∧ tq ≤ s.since x.quietFrom then
      .next (s.setPortLink p { x with quietFrom := s.rawTotal + ns 2000 })
    else .next s

/-- QUIET_RECEIVE (R402, R405, R406): a native receiver takes a QUIET that announces `tq` µs, or (`refresh`) a refresh ends. -/
def execQuietReceive (l tq : Nat) (refresh : Bool) (s : State) : Out :=
  if s.lanePresent l = false then .next s
  else if s.laneMode l ≠ 5 ∨ s.laneState l ≠ 4 then .next s
  else if refresh then
    match (s.lane l).quiet with
    | some (t, _) => .next (s.setLane l { s.lane l with quiet := some (t, s.rawTotal) })
    | none => .next s
  else
    if (s.portsOfLane l).any s.ringPort then .next s
    else
      let s1 := s.beginRxSleep l
      .next (s1.setLane l { s1.lane l with quiet := some (tq, s.rawTotal) })

/-- EYE_MARGIN_UPDATE (R400, R407): every 100 ms the eye of UP lane `l` is measured: margins in mV and 1/1,024 UI; `coeffs` are the
coefficients adaptation has reached. -/
def execEyeMarginUpdate (l vertical horizontal : Nat) (coeffs : List Byte) (s : State) : Out :=
  if s.lanePresent l = false then .next s
  else if s.laneState l ≠ 4 ∨ s.since (s.lane l).eyeAt < ns 100000000 then .next s
  else
    let s1 := (s.setReg Ix.laneEyeMargin (l + 1) (vertical % 65536 + horizontal % 65536 * 65536)).setLane l
      { s.lane l with eyeAt := s.rawTotal }
    .next (if (s.lane l).rxAsleep then s1 else s1.adaptTo l coeffs)

/-- PRBS_CHECK (R408): bits reach the checker of a lane in PRBS test, each flagged where it is in error. -/
def execPrbsCheck (l : Nat) (errors : List Bool) (s : State) : Out :=
  if s.lanePresent l = false then .next s
  else if s.laneState l = 5 ∧ s.reg Ix.laneTestMode (l + 1) = 1 then .next (errors.foldl (prbsBit l) s)
  else .next s

/-- RECEIVED_LPI (R402, R404): the partner of an IEEE-mode port starts or stops sending LPI. -/
def execReceivedLpi (p : Nat) (start : Bool) (s : State) : Out :=
  if s.portPresent p = false then .next s
  else
    let mode := s.reg Ix.portMode (p + 1)
    if mode = 1 ∨ mode = 5 ∨ s.linkUp p = false ∨ (start ∧ s.ringPort p) then .next s
    else .next ((s.portLanes p).foldl (if start then beginRxSleep else endRxSleep) s)

/-- WAKE_SET_RECEIVE (R402, R405): a native receiver takes WAKE sets. -/
def execWakeSetReceive (l : Nat) (s : State) : Out :=
  if s.lanePresent l = false then .next s
  else if s.laneMode l = 5 ∧ s.laneState l = 4 then .next (s.endRxSleep l) else .next s

end Sys2Proof.Machine
end

