-- ==== Sys2Proof/Machine/HostOps.lean ====
section
/-! DEFINITION. Descriptor fetch and acceptance, the arbiter, host frames in both directions, write-back and completion
records (R304 to R320, R350 to R354). -/

namespace Sys2Proof.Machine
namespace State

/-! ### Checks of a descriptor (R302, R335, R336) -/

/-- The error cause of a descriptor's operation and reserved bits on a channel of `kind`: 9 where the operation belongs to
another kind, 4 where it is unknown or a reserved bit is set, 0 for none. -/
def descCause (kind : Nat) (d : List Byte) : Nat :=
  let op := dOp d
  let hi := dCtl d / 256
  if kind = 3 ∧ (op < 3 ∨ 7 < op) then 9
  else if op = 0 ∨ 7 < op ∨ leField d 11 1 ≠ 0 then 4
  else if op ≠ kind ∧ kind ≠ 3 then 9
  else if kind ≠ 3 then if hi ≠ 0 ∨ (kind = 1 ∧ 8 ≤ dClass d) then 4 else 0
  else if 2 ≤ dClass d ∨ (op = 3 ∧ 4 ≤ hi) ∨ ((op = 4 ∨ op = 5) ∧ hi ≠ 0) then 4
  else 0

/-- A descriptor of a transmit chain; only the first one's class is looked at (R301). -/
def chainCause (descs : List (Nat × List Byte)) : Nat :=
  match descs with
  | [] => 3
  | d :: rest =>
    let cs := descCause 1 d.2 :: rest.map fun e => descCause 1 (patch e.2 15 [0#8])
    (cs.find? (· ≠ 0)).getD 0

/-! ### Fetch and acceptance (R304 to R307) -/

/-- What a fetched descriptor is. -/
inductive Fetched where
  /-- At or above the producer index. -/
  | none
  /-- It reads with OWN clear. -/
  | notOwned
  | failed
  | desc (d : List Byte)
  deriving DecidableEq, Repr

/-- Address of the descriptor with index `i`. -/
def descAddr (e : List Byte) (i : Nat) : Nat := entRingBase e + 32 * (i % entRingSize e)

/-- Position `i` lies below the producer index: both are counted from the consumer index (R304, R305). -/
def belowProducer (consumer producer i : Nat) : Bool :=
  decide ((i + 4294967296 - consumer) % 4294967296 < (producer + 4294967296 - consumer) % 4294967296)

/-- The indices of a turn: consumer, and the producer index read. -/
structure Span where
  consumer : Nat
  producer : Nat
  deriving DecidableEq, Repr

/-- The descriptor with index `i`, as this turn reads it. -/
def fetchDesc (s : State) (e : List Byte) (span : Span) (i : Nat) : Fetched :=
  if belowProducer span.consumer span.producer i = false then .none
  else if s.readOk (descAddr e i) 32 = false then .failed
  else
    let d := s.load (descAddr e i) 32
    if bit (dCtl d) 0 then .desc d else .notOwned

/-- What a turn took: units in order, the accepted index behind them, and how it ended. -/
structure Turn where
  units : List HUnit := []
  accepted : Nat
  /-- The turn ended at a descriptor with OWN clear, or at a failed read, at this index. -/
  missing : Option Nat := none
  failed : Option Nat := none
  /-- Nothing more can be taken before another doorbell. -/
  stop : Bool := false
  deriving DecidableEq, Repr

/-- Successor of a free-running index. -/
def nextIndex (i : Nat) : Nat := (i + 1) % 4294967296

/-- A chain from index `i` on, its descriptors so far in `open_`, newest first (R306). The result: the unit that ends here
if one does, and the index behind it. -/
def takeChain (s : State) (e : List Byte) (span : Span) : Nat → Nat → List (Nat × List Byte) → Option HUnit × Turn
  | 0, i, _ => (Option.none, { accepted := i, stop := true })
  | fuel + 1, i, open_ =>
    let done := open_.reverse
    let unit (ds : List (Nat × List Byte)) (bad : Nat) : HUnit :=
      let u : HUnit := { kind := 0, first := (ds.head?.map Prod.fst).getD i, descs := ds,
                         cls := (ds.head?.map fun d => dClass d.2 % 8).getD 0 }
      if bad = 0 then u else u.finish 3 bad
    match s.fetchDesc e span i with
    | .none => (Option.none, { accepted := i, stop := true })
    | .notOwned => (Option.none, { accepted := i, stop := true, missing := some i })
    | .failed => (Option.none, { accepted := i, stop := true, failed := some i })
    | .desc d =>
      let sop := bit (dCtl d) 1
      let eop := bit (dCtl d) 2
      if done = [] ∧ sop = false then (some (unit [(i, d)] 3), { accepted := nextIndex i })
      else if done ≠ [] ∧ sop then (some (unit done 3), { accepted := i })
      else
        let all := done ++ [(i, d)]
        if eop then (some (unit all (chainCause all)), { accepted := nextIndex i })
        else if all.length = 64 then (some (unit all 3), { accepted := nextIndex i })
        else s.takeChain e span fuel (nextIndex i) all.reverse

/-- One unit of a receive or move channel at index `i`. -/
def takeOne (s : State) (e : List Byte) (span : Span) (i : Nat) : Option HUnit × Turn :=
  match s.fetchDesc e span i with
  | .none => (Option.none, { accepted := i, stop := true })
  | .notOwned => (Option.none, { accepted := i, stop := true, missing := some i })
  | .failed => (Option.none, { accepted := i, stop := true, failed := some i })
  | .desc d =>
    let cause := descCause (entKind e) d
    let u : HUnit := { kind := entKind e - 1, first := i, descs := [(i, d)] }
    (some (if cause = 0 then u else u.finish 3 cause), { accepted := nextIndex i })

/-- A turn of at most `left` descriptors from `t` on; a transmit chain is taken whole (R307). -/
def takeTurn (s : State) (e : List Byte) (span : Span) : Nat → Nat → Turn → Turn
  | 0, _, t => t
  | fuel + 1, left, t =>
    if left = 0 ∨ t.stop then t
    else
      let r := if entKind e = 1 then s.takeChain e span 65 t.accepted [] else s.takeOne e span t.accepted
      match r.1 with
      | Option.none => { t with stop := true, missing := r.2.missing, failed := r.2.failed }
      | some u =>
        let n := u.descs.length
        if t.units ≠ [] ∧ left < n then t
        else s.takeTurn e span fuel (left - n) { t with units := t.units ++ [u], accepted := r.2.accepted }

/-- A permanent failure of an access of channel `c`, `done` repetitions of which have been counted: the others are (R350). -/
def useRetries (s : State) (c : Nat) (e : List Byte) (done : Nat) : State := s.count Ix.chRetries (c + 1) (entRetries e - done)

/-- A turn of channel `c` (R304, R305, R307): where a doorbell asked for it the index block is read; then descriptors are
accepted. -/
def fetchTurn (s : State) (c : Nat) (e : List Byte) : State :=
  let x := s.channel c
  if x.reading ∧ s.readOk (entIndexBlock e) 4 = false then ((s.noteBadRead c (entIndexBlock e) 4).useRetries c e x.retries).haltChannel c 3 x.accepted
  else
    let producer := if x.reading then s.loadNat (entIndexBlock e) 4 else x.producer
    let x1 := { x with
      producer := producer, reading := x.again, again := false, more := false, retries := 0, used := s.rawTotal }
    if entRingSize e < (producer + 4294967296 - x.consumer) % 4294967296 then (s.setChannel c x1).haltChannel c 2 x.accepted
    else
      let t := s.takeTurn e ⟨x.consumer, producer⟩ 65 (entBurst e) { accepted := x.accepted }
      match t.failed with
      | some i => (((s.setChannel c x1).noteBadRead c (descAddr e i) 32).useRetries c e x.retries).haltChannel c 3 i
      | Option.none =>
        let turn := s.ho.turnCount + 1
        let s0 : State := { s with ho := { s.ho with turnCount := turn } }
        let s1 := s0.setChannel c { x1 with
          units := x1.units ++ t.units.map fun u => { u with turn := turn }, accepted := t.accepted,
          more := !t.stop && belowProducer x.consumer producer t.accepted }
        match t.missing with
        | some i =>
          (s1.count Ix.ownMissingCount 0 1).event Ix.ownMissingCount 1 hostIsland [(2, c), (4, i % entRingSize e)]
        | Option.none => s1

/-- Channel `c` has work the arbiter may serve: it is ready, its ring is not blocked, and descriptors may be waiting. -/
def hasWork (s : State) (c : Nat) : Bool :=
  match s.chanReady c with
  | some e => !s.ringBlocked e && ((s.channel c).reading || (s.channel c).more)
  | none => false

/-- Weight of channel `c`. -/
def weightOf (s : State) (c : Nat) : Nat :=
  match s.chanEntry c with
  | some e => entWeight e
  | none => 0

/-- The channel the arbiter serves next and the turns left of its visit after that (R307): the present visit goes on; else
the next channel of weight 1 or more with work in ascending number, in this round or a new one; channels of weight 0 only
where none of those has work, and none at all while a ring's gather waits. -/
def arbiterPick (s : State) : Option (Nat × Nat) :=
  let work := if s.ringsAhead then [] else (tkeys s.ho.channels).filter fun c => s.hasWork c
  let heavy := work.filter fun c => s.weightOf c != 0
  let pool := if heavy = [] then work else heavy
  let last := (s.ho.visit.map Prod.fst)
  let left := (s.ho.visit.map Prod.snd).getD 0
  match last with
  | some c =>
    if left ≠ 0 ∧ pool.contains c then some (c, left - 1)
    else
      match pool.find? fun d => decide (c < d) with
      | some d => some (d, s.weightOf d - 1)
      | Option.none => pool.head?.map fun d => (d, s.weightOf d - 1)
  | Option.none => pool.head?.map fun d => (d, s.weightOf d - 1)

/-! ### The cache (R331 to R334) -/

/-- A cached entry leaves the cache; a doorbell it had not served is served by its reload. -/
def dropEntry (s : State) (c : Nat) : State :=
  let x := s.channel c
  s.setChannel c { x with
    entry := none, entryBad := false, dropping := false, ringing := x.ringing || x.reading || x.more, reading := false,
    again := false, more := false }

/-- Channels whose entry is cached. -/
def cachedChannels (s : State) : List Nat := (tkeys s.ho.channels).filter fun c => (s.channel c).entry.isSome

/-- The entry of channel `c` may be evicted (R332). -/
def evictable (s : State) (c : Nat) : Bool :=
  let x := s.channel c
  x.units.isEmpty && x.halting.isNone &&
    (match x.entry with
     | some e => x.entryBad || entKind e != 2
     | none => false)

/-- The least recently used of the entries that can be evicted. -/
def evictionChoice (s : State) : Option Nat :=
  ((s.cachedChannels.filter fun c => s.evictable c).foldl (fun (best : Option Nat) c =>
    match best with
    | none => some c
    | some b => if (s.channel c).used < (s.channel b).used then some c else some b) none)

/-- A doorbell for channel `c` has its entry: for a disabled channel it is ignored and counted (R304, R331); for one that waits
to be invalidated it is kept for the entry's reload (R333); a halted channel reads its index block at its restart (R352); else
it starts or joins an index-block read. -/
def serveDoorbell (s : State) (c : Nat) : State :=
  let x := s.channel c
  if (s.chanEntry c).all fun e => entKind e == 0 then s.count Ix.doorbellIgnored 0 1
  else if x.dropping then s.setChannel c { x with ringing := true }
  else if (s.chanReady c).isNone then s
  else if x.reading then s.setChannel c { x with again := true }
  else s.setChannel c { x with reading := true }

/-- The entry of channel `c` is loaded (R331, R332, R334), and the doorbell that waits for it is served. An entry that
cannot be read is taken as invalid. -/
def loadEntry (s : State) (c : Nat) : State :=
  let a := s.reg Ix.chTableBase 0 + 128 * c
  let ok := s.readOk a 128
  let e := if ok then s.load a 128 else List.replicate 128 0xFF#8
  let x := s.channel c
  let old := x.last.getD []
  let moved := old = [] ∨ entKind old = 0 ∨ entKind old ≠ entKind e ∨ entRingBase old ≠ entRingBase e ∨
    entRingSize old ≠ entRingSize e ∨ entIndexBlock old ≠ entIndexBlock e
  let s1 := (((if ok then s else s.noteBadRead c a 128).setChannel c { x with
    ringing := false, counted := false, level := (entPaceBurst e : Int) * paceUnit, levelAt := s.rawTotal }).takeEntry c e).count
      Ix.dmaCacheMisses 0 1
  if entValid e = false then s1.count Ix.doorbellIgnored 0 1
  else
    let s2 := if s.reg Ix.chHaltCause (c + 1) = 5 then s1.setReg Ix.chHaltCause (c + 1) 0 else s1
    let s3 := s2.setChannel c { s2.channel c with last := some e }
    if entKind e = 0 then s3.count Ix.doorbellIgnored 0 1
    else if moved then
      if s.readOk (entIndexBlock e + 8) 4 then
        let n := s.loadNat (entIndexBlock e + 8) 4
        (s3.setChannel c { s3.channel c with accepted := n, consumer := n }).serveDoorbell c
      else ((s3.noteBadRead c (entIndexBlock e + 8) 4).useRetries c e 0).haltChannel c 3 (s3.channel c).accepted
    else s3.serveDoorbell c

/-! ### Transmit frames (R308 to R310) -/

/-- Bytes `off` to `off + n - 1` of a unit's descriptors, concatenated: where each piece lies (R308). -/
def unitPieces (u : HUnit) (off n : Nat) : List (Nat × Nat) :=
  (u.descs.foldl (fun (acc : Nat × List (Nat × Nat)) d =>
    let len := dLen d.2
    let lo := max off acc.1
    let hi := min (off + n) (acc.1 + len)
    (acc.1 + len, if lo < hi then acc.2 ++ [(dAddr d.2 + (lo - acc.1), hi - lo)] else acc.2)) (0, [])).2

/-- A transmit chain is judged (R41, R308, R310): it errors, expires, or waits for its reservation. -/
def judgeTransmit (s : State) (c : Nat) (e : List Byte) (u : HUnit) : State :=
  let d := (u.descs.head?.map Prod.snd).getD []
  let len := u.room
  let dom := entDomain e
  let target : Int := (dLaunch d : Int) * 65536
  let limit := entLateLimit e
  let timed := bit (dCtl d) 5
  let cause := if len = 0 then 1
    else if s.reg Ix.hostPortMaxFrame (entHostPort e + 1) < len + 4 then 2
    else if u.descs.any fun x => dLen x.2 != 0 && !s.memExists (dAddr x.2) (dLen x.2) then 12
    else if timed ∧ horizon < s.rawDelta dom target then 7
    else 0
  if cause ≠ 0 then s.finishUnit c u.first 3 cause
  else if timed ∧ limit ≠ 0 ∧ target + (limit : Int) * 65536 < s.syncNow dom then
    (s.finishUnit c u.first 4 0).count Ix.launchExpired 0 1
  else s.modUnit c u.first fun v => { v with stage := .waiting, length := len }

/-- The frame of a transmit unit that was not accepted is given up: its packet retires void (R90, R354). -/
def dropFetched (s : State) (u : HUnit) : State :=
  match u.pkt with
  | some h =>
    match s.pkt? h with
    | some p => if p.accepted then s else if p.stage = .reserved then s.dropPkt h else s.failFrame h
    | none => s
  | none => s

/-- Bytes of a host frame are in the buffer: the first ones create its handle, the last ones accept it (R40, R58, R68). -/
def fetched (s : State) (c : Nat) (u : HUnit) (bs : List Byte) (last : Bool) : State :=
  match u.pkt with
  | none => s
  | some h =>
    match s.pkt? h with
    | none => s
    | some p =>
      let all := p.bytes ++ bs
      let whole := if last then all ++ List.replicate (60 - all.length) 0#8 else all
      let p1 := { p with bytes := whole, len := whole.length + 4, windowDone := true, ts := s.raw }
      let s1 := if p.stage = .reserved then (s.dropPkt h).createHandle p1 else s.setPkt h p1
      let h1 := if p.stage = .reserved then s.fr.nextPkt else h
      let s2 := s1.modUnit c u.first fun v => { v with pkt := some h1 }
      if last then (s2.sizeCheck h1).acceptFrame h1 else s2

/-! ### Received frames (R311 to R314) -/

/-- Key of a host copy being delivered, among the copies in transmission. -/
def deliveryKey (q seq : Nat) : Nat := 1024 + q * 281474976710656 + seq

/-- Accepted, unused receive descriptors in ring order, at most 64, whose lengths sum to at least `need` (R313). -/
def rxChoice : List HUnit → Nat → Nat → Option (List HUnit)
  | [], _, _ => none
  | u :: rest, need, left =>
    if left = 0 then none
    else if u.kind = 1 ∧ u.stage = .usable then
      if need ≤ u.room then some [u] else (rxChoice rest (need - u.room) (left - 1)).map fun l => u :: l
    else rxChoice rest need left

/-- The descriptors for the head copy `d` of a host queue, the power state apart (R313). -/
def rxUnits (s : State) (d : QCopy) (k : Packet) : Option (List HUnit) :=
  match s.rxEnabled d.chan with
  | some e =>
    if s.ringBlocked e ∨ (s.channel d.chan).halting.isSome then none
    else rxChoice (s.channel d.chan).units (k.copyLen d.spec - 4) 64
  | none => none

/-- The head copy of host queue `q` is eligible, the power state apart (R138, R313, R314). -/
def rxReady (s : State) (q : Nat) : Option (QCopy × Packet × List HUnit) :=
  match s.headOf q with
  | some (d, k) =>
    if k.accepted ∧ s.shapersAllow q then (s.rxUnits d k).map fun us => (d, k, us) else none
  | none => none

/-- A receive unit ends: its copy has been read, the record of a first copy is complete, and cells nobody reads are freed
(R60, R122). -/
def endDelivery (s : State) (u : HUnit) (q : Nat) : State :=
  match u.copy with
  | none => s
  | some d =>
    let s1 := s.dropTx (deliveryKey q d.seq)
    (if d.index = 0 then s1.completeSurvey d.pkt 1 else s1).reap d.pkt

/-- The delivery of the head copy of queue `q` starts: the descriptors become one unit (R314, R316), the copy leaves its
queue, and its shaper is charged. A frame with a bad cell is the error outcome of its descriptors (R53). -/
def startDelivery (s : State) (q : Nat) (d : QCopy) (k : Packet) (us : List HUnit) : State :=
  let c := d.chan
  let first := (us.head?.map HUnit.first).getD 0
  let s0 := s.handOver c first
  if (s0.channel c).entryBad then s0
  else
    let data := sentWindow k q d 1 s.raw ++ k.tail
    let len := k.copyLen d.spec
    let x := s0.channel c
    let rest := us.drop 1
    let merged (u : HUnit) : HUnit :=
      { u with
        descs := us.flatMap HUnit.descs, stage := .started, copy := some d, data := data, length := data.length,
        ts := some (k.ts, !k.tsInvalid), cls := q % 8, source := k.src,
        todo := (chunksOf data.length).map fun p => .deliver p.1 p.2 }
    let units := (x.units.filter fun u => rest.all fun v => v.first != u.first).map fun u =>
      if u.first = first then merged u else u
    let t : TxCopy :=
      { copy := d, queue := q, bytes := [], started := s.raw, resumed := s.rawTotal, sent := 0, ts := s.raw, charged := len, cutThrough := false, stomp := false,
        cutAt := none, preempted := false, countedPre := false, overrun := false }
    let s1 := ((s0.settleQueue q).chargeShaper q len).setQueue q ((s.queue q).filter fun e => e.seq != d.seq)
    let s2 := (s1.setChannel c { x with units := units, used := s.rawTotal }).setTx (deliveryKey q d.seq) t
    if s2.hasBadCell d.pkt then
      match s2.unit? c first with
      | some u => (s2.endDelivery u q).finishUnit c first 3 5
      | none => s2
    else s2

/-! ### Failures of data (R351) -/

/-- Data of a unit of channel `c` fails for good: the unit errors with cause 5 and the channel halts with cause 1. -/
def failData (s : State) (c : Nat) (u : HUnit) : State :=
  let s1 := match u.copy with
    | some d =>
      (s.endDelivery u d.spec.queue).event Ix.chStatus 1 hostIsland [(6, d.seq)]
    | none => s.dropFetched u
  (s1.finishUnit c u.first 3 5).haltChannel c 1 u.last.1

/-! ### Write-back (R316 to R320) -/

/-- Bytes done of each descriptor of a unit that has done `n` bytes in all. -/
def descDone : List (Nat × List Byte) → Nat → List Nat
  | [], _ => []
  | [_], n => [n]
  | d :: rest, n => min n (dLen d.2) :: descDone rest (n - min n (dLen d.2))

/-- Step 2 of R316 for descriptor `k` of `n`. -/
def writeDesc (s : State) (e : List Byte) (u : HUnit) (d : Nat × List Byte) (done : Nat) (isFirst isLast : Bool) : State :=
  let word := u.outcome + 256 * u.cause + 65536 * ofBool isFirst + 131072 * ofBool isLast
  let a := descAddr e d.1
  (s.store (a + 24) (leBytes 4 word ++ leBytes 4 done)).store (a + 12) (leBytes 2 (clearBit (dCtl d.2) 0))

/-- The descriptors of a unit, in ring order. -/
def writeDescs (s : State) (e : List Byte) (u : HUnit) : State :=
  let n := u.descs.length
  let dones := descDone u.descs u.done
  (u.descs.zip dones).zipIdx.foldl (fun t z => t.writeDesc e u z.1.1 z.1.2 (z.2 == 0) (z.2 + 1 == n)) s

/-- The completion record of a unit (R318). -/
def completionRecord (s : State) (c : Nat) (e : List Byte) (u : HUnit) : List Byte :=
  let good := (u.ts.map Prod.snd).getD true
  let valid := u.ts.isSome
  let t := (u.ts.map Prod.fst).getD 0
  let flags := ofBool valid + 2 * ofBool (!good) + 4 * ofBool u.late + 32 * (u.cls % 8)
  let len := if u.outcome = 1 ∧ u.kind ≠ 2 then u.length else u.done
  leBytes 2 c ++ leBytes 1 (u.outcome + 16 * u.kind) ++ leBytes 1 flags ++ leBytes 4 u.last.1 ++ leBytes 4 len ++
    leBytes 2 (u.source % 1024) ++ leBytes 1 u.descs.length ++ leBytes 1 u.cause ++
    leBytes 8 (if valid then t.toNat else 0) ++
    leBytes 8 (if valid then ofSigned 64 (s.syncAt (entDomain e) t / 65536) else 0)

/-- Records a ring has room for (R317). -/
def ringRoom (s : State) (r : Nat) : Nat :=
  let x := s.cring r
  s.reg Ix.cringSize (r + 1) - (x.producer + 4294967296 - x.consumer) % 4294967296

/-- Address of a ring's next record. -/
def ringSlot (s : State) (r : Nat) : Nat :=
  s.reg Ix.cringBase (r + 1) + 32 * ((s.cring r).producer % s.reg Ix.cringSize (r + 1))

/-- A record goes into its ring, and the producer index after it (R316 steps 4 and 5). -/
def putRecord (s : State) (r : Nat) (bytes : List Byte) : State :=
  let x := s.cring r
  let p := nextIndex x.producer
  (((s.storeFor (0x8000 + r) (s.ringSlot r) bytes).setCring r { x with producer := p }).storeFor (0x8000 + r)
    (s.reg Ix.cringIndexAddr (r + 1)) (leBytes 4 p)).count Ix.cringRecords (r + 1) 1

/-- A record goes into its ring, or waits in the backlog (R319). -/
def giveRecord (s : State) (r : Nat) (bytes : List Byte) : State :=
  let x := s.cring r
  if x.backlog = [] ∧ s.ringRoom r ≠ 0 then s.putRecord r bytes
  else
    let s1 := s.setCring r { x with backlog := x.backlog ++ [bytes], lastPoll := if x.backlog = [] then s.rawTotal else x.lastPoll }
    if x.backlog.length + 1 = 64 then s1.count Ix.cringFullStalls (r + 1) 1 else s1

/-- A channel that names a disabled or absent ring behaves as if it had none, and an event says so once (R317). -/
def noteNoRing (s : State) (c : Nat) (e : List Byte) : State :=
  let x := s.channel c
  if entCring e = 0xFFFF ∨ (s.ringOf e).isSome ∨ x.ringLogged then s
  else (s.setChannel c { x with ringLogged := true }).event Ix.cringEnable 2 hostIsland [(2, c), (2, entCring e)]

/-- The unit's completion ring, where a record of it is to be written. -/
def recordRing (s : State) (e : List Byte) (u : HUnit) : Option Nat := if bit (dCtl u.last.2) 7 then none else s.ringOf e

/-- The ranges steps 2 to 5 of R316 write for a unit; a record that waits in the backlog is written later. -/
def writebackRanges (s : State) (e : List Byte) (u : HUnit) : List (Nat × Nat) :=
  (u.descs.map fun d => (descAddr e d.1, 32)) ++ [(entIndexBlock e + 8, 16)] ++
    match s.recordRing e u with
    | some r =>
      if (s.cring r).backlog = [] ∧ s.ringRoom r ≠ 0 then [(s.ringSlot r, 32), (s.reg Ix.cringIndexAddr (r + 1), 4)] else []
    | none => []

/-- The addresses of a unit's write-back can be written. -/
def writebackOk (s : State) (e : List Byte) (u : HUnit) : Bool := (s.writebackRanges e u).all fun r => s.writeOk r.1 r.2

/-- A unit of channel `c` has been written back: the completion count rises, and a request moves the interrupt mark to it (R316
step 6, R320). -/
def countUnit (s : State) (c : Nat) (e : List Byte) (now reported : Bool) : State :=
  let x := s.channel c
  let finished := nextIndex x.finished
  let irq := entIrqCount e
  let asks := now || (reported && irq != 0 && decide (irq ≤ (finished + 4294967296 - x.mark) % 4294967296))
  let s1 := s.setChannel c { x with
    finished := finished, mark := if asks && entVector e != 0xFFFF then finished else x.mark }
  if asks then s1.request (entVector e) s.rawTotal else s1

/-- The unit leaves its channel (R316 step 3 on): the index block, the record, then the completion count and the interrupt
request, which the index block of the next unit shows (R320). `reported` is whether its outcome could be written. -/
def retireUnit (s : State) (c : Nat) (e : List Byte) (u : HUnit) (reported : Bool) : State :=
  let x := s.channel c
  let x1 := { x with units := x.units.drop 1, consumer := (x.consumer + u.descs.length) % 4294967296 }
  let s1 := (s.setChannel c x1).count Ix.chUnits (c + 1) 1
  let s2 := s1.storeFor c (entIndexBlock e + 8)
    (leBytes 4 x1.consumer ++ leBytes 4 x1.accepted ++ leBytes 4 x1.finished ++ leBytes 4 x1.mark)
  let s3 := match s.recordRing e u with
    | some r => if reported then s2.giveRecord r (s.completionRecord c e u) else s2
    | none => s2.noteNoRing c e
  s3.countUnit c e (reported && bit (dCtl u.last.2) 3) reported

/-- Once its last unit is written back a channel ends its halt, and a waiting invalidation drops its entry (R333, R352). -/
def settleChannel (s : State) (c : Nat) : State :=
  let x := s.channel c
  if x.units = [] then
    let s1 := s.haltDone c
    if (s1.channel c).dropping then s1.dropEntry c else s1
  else s

/-- The write-back of a unit fails for good (R351): its outcome cannot be reported, and the channel halts with cause 4. -/
def loseWriteBack (s : State) (c : Nat) (e : List Byte) (u : HUnit) : State :=
  let s1 := s.event Ix.chStatus 3 hostIsland [(2, c), (4, u.last.1), (1, u.outcome)]
  ((s1.retireUnit c e u false).haltChannel c 4 u.last.1).settleChannel c

/-- The finished unit `u` at the head of channel `c` is written back (R316, R351). -/
def writeBack (s : State) (c : Nat) (e : List Byte) (u : HUnit) : State :=
  if s.writebackOk e u then ((s.writeDescs e u).retireUnit c e u true).settleChannel c
  else
    let bad := (s.writebackRanges e u).filter fun r => !s.writeOk r.1 r.2
    ((bad.foldl (fun t r => t.noteBadRead c r.1 r.2) s).useRetries c e u.retries).loseWriteBack c e u

/-- The write-back of channel `c`'s head unit may run now (R316, R319, R323, R324). -/
def mayWriteBack (s : State) (c : Nat) : Option (List Byte × HUnit) :=
  match (s.channel c).entry, (s.channel c).units with
  | some e, u :: _ =>
    let held := match s.recordRing e u with
      | some r => decide (64 ≤ (s.cring r).backlog.length)
      | none => false
    if u.stage = .finished ∧ s.hostPowered ∧ held = false then some (e, u) else none
  | _, _ => none

/-- A ring's consumer index is read (R317). -/
def readConsumer (s : State) (r : Nat) : State :=
  let a := s.reg Ix.cringIndexAddr (r + 1) + 8
  let x := s.cring r
  let n := s.loadNat a 4
  if s.readOk a 4 = false then (s.noteBadRead (0x8000 + r) a 4).setCring r { x with lastPoll := s.rawTotal }
  else if s.reg Ix.cringSize (r + 1) < (x.producer + 4294967296 - n) % 4294967296 then
    (s.setCring r { x with lastPoll := s.rawTotal }).event Ix.cringEnable 2 hostIsland [(2, r), (4, n)]
  else s.setCring r { x with consumer := n, lastPoll := s.rawTotal }

/-- Backlog records leave in order while there is room (R319). -/
def drain : Nat → State → Nat → State
  | 0, s, _ => s
  | fuel + 1, s, r =>
    match (s.cring r).backlog with
    | [] => s
    | b :: rest =>
      if s.ringRoom r = 0 then s
      else drain fuel ((s.setCring r { s.cring r with backlog := rest }).putRecord r b) r

end State
end Sys2Proof.Machine
end

