-- ==== Sys2Proof/Machine/HostPower.lean ====
section
/-! DEFINITION. The host island's resets, its interrupt vectors and its power states (R299, R321 to R325). -/

namespace Sys2Proof.Machine
namespace State

/-! ### Vectors (R321 to R325) -/

/-- One message of vector `v` is sent. -/
def sendMessage (s : State) (v : Nat) : State :=
  (s.setVec v { s.vec v with count := 0, pending := false, held := false }).count Ix.vecMessages (v + 1) 1

/-- The vector, the function or MSI-X as a whole is masked (R322). -/
def vecMasked (s : State) (v : Nat) : Bool := (s.vec v).masked || s.ho.functionMask || !s.ho.msixEnable

/-- The vector's message is due (R321), or one that fell due is held. -/
def messageDue (s : State) (v : Nat) : Bool :=
  let x := s.vec v
  x.held || (x.count != 0 && (decide (s.reg Ix.vecModCount (v + 1) ≤ x.count) ||
    decide (ns (s.reg Ix.vecModTime (v + 1)) ≤ s.since x.timer)))

/-- A message that is due: held while the function may issue nothing (R324, R474), made pending while it is masked (R322),
held for L0 in a low-power link state (R323), else sent. -/
def dueMessage (s : State) (v : Nat) : State :=
  let x := s.vec v
  if s.hostPowered = false then s.setVec v { x with count := 0, held := true }
  else if s.vecMasked v then s.setVec v { x with count := 0, pending := true, held := false }
  else if s.ho.link ≠ 0 then
    let s1 := s.setVec v { x with held := true }
    { s1 with ho := { s1.ho with l0Wanted := true } }
  else s.sendMessage v

/-- Vectors that hold anything, in ascending number. -/
def liveVectors (s : State) : List Nat := tkeys s.ho.vecs

/-- Pending bits whose vector is no longer masked send one message each (R322). -/
def sendPending (s : State) : State :=
  s.liveVectors.foldl (fun t v => if (t.vec v).pending && !t.vecMasked v then t.dueMessage v else t) s

/-- On return to D0 with Bus Master Enable every vector that holds a message or requests sends exactly one, or sets its
pending bit where it is masked; its count and timer are cleared (R325). -/
def releaseVectors (s : State) : State :=
  s.liveVectors.foldl (fun t v =>
    let x := t.vec v
    if x.held || x.pending || x.count != 0 then t.dueMessage v else t) s

/-- Raw time since the older of the oldest completion behind a pending message or request, and the oldest receive copy that
waits only because of the power state (R324). -/
def pendingAge (s : State) : Nat :=
  let vs := s.ho.vecs.map fun e => if e.2.held || e.2.pending || e.2.count != 0 then s.since e.2.since else 0
  let cs := (List.range (if s.hostPowered then 0 else 32)).map fun j =>
    match s.rxReady (4096 + j) with
    | some (d, _) => s.since d.enqueued
    | none => 0
  (vs ++ cs).foldl max 0

/-! ### The function and its BAR2 (R296, R297) -/

/-- Properties of the PCIe function (R296): its identity and what it supports. -/
structure PcieFunction where
  vendor : Nat
  device : Nat
  classCode : Nat := 0x028000
  maxPayload : Nat × Nat := (128, 512)
  maxReadRequest : Nat × Nat := (128, 4096)
  tagBits : Nat := 10
  outstanding : Nat := 768
  noSoftReset : Bool := true
  d1 : Bool := false
  d2 : Bool := false
  pmeD0 : Bool := true
  pmeD3hot : Bool := true
  pmeD3cold : Bool := false
  l0s : Bool := false
  intx : Bool := false
  msi : Bool := false
  vectors : Nat := 2048
  flr : Bool := true
  aer : Bool := true
  sriov : Bool := false
  ats : Bool := false
  pasid : Bool := false
  ptm : Bool := false
  deriving DecidableEq, Repr

/-- The function as the device presents it (R296). -/
def pcieFunction (s : State) : PcieFunction :=
  { vendor := 0x1F3A
    device := match s.variant with
      | .tvr8512 => 0x8512
      | .tvr8256 => 0x8256
      | .tvr8128 => 0x8128 }

/-- The entry of vector `v` in the MSI-X table: address, data and vector control. -/
def vecEntry (s : State) (v : Nat) : List Byte :=
  leBytes 8 (s.vec v).addr ++ leBytes 4 (s.vec v).data ++ leBytes 4 (ofBool (s.vec v).masked)

/-- Byte `o` of BAR2: the MSI-X table and its pending bits; a doorbell and every other address read 0 (R297). -/
def bar2Byte (s : State) (o : Nat) : Byte :=
  if 0x80000 ≤ o ∧ o < 0x88000 then (s.vecEntry ((o - 0x80000) / 16)).getD (o % 16) 0#8
  else if 0xC0000 ≤ o ∧ o < 0xC0100 then
    BitVec.ofNat 8 (((List.range 8).map fun b => if (s.vec (8 * (o - 0xC0000) + b)).pending then 2 ^ b else 0).sum)
  else 0#8

/-- A read of `n` bytes of BAR2 at `o`. -/
def bar2Read (s : State) (o n : Nat) : List Byte := (List.range n).map fun k => s.bar2Byte (o + k)

/-- The mask bit of vector `v` is written (R322): unmasked, one pending message goes. -/
def maskVector (s : State) (v : Nat) (masked : Bool) : State :=
  let s1 := s.setVec v { s.vec v with masked := masked }
  if (s1.vec v).pending && !s1.vecMasked v then s1.dueMessage v else s1

/-- A write of BAR2 at `o`: into the MSI-X table it changes an entry; elsewhere it is ignored (R297). The doorbells have
commands of their own. -/
def bar2Write (s : State) (o : Nat) (data : List Byte) : State :=
  if 0x80000 ≤ o ∧ o % 16 + data.length ≤ 16 ∧ o < 0x88000 then
    let v := (o - 0x80000) / 16
    let e := patch (s.vecEntry v) (o % 16) data
    (s.setVec v { s.vec v with addr := leField e 0 8, data := leField e 8 4 }).maskVector v (bit (leField e 12 4) 0)
  else s

/-! ### Resets of the host island (R299) -/

/-- A descriptor accepted and not written back is abandoned: counted and logged with its channel and ring position. -/
def abandonUnit (c : Nat) (s : State) (u : HUnit) : State :=
  let size := ((s.channel c).entry.map entRingSize).getD 1
  let s1 := match u.copy with
    | some d =>
      let s0 := s.dropTx (deliveryKey d.spec.queue d.seq)
      s0.setQueue d.spec.queue (d :: s0.queue d.spec.queue)
    | none => if u.stage = .started then s.dropFetched u else s
  u.descs.foldl (fun t d =>
    (t.countSat Ix.flrAbandoned 0 1).event Ix.flrAbandoned 1 hostIsland [(2, c), (4, d.1 % size)]) s1

/-- The host island resets (R299): every channel is disabled, its descriptors abandoned; cache, MSI-X table, moderation and
backlogs are cleared; Bus Master Enable is clear. -/
def resetHost (s : State) : State :=
  let s1 := (tkeys s.ho.channels).foldl (fun t c =>
    let t1 := (t.channel c).units.foldl (abandonUnit c) t
    (t1.setChannel c {}).setReg Ix.chHaltCause (c + 1) 0) s
  let s2 := { s1 with ho := { s1.ho with
    vecs := [], crings := s1.ho.crings.map fun (e : Nat × CRing) => (e.1, { e.2 with backlog := [] }), visit := none, d3hot := false,
    busMaster := false, msixEnable := false, functionMask := false, pmeEnable := false, pmeStatus := false, l0Wanted := false,
    dmaOper := some (s1.reg Ix.dmaMode 0), dmaNext := none } }
  (s2.discardPending hostIsland).countSat Ix.islandResetCount (hostIsland + 1) 1

end State
end Sys2Proof.Machine
end

