-- ==== Sys2Proof/Machine/Reshuffle.lean ====
section
/-! DEFINITION. Plane and bit-plane reshuffling of pixel data (R346, R347). -/

namespace Sys2Proof.Machine

/-- The format of a reshuffle: bits per sample, components per pixel, and bit split (R346). -/
structure Format where
  s : Nat
  p : Nat
  split : Bool
  deriving DecidableEq, Repr

/-- The format the control field gives, if its sample code and plane count are allowed (R346). -/
def Format.ofCtl (ctl : Nat) : Option Format :=
  let code := bits ctl 14 12
  let f : Format := ⟨2 ^ code, bits ctl 11 8 + 1, bit ctl 15⟩
  let q := if f.split then f.p * f.s else f.p
  if code ≤ 4 ∧ 2 ≤ q ∧ q ≤ 16 then some f else none

/-- Planes Q. -/
def Format.planes (f : Format) : Nat := if f.split then f.p * f.s else f.p

/-- Bits of a sample in a plane. -/
def Format.planeBits (f : Format) : Nat := if f.split then 1 else f.s

/-- Bytes of `n` pixels interleaved, and of a plane of them (R347). -/
def Format.interleaved (f : Format) (n : Nat) : Nat := ceilDiv (n * f.p * f.s) 8
def Format.planeLen (f : Format) (n : Nat) : Nat := ceilDiv (n * f.planeBits) 8

/-- The samples of `s` bits a byte holds, most significant first. -/
def byteSamples (s : Nat) (b : Byte) : List Nat :=
  (List.range (8 / s)).map fun i => b.toNat / 2 ^ (8 - s - s * i) % 2 ^ s

/-- The samples packed in a byte list (R347). -/
def unpack (s : Nat) : List Byte → List Nat
  | [] => []
  | a :: rest =>
    if s = 16 then
      match rest with
      | b :: t => (a.toNat + 256 * b.toNat) :: unpack s t
      | [] => [a.toNat]
    else byteSamples s a ++ unpack s rest

/-- One byte of samples of `s` bits, most significant first; missing samples are 0. -/
def packByte (s : Nat) (vs : List Nat) : Byte :=
  BitVec.ofNat 8 ((List.range (8 / s)).foldl (fun acc i => acc * 2 ^ s + vs.getD i 0 % 2 ^ s) 0)

/-- Samples packed; `fuel` is at least their number. -/
def packFuel (s : Nat) : Nat → List Nat → List Byte
  | 0, _ => []
  | _ + 1, [] => []
  | fuel + 1, v :: vs =>
    if s = 16 then leBytes 2 v ++ packFuel s fuel vs
    else packByte s ((v :: vs).take (8 / s)) :: packFuel s fuel ((v :: vs).drop (8 / s))

def pack (s : Nat) (vs : List Nat) : List Byte := packFuel s (vs.length + 1) vs

/-- Every `p`-th sample from sample `c` on: component `c` of each pixel. -/
def component (p c : Nat) (vs : List Nat) : List Nat := (vs.zipIdx.filter fun e => e.2 % p == c).map Prod.fst

/-- The planes of `n` pixels, in plane order (R347). -/
def Format.toPlanes (f : Format) (n : Nat) (bs : List Byte) : List (List Byte) :=
  let vs := (unpack f.s bs).take (n * f.p)
  (List.range f.planes).map fun k =>
    if f.split then pack 1 ((component f.p (k / f.s) vs).map fun v => v / 2 ^ (f.s - 1 - k % f.s) % 2)
    else pack f.s (component f.p k vs)

/-- Lists of equal length interleaved: the first of each, then the second of each. -/
def interleave : Nat → List (List Nat) → List Nat
  | 0, _ => []
  | n + 1, ls => ls.filterMap List.head? ++ interleave n (ls.map (List.drop 1))

/-- The interleaved bytes of `n` pixels, from their planes (R346, R347). -/
def Format.ofPlanes (f : Format) (n : Nat) (planes : List (List Byte)) : List Byte :=
  let ls := planes.map fun b => (unpack f.planeBits b).take n
  let comps := (List.range f.p).map fun c =>
    if f.split then
      ((ls.drop (c * f.s)).take f.s).foldl (fun acc l => List.zipWith (fun a b => 2 * a + b) acc l) (List.replicate n 0)
    else ls.getD c []
  pack f.s (interleave n comps)

end Sys2Proof.Machine
end

