-- ==== Sys2Proof/Machine/DmaOps.lean ====
section
/-! DEFINITION. Move operations: their checks and chunks, scatter-gather and index lists, and the transfer of one chunk
(R335 to R354). -/

namespace Sys2Proof.Machine

/-- Two ranges of one space overlap (R340, R348). -/
def rangesMeet (a n b m : Nat) : Bool :=
  isLpddr a == isLpddr b && decide (spaceAddr a < spaceAddr b + m) && decide (spaceAddr b < spaceAddr a + n) &&
    n != 0 && m != 0

/-- The address `off` bytes above a base, in the base's space. -/
def addrIn (base off : Nat) : Nat := (if isLpddr base then 9223372036854775808 else 0) + (spaceAddr base + off)

namespace State

/-- A range `off` bytes above a base exists and stays within the base's space. -/
def rangeExists (s : State) (base off n : Nat) : Bool :=
  decide (spaceAddr base + off + n ≤ 9223372036854775808) && s.memExists (addrIn base off) n

/-! ### Scatter-gather lists (R338) -/

/-- How the read of a list, or the planning of a move, ends: chunks to move, an error cause, or a failed read. -/
inductive Plan (α : Type) where
  | ok (x : α)
  | error (cause : Nat)
  | bus (a n : Nat)
  deriving DecidableEq, Repr

/-- The entries of a list from address `a` on, `got` of them so far, newest first. Links are followed; a list whose walk
does not end within the fuel is invalid. -/
def sgWalk (s : State) : Nat → Nat → List (Nat × Nat) → Plan (List (Nat × Nat))
  | 0, _, _ => .error 10
  | fuel + 1, a, got =>
    if s.memExists a 16 = false then .error 12
    else if s.readOk a 16 = false then .bus a 16
    else
      let e := s.load a 16
      let flags := leField e 12 4
      if 4 ≤ flags then .error 10
      else if bit flags 1 then s.sgWalk fuel (leField e 0 8) got
      else if leField e 11 1 ≠ 0 ∨ leField e 8 3 = 0 ∨ 1024 ≤ got.length then .error 10
      else
        let all := (leField e 0 8, leField e 8 3) :: got
        if bit flags 0 then .ok all.reverse else s.sgWalk fuel (a + 16) all

/-- The byte sequence of a list, or of a plain address, of at least `n` bytes. -/
def sgRead (s : State) (isList : Bool) (a n : Nat) : Plan (List (Nat × Nat)) :=
  if isList then
    match s.sgWalk 65536 a [] with
    | .ok l => if (l.map Prod.snd).sum < n then .error 10 else .ok l
    | r => r
  else .ok [(a, n)]

/-- Maximal runs within one source and one destination entry, `n` bytes in all (R338). -/
def pairRuns : Nat → List (Nat × Nat) → List (Nat × Nat) → Nat → List (Nat × Nat × Nat)
  | 0, _, _, _ => []
  | fuel + 1, (sa, sn) :: ss, (da, dn) :: ds, n =>
    let m := min n (min sn dn)
    if n = 0 then []
    else
      (sa, da, m) :: pairRuns fuel (if m = sn then ss else (sa + m, sn - m) :: ss)
        (if m = dn then ds else (da + m, dn - m) :: ds) (n - m)
  | _, _, _, _ => []

/-- The chunks of one element, ascending (R341). -/
def elementChunks (sa da n : Nat) : List Xfer := (chunksOf n).map fun p => .copy (sa + p.1) (da + p.1) p.2

/-- All ranges of an element list exist (R337 cause 12). -/
def elementsExist (s : State) (l : List (Nat × Nat × Nat)) : Bool :=
  l.all fun e => s.memExists e.1 e.2.2 && s.memExists e.2.1 e.2.2

/-- Operation 3 (R335, R338, R340, R341). -/
def planCopy (s : State) (d : List Byte) : Plan (List Xfer) :=
  let n := dLen d
  let srcList := bit (dCtl d) 8
  let dstList := bit (dCtl d) 9
  if n = 0 then .error 13
  else
    match s.sgRead srcList (dAddr d) n, s.sgRead dstList (dLaunch d) n with
    | .ok ss, .ok ds =>
      let runs := pairRuns 2049 ss ds n
      if s.elementsExist runs = false then .error 12
      else if !srcList && !dstList then
        let cs := elementChunks (dAddr d) (dLaunch d) n
        let up := rangesMeet (dAddr d) n (dLaunch d) n && decide (spaceAddr (dAddr d) < spaceAddr (dLaunch d))
        .ok (if up then cs.reverse else cs)
      else .ok (runs.flatMap fun e => elementChunks e.1 e.2.1 e.2.2)
    | .bus a m, _ => .bus a m
    | _, .bus a m => .bus a m
    | .error c, _ => .error c
    | _, .error c => .error c

/-- Operations 4 and 5 (R339, R341). -/
def planIndex (s : State) (e d : List Byte) : Plan (List Xfer) :=
  let n := dLen d
  let size := entElement e
  let list := dAddr d
  let flat := dLaunch d
  if n = 0 ∨ 65536 < n then .error 13
  else if s.memExists list (4 * n) = false ∨ s.rangeExists flat 0 (n * size) = false then .error 12
  else if s.readOk list (4 * n) = false then .bus list (4 * n)
  else
    let offs := (List.range n).map fun k => s.loadNat (list + 4 * k) 4
    if offs.all (fun o => s.rangeExists (entIndexBase e) o size) = false then .error 12
    else
      .ok (offs.zipIdx.flatMap fun z =>
        let el := addrIn (entIndexBase e) z.1
        let fl := addrIn flat (z.2 * size)
        if dOp d = 4 then elementChunks el fl size else elementChunks fl el size)

/-- Pixels of a reshuffle chunk: groups of eight pixels of at most 4,096 interleaved bytes. -/
def pixelStep (f : Format) : Nat := 8 * max 1 (4096 / (f.p * f.s))

/-- Ranges of pixels, `step` at a time. -/
def pixelRuns : Nat → Nat → Nat → Nat → List (Nat × Nat)
  | 0, _, _, _ => []
  | fuel + 1, step, i, n => if n = 0 then [] else (i, min step n) :: pixelRuns fuel step (i + min step n) (n - min step n)

/-- Operations 6 and 7 (R346 to R348). -/
def planPlanes (s : State) (e d : List Byte) : Plan (List Xfer) :=
  let n := dLen d
  match Format.ofCtl (dCtl d) with
  | none => if n = 0 then .error 13 else .error 11
  | some f =>
    let whole := f.interleaved n
    let len := f.planeLen n
    let planes := (List.range f.planes).map fun k => k * entStride e
    if n = 0 then .error 13
    else if entStride e < len then .error 11
    else if s.rangeExists (dAddr d) 0 whole = false ∨ planes.all (fun o => s.rangeExists (dLaunch d) o len) = false then .error 12
    else if planes.any fun o => rangesMeet (dAddr d) whole (addrIn (dLaunch d) o) len then .error 11
    else
      .ok ((pixelRuns (n / pixelStep f + 1) (pixelStep f) 0 n).map fun r =>
        if dOp d = 6 then .split r.1 r.2 else .merge r.1 r.2)

/-- The chunks of a move. -/
def planMove (s : State) (e d : List Byte) : Plan (List Xfer) :=
  if dOp d = 3 then s.planCopy d else if dOp d ≤ 5 then s.planIndex e d else s.planPlanes e d

/-- Some destination range of a move's chunks overlaps a source range (R191). -/
def chunksMeet (l : List Xfer) : Bool :=
  let ranges := l.filterMap fun x => match x with | .copy a b n => some (a, b, n) | _ => none
  ranges.any fun x => ranges.any fun y => rangesMeet x.1 x.2.2 y.2.1 y.2.2

/-- The next accepted move of channel `c` starts, if its operation is `op` (R336, R342, R343, R355). -/
def startMove (s : State) (c op : Nat) : State :=
  match s.chanEntry c, (s.channel c).units.find? fun u => u.stage == .accepted with
  | some _, some u =>
    let d := u.last.2
    if u.kind ≠ 2 ∨ dOp d ≠ op ∨ s.mayStart c = false ∨ s.inTurn u = false ∨
        (bit (dClass d) 0 ∧ s.earlierDone c u.first = false) then s
    else
      let s1 := s.handOver c u.first
      match s1.chanEntry c with
      | none => s1
      | some e =>
        match s1.planMove e d with
        | .error cause => s1.finishUnit c u.first 3 cause
        | .bus a n => (((s1.noteBadRead c a n).useRetries c e 0).failData c u)
        | .ok chunks =>
          (s1.setChannel c { s1.channel c with used := s.rawTotal }).modUnit c u.first fun v =>
            { v with stage := .started, todo := chunks, meets := chunksMeet chunks }
  | _, _ => s

/-! ### Chunks (R342, R345, R346, R350) -/

/-- Parts of a chunk: what it reads and what it writes, as address and length. -/
def xferReads (e : List Byte) (u : HUnit) (x : Xfer) : List (Nat × Nat) :=
  let d := u.last.2
  match x with
  | .copy src _ n => [(src, n)]
  | .fetch off n => unitPieces u off n
  | .deliver _ _ => []
  | .split i n =>
    match Format.ofCtl (dCtl d) with
    | some f => [(dAddr d + i * f.p * f.s / 8, f.interleaved n)]
    | none => []
  | .merge i n =>
    match Format.ofCtl (dCtl d) with
    | some f =>
      (List.range f.planes).map fun k => (addrIn (dLaunch d) (k * entStride e + i * f.planeBits / 8), f.planeLen n)
    | none => []

def xferWrites (e : List Byte) (u : HUnit) (x : Xfer) : List (Nat × Nat) :=
  let d := u.last.2
  match x with
  | .copy _ dst n => [(dst, n)]
  | .fetch _ _ => []
  | .deliver off n => unitPieces u off n
  | .split i n =>
    match Format.ofCtl (dCtl d) with
    | some f =>
      (List.range f.planes).map fun k => (addrIn (dLaunch d) (k * entStride e + i * f.planeBits / 8), f.planeLen n)
    | none => []
  | .merge i n =>
    match Format.ofCtl (dCtl d) with
    | some f => [(dAddr d + i * f.p * f.s / 8, f.interleaved n)]
    | none => []

/-- Data bytes of a chunk on the channel's target bus (R345). -/
def busBytes (e : List Byte) (u : HUnit) (x : Xfer) : Nat :=
  ((xferReads e u x ++ xferWrites e u x).map fun r => if isLpddr r.1 == (entBus e == 1) then r.2 else 0).sum

/-- The first range of a chunk that fails, if one does. -/
def xferBad (s : State) (e : List Byte) (u : HUnit) (x : Xfer) : Option (Nat × Nat) :=
  ((xferReads e u x).find? fun r => !s.readOk r.1 r.2).or ((xferWrites e u x).find? fun r => !s.writeOk r.1 r.2)

/-- Byte lists stored at their addresses. -/
def storeAll (s : State) (ws : List (Nat × List Byte)) : State := ws.foldl (fun t w => t.store w.1 w.2) s

/-- A byte list cut to the lengths of ranges. -/
def cutTo : List (Nat × Nat) → List Byte → List (Nat × List Byte)
  | [], _ => []
  | r :: rest, bs => (r.1, bs.take r.2) :: cutTo rest (bs.drop r.2)

/-- The data of a chunk is moved: read in full, then written (R341, R346). -/
def moveData (s : State) (e : List Byte) (u : HUnit) (x : Xfer) : State :=
  let ws := xferWrites e u x
  let input := (xferReads e u x).map fun r => s.load r.1 r.2
  let f := (Format.ofCtl (dCtl u.last.2)).getD ⟨1, 2, false⟩
  match x with
  | .copy _ dst _ => s.store dst input.flatten
  | .fetch _ _ => s
  | .deliver off n => s.storeAll (cutTo ws ((u.data.drop off).take n))
  | .split _ n => s.storeAll ((ws.map Prod.fst).zip (f.toPlanes n input.flatten))
  | .merge _ n => s.storeAll ((ws.map Prod.fst).zip [f.ofPlanes n input])

/-- Destination bytes of a chunk, or bytes read of a transmit frame (R301, R335). -/
def xferBytes (e : List Byte) (u : HUnit) (x : Xfer) : Nat :=
  match x with
  | .fetch _ n => n
  | _ => ((xferWrites e u x).map Prod.snd).sum

/-- Chunks in use of a channel, and of the device (DMA_STAGE_USED). -/
def chanChunks (s : State) (c : Nat) : Nat := ((s.channel c).units.map fun u => u.flying.length).sum
def stageUsed (s : State) : Nat := (s.ho.channels.map fun e => (e.2.units.map fun u => u.flying.length).sum).sum

/-- The next chunk of channel `c` begins (R342, R345). -/
def beginChunk (s : State) (c : Nat) (e : List Byte) (u : HUnit) : State :=
  match u.todo with
  | [] => s
  | x :: rest =>
    (s.chargePace c e (busBytes e u x)).modUnit c u.first fun v => { v with todo := rest, flying := v.flying ++ [x] }

/-- What follows the last chunk of a unit (R309, R314, R354). -/
def afterLast (s : State) (c : Nat) (u : HUnit) : State :=
  if u.kind = 2 then s.finishUnit c u.first (if u.aborted then 2 else 1) 0
  else if u.kind = 0 then
    s.modUnit c u.first fun v => if v.ended ∧ v.stage = .started then v.finish 1 0 else v
  else
    match u.copy with
    | some d => (s.endDelivery u d.spec.queue).finishUnit c u.first 1 0
    | none => s

/-- The oldest chunk in flight of unit `u` completes. -/
def endChunk (s : State) (c : Nat) (e : List Byte) (u : HUnit) (x : Xfer) : State :=
  let stomped := match u.copy with
    | some d => ((s.txCopy? (deliveryKey d.spec.queue d.seq)).map TxCopy.stomp).getD false
    | none => false
  if stomped then
    match u.copy with
    | some d => (s.endDelivery u d.spec.queue).finishUnit c u.first 3 5
    | none => s
  else
    match s.xferBad e u x with
    | some r => ((s.noteBadRead c r.1 r.2).useRetries c e u.retries).failData c u
    | none =>
      let last := u.todo.isEmpty && u.flying.length == 1
      let n := xferBytes e u x
      let s1 := (s.moveData e u x).count Ix.chBytes (c + 1) n
      let s2 := s1.modUnit c u.first fun v => { v with flying := v.flying.drop 1, done := v.done + n, retries := 0 }
      let s3 := match x with
        | .fetch _ _ => s2.fetched c u ((xferReads e u x).flatMap fun r => s.load r.1 r.2) last
        | _ => s2
      if last then s3.afterLast c u else s3

/-- An uncorrectable copy in the mirror region is read from the other channel and repaired (R416). -/
def repairCopy (s : State) (c : Nat) : State := (s.countUncorrectable c).count Ix.memMirrorRepairs (c + 1) 1

/-- What a demand read met in LPDDR4X, as pairs: under a channel `c` the codewords corrected there, under 8 + `c` its copies in
the mirror region that were uncorrectable while the partner serves, and were repaired (R415, R416). -/
def noteCorrected (s : State) (l : List (Nat × Nat)) : State :=
  l.foldl (fun t p =>
    if p.1 < 8 then t.count Ix.memCorrected (p.1 + 1) p.2
    else
      let c := p.1 - 8
      let partner := c / 2 * 2 + (c + 1) % 2
      if c < 8 ∧ s.memUnserved c = false ∧ s.memUnserved partner = false then (List.range p.2).foldl (fun u _ => u.repairCopy c) t
      else t) s

/-! ### Dictionary commands of the channels (R333, R352 to R356) -/

/-- Channel `c`'s cached entry is dropped, or waits for its accepted units (R333). -/
def invalidate (s : State) (c : Nat) : State :=
  let x := s.channel c
  if x.entry.isNone then s
  else if x.units = [] then s.dropEntry c
  else s.setChannel c { x with dropping := true, more := false }

/-- A write to CH_INVALIDATE (R333). -/
def writeChInvalidate (s : State) (v : Nat) : Wr :=
  if v = 0xFFFF then (s.cachedChannels.foldl invalidate s, 0)
  else if 4096 ≤ v then (s, Abort.outOfRange)
  else (s.invalidate v, 0)

/-- A write to CH_RESTART (R352): the halt is cleared and the index block read at once. -/
def writeChRestart (s : State) (c v : Nat) : Wr :=
  commandWrite s v fun s =>
    let cause := s.reg Ix.chHaltCause (c + 1)
    if cause = 0 ∨ cause = 5 then (s, 0)
    else
      let s1 := s.setReg Ix.chHaltCause (c + 1) 0
      let x := s1.channel c
      if (s1.chanReady c).isSome then (s1.setChannel c { x with reading := true }, 0)
      else if x.entry.isNone then (s1.setChannel c { x with ringing := true }, 0)
      else (s1, 0)

/-- The outcome of an abort request on unit `u` of channel `c` (R353, R354): none where its deciding point is past. -/
def abortUnit (s : State) (c : Nat) (u : HUnit) (i : Nat) : Option State :=
  match u.stage with
  | .finished => none
  | .started =>
    if u.kind = 2 then
      if u.flying = [] then some (s.finishUnit c u.first 2 0)
      else some (s.modUnit c u.first fun v => { v with aborted := true, todo := [] })
    else if u.kind = 0 ∧ u.transferring then some ((s.dropFetched u).finishUnit c u.first 2 0)
    else none
  | _ =>
    if u.kind = 1 then
      let x := s.channel c
      let later (v : HUnit) : Bool := v.kind == 1 && (v.stage == .accepted || v.stage == .usable) &&
        decide ((v.first + 4294967296 - i) % 4294967296 < 2147483648)
      some (s.setChannel c { x with units := x.units.map fun v => if later v then v.finish 2 0 else v })
    else some (s.finishUnit c u.first 2 0)

/-- A write to CH_ABORT (R353). -/
def writeChAbort (s : State) (v : Nat) : Wr :=
  let c := v % 4096
  let i := v / 4294967296
  let x := s.channel c
  let result (s : State) (r : Nat) : State := s.setReg Ix.chAbortResult (c + 1) r
  if v / 4096 % 1048576 ≠ 0 then (s, Abort.outOfRange)
  else
    match x.units.find? fun u => u.descs.any fun d => d.1 == i with
    | some u =>
      match s.abortUnit c u i with
      | some s1 => (result s1 1, 0)
      | none => (result s 2, Abort.nothingToAbort)
    | none =>
      if (i + 4294967296 - x.accepted) % 4294967296 < 2147483648 then (result s 3, Abort.nothingToAbort)
      else (result s 2, Abort.nothingToAbort)

/-- A write to CH_SHADOW_ARM (R355, R356): 1 arms, 0 cancels. -/
def writeChShadowArm (s : State) (c v : Nat) : Wr :=
  if 1 < v then (s, Abort.outOfRange) else (s.setReg Ix.chShadowArm (c + 1) v, 0)

end State
end Sys2Proof.Machine
end

