-- ==== Sys2Proof/Machine/NvOps.lean ====
section
/-! DEFINITION. The non-volatile store: slots, unit writes, firmware checks, fuses, one-time keys and quotes (chapters 14 and
15). -/

namespace Sys2Proof.Machine

/-! ### Firmware slots (R425, R431, R432) -/

/-- Magic words of a firmware slot, an image slot and a quote. -/
def fwMagic : List Byte := [0x54#8, 0x56#8, 0x46#8, 0x57#8]
def imgMagic : List Byte := [0x54#8, 0x56#8, 0x49#8, 0x4D#8]
def quoteMagic : List Byte := [0x54#8, 0x56#8, 0x41#8, 0x51#8]

/-- Bytes a signature holds (chapter 15). -/
def hssBytes : Nat := 5396

/-- Length n of the body, and the largest (R431). -/
def fwBody (b : List Byte) : Nat := leField b 8 4
def fwBodyMax : Nat := 3140200

/-- Header fields of a slot (R425, R431). -/
def fwSeq (b : List Byte) : Nat := leField b 4 4
def fwRoot (b : List Byte) : Nat := leField b 12 1 % 4
def fwSecurity (b : List Byte) : Nat := leField b 16 4
def fwVersion (b : List Byte) : Nat := leField b 20 4

/-- The signed span, bytes 8 to 127 + n, and its digest (R431). -/
def fwSpan (b : List Byte) : List Byte := slice b 8 (120 + fwBody b)
def fwDigestOf (b : List Byte) : List Byte := sha256 (fwSpan b)

/-- The bytes of a slot that an image of its length fills. -/
def fwLength (b : List Byte) : Nat := 132 + fwBody b + hssBytes

/-- Vendor root digest k (R429). -/
def rootDigest (k : Nat) : List Byte := (List.range 32).map fun i => Config.rootDigest (32 * k + i)

/-- The checks of R432 against the fuses: revoked keys and the minimum security version. -/
def fwVerifies (revoked minimum : Nat) (b : List Byte) : Bool :=
  decide (slice b 0 4 = fwMagic) && decide (fwBody b ≤ fwBodyMax) && (leField b (128 + fwBody b) 4 == hssBytes) &&
    !bit revoked (fwRoot b) && (sha256 (slice b 64 60) == rootDigest (fwRoot b)) && decide (minimum ≤ fwSecurity b) &&
    hssVerify (slice b 64 60) (slice b (132 + fwBody b) hssBytes) (fwSpan b)

/-- A slot's content with its magic and its sequence number as given. -/
def withHead (b : List Byte) (magic : List Byte) (seq : Nat) : List Byte := magic ++ leBytes 4 seq ++ b.drop 8

/-- A slot's content with its magic cleared. -/
def noMagic (b : List Byte) : List Byte := [0#8, 0#8, 0#8, 0#8] ++ b.drop 4

/-- Units that a content of `n` bytes takes, its magic written last (R423). -/
def nvUnits (n : Nat) : Nat := ceilDiv n 32 + 1

namespace State

/-- Firmware slot and image slot `i`. -/
def fwSlot (s : State) (i : Nat) : List Byte := tgetD s.nv.fwSlots i (Config.factorySlot i)
def imgSlot (s : State) (i : Nat) : List Byte := tgetD s.nv.imgSlots i (Config.factorySlot (2 + i))
def setFwSlot (s : State) (i : Nat) (b : List Byte) : State := { s with nv := { s.nv with fwSlots := tset s.nv.fwSlots i b } }
def setImgSlot (s : State) (i : Nat) (b : List Byte) : State := { s with nv := { s.nv with imgSlots := tset s.nv.imgSlots i b } }

/-- Firmware slot `i` passes the checks of R432 against the fuses as they stand. -/
def slotVerifies (s : State) (i : Nat) : Bool := fwVerifies s.nv.revoked s.nv.minSecurity (s.fwSlot i)

/-- The slots in the order the boot ROM takes them (R425). -/
def bootOrder (s : State) : List Nat := if fwSeq (s.fwSlot 0) < fwSeq (s.fwSlot 1) then [1, 0] else [0, 1]

/-- The slot the boot ROM boots, if one passes (R425, R432, R433). -/
def bootSlot (s : State) : Option Nat := s.bootOrder.find? fun i => s.slotVerifies i

/-- The slot that runs. -/
def booted (s : State) : List Byte := s.fwSlot (s.reg Ix.fwActiveSlot 0)

/-- NV writes are held (R424). -/
def nvHeld (s : State) : Bool := s.reg Ix.nvState 0 == 1

/-! ### Firmware commands (R426, R434) -/

/-- The slot a firmware command works on: the one not booted, slot 0 in ROM recovery (R426, R433). -/
def fwTarget (s : State) : Nat := if s.sy.recovery then 0 else 1 - s.reg Ix.fwActiveSlot 0

/-- The sequence number a firmware command gives (R426). -/
def fwNextSeq (s : State) : Nat := wrapAdd 32 (fwSeq (s.fwSlot (1 - s.fwTarget))) 1

/-- What an INSTALL, a SELECT or an ERASE will do: its job. -/
def fwJobOf (s : State) (code : Nat) : NvJob :=
  let old := s.fwSlot s.fwTarget
  if code = 1 then
    let n := leNat ((s.tableBytes Ix.fwStage 12).drop 8)
    let im := s.tableBytes Ix.fwStage (132 + min n fwBodyMax + hssBytes)
    if fwBodyMax < n then { code := 1, data := [], left := 0, cause := 2 }
    else if fwVerifies s.nv.revoked s.nv.minSecurity im = false then { code := 1, data := [], left := 0, cause := 1 }
    else { code := 1, data := withHead im fwMagic s.fwNextSeq, left := nvUnits (fwLength im) }
  else if code = 2 then
    if fwVerifies s.nv.revoked s.nv.minSecurity old = false then { code := 2, data := [], left := 0, cause := 4 }
    else { code := 2, data := withHead old fwMagic s.fwNextSeq, left := 1 }
  else { code := 3, data := noMagic old, left := 1 }

/-- FW_STATUS while a command runs: HELD where its next unit waits (R426, R424). -/
def showFw (s : State) : State :=
  match s.nv.fwJob with
  | some j => s.setReg Ix.fwStatus 0 (if s.nvHeld ∧ j.left ≠ 0 ∧ j.cause = 0 then 2 else 1)
  | none => s

/-- A write to FW_COMMAND (R426). -/
def writeFwCommand (s : State) (v : Nat) : Wr :=
  if v = 0 ∨ 3 < v then (s, Abort.outOfRange)
  else if s.nv.fwJob.isSome then (s, Abort.busy)
  else (({ s with nv := { s.nv with fwJob := some (s.fwJobOf v) } }).showFw, 0)

/-! ### Unit writes (R423) -/

/-- An event of R423: a unit whose read-backs all differ. -/
def nvFailed (s : State) : State := s.event Ix.nvBytesWritten 1 55 []

/-- One unit of a slot's content: the first leaves the magic cleared, the last makes the content whole. -/
def jobUnit (old : List Byte) (j : NvJob) : List Byte := if j.left = 1 then j.data else if j.left = nvUnits j.data.length then noMagic j.data else old

/-- A unit of the command `j` is written: its read-back agrees, or it is written again up to three times (R423). -/
def stepJob (j : NvJob) (ok : Bool) (cause : Nat) : NvJob :=
  if ok then { j with left := j.left - 1, retries := 0 }
  else if j.retries < 3 then { j with retries := j.retries + 1 }
  else { j with cause := cause }

/-- A unit of the firmware command under way. -/
def fwUnit (s : State) (ok : Bool) : State :=
  match s.nv.fwJob with
  | none => s
  | some j =>
    if j.left = 0 ∨ j.cause ≠ 0 ∨ s.nvHeld then s
    else
      let s1 := s.count Ix.nvBytesWritten 0 32
      let s2 := if ok then s1.setFwSlot s.fwTarget (jobUnit (s.fwSlot s.fwTarget) j) else s1
      let j1 := stepJob j ok 3
      let s3 := { s2 with nv := { s2.nv with fwJob := some j1 } }
      if j1.cause = 0 then s3 else s3.nvFailed

/-- The firmware command ends (R426). -/
def endFw (s : State) : State :=
  match s.nv.fwJob with
  | none => s
  | some j =>
    if j.left ≠ 0 ∧ j.cause = 0 then s
    else
      let s1 := ({ s with nv := { s.nv with fwJob := none } }).setReg Ix.fwStatus 0 (if j.cause = 0 then 3 else 4)
      if j.cause = 0 then s1 else s1.setReg Ix.fwFailCause 0 j.cause

/-! ### Fuses and the owner key (R429, R430, R435) -/

/-- A write of key k to ROOT_KEY_REVOKE, its complement checked (R430). -/
def writeRootKeyRevoke (s : State) (k : Nat) : Wr :=
  if fwRoot s.booted ≤ k then (s, Abort.outOfRange)
  else if s.reg Ix.supplyState 0 = 1 then (s, Abort.busy)
  else if bit s.nv.revoked k then (s, 0)
  else (({ s with nv := { s.nv with revoked := setBit s.nv.revoked k } }).event Ix.rootKeyRevoke 1 55 [(1, k)], 0)

/-- A write of version v to FW_MIN_SECURITY_RAISE, its complement checked (R430): the thermometer of 63 fuses. -/
def writeFwMinSecurityRaise (s : State) (v : Nat) : Wr :=
  if v < s.nv.minSecurity ∨ fwSecurity s.booted < v ∨ 63 < v then (s, Abort.outOfRange)
  else if s.reg Ix.supplyState 0 = 1 then (s, Abort.busy)
  else if v = s.nv.minSecurity then (s, 0)
  else (({ s with nv := { s.nv with minSecurity := v } }).event Ix.rootKeyRevoke 1 55 [(1, v)], 0)

/-- A WOL object is locked (R361). -/
def locked (s : State) (idx : Nat) : Bool := s.nv.locked.contains idx

/-- A write to OWNER_KEY (R364, R435). -/
def writeOwnerKey (s : State) (key : List Byte) : Wr :=
  if s.locked Ix.ownerKey then (s, Abort.locked)
  else if key.length ≠ 60 then (s, Abort.length)
  else if hssKeyOk key = false then (s, Abort.outOfRange)
  else (({ s with nv := { s.nv with locked := Ix.ownerKey :: s.nv.locked } }).setReg Ix.ownerKey 0 (leNat key), 0)

/-! ### One-time keys (R437 to R440) -/

/-- Signatures the identity key has left (R439). -/
def leavesLeft (s : State) : Nat := 1073741824 - s.nv.nextLeaf

/-- The bottom tree that the next index needs has been built (R438). -/
def treeReady (s : State) : Bool := decide (s.nv.nextLeaf / 32768 ≤ s.nv.builtTree)

/-- The next index is committed (R437), with the warning of R439. -/
def commitLeaf (s : State) : State :=
  let s1 := { s with nv := { s.nv with nextLeaf := s.nv.nextLeaf + 1 } }
  if s1.leavesLeft ≤ s1.reg Ix.signWarnLevel 0 ∧ s1.nv.signWarned = false then
    ({ s1 with nv := { s1.nv with signWarned := true } }).event Ix.signWarnLevel 1 55 []
  else s1

/-! ### Quotes (R441 to R446) -/

/-- One record of the schedule digest (R443). -/
def gateDigest (s : State) (k : Nat) : List Byte :=
  let o := ((s.gate k).oper).getD {}
  let width := if k < 512 then 8 else 12
  leBytes 1 (if k < 512 then 1 else 2) ++ leBytes 1 (s.reg (gateIx k Ix.gateDomain Ix.streamGateDomain) (gateSub k)) ++
    leBytes 2 (if k < 512 then k else k - 512) ++ leBytes 10 (nsTime80 o.base) ++ leBytes 4 o.cycle ++
    leBytes 4 (if k < 512 then s.reg Ix.gateCycleExtension (k + 1) else 0) ++ leBytes 2 o.entries.length ++
    o.entries.flatMap (leBytes width)

/-- Enabled gates in the order of R443. -/
def digestGates (s : State) : List Nat :=
  ((List.range 512).filter fun p => s.portPresent p && s.gateEnabled p) ++
    (((List.range 16384).map (512 + ·)).filter fun k => s.sectorPresent ((k - 512) / 1024) && s.gateEnabled k)

/-- The bytes of a ring record and of a pair record (R444). -/
def ringDigest (s : State) (m : Nat) : List Byte :=
  let f (n idx : Nat) : List Byte := leBytes n (s.reg idx (m + 1))
  leBytes 1 m ++ f 2 Ix.henayRingId ++ f 1 Ix.henayTopology ++ f 2 Ix.henayOutPort ++ f 2 Ix.henayInPort ++
    f 1 Ix.henayDomain ++ f 10 Ix.henayBaseTime ++ f 4 Ix.henayCycleTime ++ f 4 Ix.henayOutputOffset ++
    f 4 Ix.henayInputOffset ++ f 2 Ix.henayLayoutCount ++ (s.layout m).flatten
def pairDigest (s : State) (k : Nat) : List Byte :=
  let f (n idx : Nat) : List Byte := leBytes n (s.reg idx (k + 1))
  leBytes 1 (0x80 + k / 256) ++ leBytes 1 k ++ f 2 Ix.henayPtRingId ++ f 2 Ix.henayPtPortA ++ f 2 Ix.henayPtPortB ++
    f 2 Ix.henayPtAddress ++ f 1 Ix.henayPtDomain ++ f 10 Ix.henayPtBaseTime ++ f 4 Ix.henayPtCycleTime ++
    f 4 Ix.henayPtOutputOffset ++ f 4 Ix.henayPtInputOffset

def scheduleDigest (s : State) : List Byte := sha256 (s.digestGates.flatMap s.gateDigest)
def ringsDigest (s : State) : List Byte :=
  let rings := (List.range 16).filter fun m => s.regB Ix.henayRingEnable (m + 1)
  let pairs := (List.range 256).filter fun k => s.regB Ix.henayPtEnable (k + 1)
  sha256 (rings.flatMap s.ringDigest ++ pairs.flatMap s.pairDigest)

/-- What R445 reads before and after collecting. -/
def quoteWatch (s : State) : List Nat :=
  let gates := s.digestGates
  (gates.map fun k =>
    if k < 512 then s.reg Ix.gateConfigChangeCount (k + 1) else s.reg Ix.streamGateConfigStatus (gateSub k)) ++
    ((List.range 16).filter fun m => s.regB Ix.henayRingEnable (m + 1)).map fun m => s.reg Ix.henayClaimsConfirmed (m + 1)

/-- A gate or stream-gate change is PENDING. -/
def changePending (s : State) : Bool := s.digestGates.any fun k => (s.gate k).pending.isSome

/-- The active image slot, if there is one. -/
def activeImage (s : State) : Option Nat :=
  let i := s.reg Ix.imageActiveSlot 0
  if i < 2 then some i else none
def imageSeqNow (s : State) : Nat := match s.activeImage with
  | some i => leField (s.imgSlot i) 12 4
  | none => 0
def imageDigestNow (s : State) : List Byte := match s.activeImage with
  | some i => slice (s.imgSlot i) 32 32
  | none => List.replicate 32 0#8

/-- Bytes 0 to 263 of a quote, the leaf index 0 (R442). -/
def quoteBody (s : State) (q : QuoteJob) (torn : Bool) : List Byte :=
  let flags := ofBool torn + 2 * ofBool s.changePending + 4 * s.reg Ix.fwFallback 0 +
    8 * ofBool (s.reg Ix.guaranteeState 0 == 2) + 16 * ofBool s.rg.progs.active.isDefault
  quoteMagic ++ leBytes 2 1 ++ leBytes 2 flags ++ leBytes 4 5664 ++ leBytes 4 0 ++ leBytes 16 Config.serialNumber ++ q.nonce ++
    leBytes 8 q.raw.toNat ++ leBytes 12 q.sync ++ leBytes 1 q.domain ++ leBytes 3 0 ++ leBytes 4 (fwVersion s.booted) ++
    leBytes 4 (fwSecurity s.booted) ++ leBytes 4 (s.reg Ix.programEpoch 0) ++ leBytes 4 s.imageSeqNow ++
    fwDigestOf s.booted ++ s.imageDigestNow ++ s.rg.progs.active.digest ++ s.scheduleDigest ++ s.ringsDigest

def setQuote (s : State) (q : Option QuoteJob) : State := { s with nv := { s.nv with quote := q } }

/-- A write to QUOTE_REQUEST (R439, R441). -/
def writeQuoteRequest (s : State) (v : Nat) : Wr :=
  commandWrite s v fun s =>
    let st := s.reg Ix.quoteStatus 0
    let soon := match s.nv.lastQuote with
      | some t => decide (s.since t < s.reg Ix.quoteMinInterval 0 * (second / 1000))
      | none => false
    if st = 1 ∨ st = 2 ∨ st = 4 then (s, Abort.busy)
    else if soon then (s.setReg Ix.quoteStatus 0 5, 0)
    else if s.leavesLeft = 0 then
      let s1 := s.setReg Ix.quoteStatus 0 6
      (if s1.nv.exhaustedLogged then s1
       else ({ s1 with nv := { s1.nv with exhaustedLogged := true } }).event Ix.signRemaining 1 55 [], 0)
    else
      let d := s.reg Ix.quoteDomain 0
      let q : QuoteJob :=
        { nonce := leBytes 32 (s.reg Ix.quoteNonce 0)
          domain := d
          raw := s.raw
          sync := time96 (s.syncNow d)
          watch := s.quoteWatch }
      ((s.setQuote (some q)).setReg Ix.quoteStatus 0 1, 0)

/-- The unit with the next index (R437, R440): a quote that has not committed collects, then commits, or waits while writes are
held or its bottom tree is not built; a fourth differing read-back fails it (R446). -/
def leafUnit (s : State) (ok : Bool) : State :=
  match s.nv.quote with
  | none => s
  | some q =>
    if q.leaf.isSome then s
    else
      let torn := decide (s.quoteWatch ≠ q.watch) && Config.freeNat s.draws % 2 == 1
      let q1 := if q.body = [] then { q with body := s.quoteBody q torn } else q
      let s1 := { s with draws := if q.body = [] then s.draws + 1 else s.draws }
      if s.nvHeld then (s1.setQuote (some q1)).setReg Ix.quoteStatus 0 4
      else if s.treeReady = false then (s1.setQuote (some q1)).setReg Ix.quoteStatus 0 2
      else
        let s2 := (s1.count Ix.nvBytesWritten 0 32).setReg Ix.quoteStatus 0 2
        if ok then (s2.setQuote (some { q1 with leaf := some s.nv.nextLeaf })).commitLeaf
        else if q1.retries < 3 then s2.setQuote (some { q1 with retries := q1.retries + 1 })
        else ((s2.setQuote none).setReg Ix.quoteStatus 0 7).nvFailed

/-- A quote's signature completes (R440, R442, R446). -/
def quoteSigned (s : State) : State :=
  match s.nv.quote with
  | none => s
  | some q =>
    match q.leaf with
    | none => s
    | some leaf =>
      if s.nvHeld then s
      else
        let body := patch q.body 12 (leBytes 4 leaf)
        let out := body ++ leBytes 4 hssBytes ++ (List.range hssBytes).map (Config.quoteSignature leaf body)
        let s1 := { s with nv := { s.nv with quote := none, quoteOut := out, lastQuote := some s.rawTotal } }
        (s1.setReg Ix.quoteStatus 0 3).count Ix.quoteCount 0 1

/-- The next bottom tree is due (R438): the bottom leaf of the present tree has passed 16,384, or a quote waits for the tree. -/
def treeDue (s : State) : Bool :=
  let tree := s.nv.nextLeaf / 32768
  decide (s.nv.builtTree < 32767) &&
    (decide (s.nv.builtTree < tree) || (tree == s.nv.builtTree && decide (16384 < s.nv.nextLeaf % 32768)))

/-- A retaining reset or a supervisor restart abandons a quote and the NV commands under way (R446, R479). -/
def abandonNv (s : State) : State :=
  let busy := s.reg Ix.quoteStatus 0 = 1 ∨ s.reg Ix.quoteStatus 0 = 2 ∨ s.reg Ix.quoteStatus 0 = 4
  let s1 := if busy then (s.setQuote none).setReg Ix.quoteStatus 0 0 else s
  let s2 := if s1.nv.fwJob.isSome then ({ s1 with nv := { s1.nv with fwJob := none } }).setReg Ix.fwStatus 0 0 else s1
  if s2.nv.imgJob.isSome then ({ s2 with nv := { s2.nv with imgJob := none } }).setReg Ix.imageStatus 0 0 else s2

end State

/-! ### The commands -/

/-- FW_INSTALL (R426): 1 written to FW_COMMAND. -/
def execFwInstall (s : State) : Out := (s.writeFwCommand 1).out

/-- FW_SELECT (R426): 2 written to FW_COMMAND. -/
def execFwSelect (s : State) : Out := (s.writeFwCommand 2).out

/-- FW_ERASE (R426): 3 written to FW_COMMAND. -/
def execFwErase (s : State) : Out := (s.writeFwCommand 3).out

/-- FW_COMMAND_DONE (R426): the command under way ends. -/
def execFwCommandDone (s : State) : Out := .next s.endFw

/-- The complement of a guarded byte matches (R376, R385). -/
def complementOk (v c : Nat) : Bool := v + c == 255

/-- ROOT_KEY_REVOKE (R430): a key number and its complement. -/
def execRootKeyRevoke (value complement : Nat) (s : State) : Out :=
  if complementOk value complement then (s.writeRootKeyRevoke value).out else Wr.out (s, Abort.guardFailed)

/-- FW_MIN_SECURITY_RAISE (R430): a version and its complement. -/
def execFwMinSecurityRaise (value complement : Nat) (s : State) : Out :=
  if complementOk value complement then (s.writeFwMinSecurityRaise value).out else Wr.out (s, Abort.guardFailed)

/-- OWNER_KEY_WRITE (R435). -/
def execOwnerKeyWrite (key : List Byte) (s : State) : Out := (s.writeOwnerKey key).out

/-- QUOTE_REQUEST (R441): 1 written to QUOTE_REQUEST. -/
def execQuoteRequest (s : State) : Out := (s.writeQuoteRequest 1).out

/-- QUOTE_SIGNED (R446). -/
def execQuoteSigned (s : State) : Out := .next s.quoteSigned

/-- BOTTOM_TREE_BUILD (R438, R437): the tree is ready and its top leaf committed. -/
def execBottomTreeBuild (s : State) : Out :=
  if s.treeDue = false ∨ s.nvHeld then .next s
  else .next (({ s with nv := { s.nv with builtTree := s.nv.builtTree + 1 } }).count Ix.nvBytesWritten 0 32)

end Sys2Proof.Machine
end

