-- ==== Sys2Proof/Machine/Rings.lean ====
section
/-! DEFINITION. Master rings: gather, send, return, claims, and the close of a cycle (R258 to R268, R288, R289). -/

namespace Sys2Proof.Machine
namespace State

/-- The ring cycles: it is master and the ring island runs (R30, R478). -/
def ringCycles (s : State) (m : Nat) : Bool := s.isMaster m && s.running ringIsland && !s.sy.retaining

/-- The ring may begin a cycle: no duel is lost (R281), and no cycle of an earlier timing is in flight (R251). -/
def ringGoesOn (s : State) (m : Nat) : Bool :=
  let x := s.mring m
  s.ringCycles m && !x.leaving && x.cycles.all fun c => c.era == x.era

/-- The cycle whose gather is due by now: T_k − lead has come, from the first cycle on (R261). -/
def gatherCycle (s : State) (m : Nat) : Option Nat :=
  let t := s.ringTiming m
  let k := t.cycleAt (s.syncNow t.dom + (s.reg Ix.henayGatherLead (m + 1) : Int) * 65536)
  let x := s.mring m
  if k < x.first ∨ x.lastGather = some k.toNat then none else some k.toNat

/-- The cycle whose send instant has come. -/
def sendCycle (s : State) (m : Nat) : Option Nat :=
  let t := s.ringTiming m
  let k := t.cycleAt (s.syncNow t.dom)
  let x := s.mring m
  if k < x.first ∨ x.lastSent = some k.toNat then none else some k.toNat

/-- The data-invalid state of a cycle whose gather begins now (R288, R289): it stands from a loss of quorum, be it regained
since, until a cycle gathered after LOCKED, and becomes 2 when the holdover limit passes. -/
def invalidNow (s : State) (m : Nat) : Nat :=
  let d := (s.ringTiming m).dom
  let old := s.reg Ix.henayDataInvalid (m + 1)
  if s.domState d = 4 then (if bit (s.reg Ix.timeFlags (d + 1)) 0 ∨ old = 2 then 2 else 1)
  else if s.domState d = 2 ∨ (old = 0 ∧ (s.mring m).lost = false) then 0 else max old 1

/-- The safe image, where its length is that of the send image (R289). -/
def safeImage (s : State) (m : Nat) : Option (List Byte) :=
  let x := s.mring m
  let n := s.tableLen Ix.henaySafeImage (m + 1)
  if n = sendSize x.keptInForce x.inForce then
    some ((List.range n).map fun r => BitVec.ofNat 8 (s.record Ix.henaySafeImage (m + 1) r))
  else none

/-- The gather of cycle `k` begins, and the layout is in force from this cycle on (R258, R261, R289). -/
def beginGather (s : State) (m k : Nat) : State :=
  let inv := s.invalidNow m
  let s0 := s.setReg Ix.henayDataInvalid (m + 1) inv
  let x0 := s0.mring m
  let x := { x0 with lastGather := some k, lost := false, inForce := s.layout m, genInForce := x0.gen, keptInForce := x0.kept }
  let s1 := s0.setMring m x
  if inv = 2 then
    match s1.safeImage m with
    | some bs => s1.setMring m { x with gathered := some (k, some bs) }
    | none => (s1.setMring m { x with gathered := none }).event Ix.henayDataInvalid 1 ringIsland []
  else
    let ready := s1.loadNat (s1.reg Ix.henayReadyAddr (m + 1)) 4
    if s1.reg Ix.henayReadyMode (m + 1) = 1 ∨ ready = k % 4294967296 then s1.setMring m { x with gathered := some (k, none) }
    else s1.setMring m { x with gathered := none }

/-- The image gathered for cycle `k`, if it is complete. -/
def imageFor (s : State) (m k : Nat) : Option (List Byte) :=
  match (s.mring m).gathered with
  | some (j, some bs) => if j = k then some bs else none
  | _ => none

/-- A frame of the layout exceeds PORT_MAX_FRAME of a port it is sent from (R42, R261). -/
def tooBig (s : State) (ps : List Nat) (l : List (List Byte)) : Bool :=
  let tagged := bit (s.reg Ix.henayVlan 0) 15
  (List.range (frameCount l)).any fun f => ps.any fun p => decide (s.reg Ix.portMaxFrame (p + 1) < frameBytesOf l tagged f)

/-- A cycle that BROKEN begins with, if the ring is to break from it on (R267). -/
def breakRing (s : State) (m : Nat) : State :=
  let x := s.mring m
  if x.breakNext = false then s
  else
    let s1 := (s.setMring m { x with broken := true, breakNext := false, healRun := if x.broken then x.healRun else 0 }).showRing m
    if x.broken then s1 else s1.event Ix.henayHealCycles 1 ringIsland []

/-- A layout that implies a frame above PORT_MAX_FRAME is logged, once until none does (R42). -/
def noteBig (s : State) (m : Nat) (big : Bool) : State :=
  let x := s.mring m
  let s1 := s.setMring m { x with bigLogged := big }
  if big && !x.bigLogged then s1.event Ix.henayLayoutStatus 1 ringIsland [(1, m), (1, 9)] else s1

/-- The frames of cycle `k` are sent (R253, R261, R265, R267): out of the out port with transmit timestamp `ts`, and, while
the ring is BROKEN, their twins out of the in port with `tsIn`. -/
def sendRingCycle (s : State) (m k : Nat) (ts tsIn : Raw) : State :=
  let x := s.mring m
  let b := s.breakRing m
  let broken := (b.mring m).broken
  let l := x.inForce
  let out := s.reg Ix.henayOutPort (m + 1)
  let inn := s.reg Ix.henayInPort (m + 1)
  let ports := if broken then [out, inn] else [out]
  let image := s.imageFor m k
  let big := image.isSome && b.tooBig ports l
  let s0 := if image.isSome then b.noteBig m (big || (x.bad && x.bigLogged)) else b
  let null := x.bad || image.isNone || big
  let n := if null then 1 else frameCount l
  let refNow := k % 4294967296 % s0.reg Ix.henayRefDivider (m + 1) == 0
  let inv := s0.reg Ix.henayDataInvalid (m + 1) != 0
  let frame (p f : Nat) (twin : Bool) : List Byte :=
    let ref := refNow && f == 0
    let claim := !null && x.present.any fun j => (frameSlots l f).any fun e => e.1 == j
    let flags := ofBool null + 2 * ofBool ref + 4 * ofBool claim + 8 * ofBool twin + 16 * ofBool inv
    let stamp := if ref then some (s0.syncAt (s0.ringTiming m).dom (if twin then tsIn else ts)) else none
    if null then s0.nullFrame m p k flags stamp else s0.cycleFrame m p k f x.keptInForce l (image.getD []) flags stamp
  let send (t : State) (p : Nat) (twin : Bool) : State :=
    if t.portUp p then
      (List.range n).foldl (fun u f => u.sendCycleFrame m p (frame p f twin) (if twin then tsIn else ts)) t
    else t
  let s1 := send s0 out false
  let s2 := if broken then send s1 inn true else s1
  let left := if s0.portUp out then List.range n else []
  let cyc : RingCycle :=
    { k := k, timing := s0.ringTiming m, era := x.era, layout := if null then [] else l, gen := x.genInForce,
      kept := x.keptInForce, frames := n, null := null, twin := broken, invalid := inv,
      sent := (List.range n).map fun f => frame out f false, left := left, ts0 := ts, back := [],
      slots := if null then [] else l.map fun _ => {} }
  let x2 := s2.mring m
  let s3 := s2.setMring m { x2 with cycles := x2.cycles ++ [cyc], lastSent := some k, gathered := none,
                                    present := if null then x2.present else [] }
  let s4 := ((s3.count Ix.henayCyclesSent (m + 1) 1).setReg Ix.henayCycleCounter (m + 1) (k % 4294967296)).setReg
    Ix.henayMasterNode (m + 1) (s3.nodeId m)
  if null then s4.count Ix.henayNullSent (m + 1) 1 else s4

/-! ### Claims (R265) -/

/-- The cause a returned claim is refused for, or none: `v` is what came back in its slot, copies merged. -/
def claimFault (s : State) (m : Nat) (c : RingCycle) (r : List Byte) (v : SlotRet) : Option Nat :=
  let addr := beField v.data 0 2
  let cmd := beField v.data 2 1
  let len := beField v.data 4 2
  if addr < 1 ∨ 0x400 < addr then some 1
  else if c.layout.any fun q => slotAddr q == addr then some 2
  else if cmd < 1 ∨ 3 < cmd ∨ slotLen r < len then some 3
  else if c.gen ≠ (s.mring m).gen then some 4
  else if v.receipt ≠ addr then some 5
  else none

/-- A returned claim on slot `j` is judged (R265); a confirmed one is in the layout from the next cycle on. -/
def judgeClaim (s : State) (m : Nat) (c : RingCycle) (j : Nat) (r : List Byte) (v : SlotRet) : State × Bool :=
  match s.claimFault m c r v with
  | some cause => ((s.count Ix.henayClaimsRefused (m + 1) 1).event Ix.henayClaimsRefused 1 ringIsland [(1, cause)], false)
  | none =>
    let addr := beField v.data 0 2
    let new := leBytes 2 addr ++ slice r 2 4 ++ leBytes 1 (beField v.data 2 1) ++ slice r 7 1 ++ leBytes 2 addr ++ slice r 10 6
    let s1 := s.setRecord Ix.henayLayout (m + 1) j (leNat new)
    let x := s1.mring m
    let live := x.genInForce == x.gen
    let s2 := s1.setMring m { x with
      present := x.present ++ [j], kept := x.kept ++ [j]
      inForce := if live then x.inForce.set j new else x.inForce
      keptInForce := if live then x.keptInForce ++ [j] else x.keptInForce }
    ((s2.count Ix.henayClaimsConfirmed (m + 1) 1).event Ix.henayClaimsConfirmed 1 ringIsland
      [(2, j), (2, addr), (2, beField v.data 6 2)], true)

/-! ### A frame comes back (R263, R267) -/

/-- A returned datagram is taken into its slot; a second copy is merged (R267). Of two copies that both carry a claim the one
of the out port stands (DESIGN CHOICE, notes/assumptions/52.md); its receipt, merged, then confirms neither. -/
def mergeSlot (old : SlotRet) (g : Datagram) (data : List Byte) (twin : Bool) : SlotRet :=
  let claim := g.cmd == cmdClaim
  if old.got = false then { receipt := g.receipt, notReady := g.notReady, claim := claim, data := data, got := true }
  else
    let takeNew := if claim && old.claim then !twin else if claim then true else if old.claim then false
      else if old.receipt ≠ 0 then false else if g.receipt ≠ 0 then true else !twin
    { receipt := (old.receipt + g.receipt) % 65536, notReady := old.notReady || g.notReady, claim := old.claim || claim,
      data := if takeNew then data else old.data, got := true }

/-- The datagrams of frame `f` of cycle `c` are committed (R263, R267). -/
def commitFrame (c : RingCycle) (f : Nat) (gs : List Datagram) (w : List Byte) (twin : Bool) : RingCycle :=
  ((frameSlots c.layout f).zip gs).foldl (fun a e =>
    { a with slots := a.slots.set e.1.1 (mergeSlot (a.slots.getD e.1.1 {}) e.2 (e.2.data w) twin) }) c

/-- The claims in frame `f` of cycle `c` are judged, once, by what its copies together brought back (R265, R267). -/
def judgeFrame (s : State) (m : Nat) (c : RingCycle) (f : Nat) : State × RingCycle :=
  if c.judged.contains f then (s, c)
  else
    (frameSlots c.layout f).foldl (fun (a : State × RingCycle) e =>
      let v := a.2.slots.getD e.1 {}
      if v.claim ∧ slotCmd e.2 = cmdSpare then
        let r := a.1.judgeClaim m c e.1 e.2 v
        (r.1, { a.2 with claimed := a.2.claimed || r.2 })
      else a) (s, { c with judged := c.judged ++ [f] })

/-- Replaces cycle `c.k` in the list. -/
def setCycle (s : State) (m : Nat) (c : RingCycle) : State :=
  let x := s.mring m
  s.setMring m { x with cycles := x.cycles.map fun d => if d.k = c.k ∧ d.era = c.era then c else d }

/-- The latch margin over the last 1,000 cycles (R269). -/
def noteTrip (s : State) (m : Nat) (output trip : Int) : State :=
  let x := s.mring m
  let ms := ((output - trip) :: x.margins).take 1000
  ((s.setMring m { x with margins := ms }).setReg Ix.henayRoundTrip (m + 1) (min 0xFFFFFFFF trip.toNat)).setRegI
    Ix.henayLatchMargin (m + 1) 4 (clampInt (-2147483648) 2147483647 (ms.foldl min 2147483647))

/-- Frame `f` of cycle `c` is all back, its twin included. -/
def RingCycle.frameWhole (c : RingCycle) (f : Nat) : Bool := c.back.contains (f, false) && (!c.twin || c.back.contains (f, true))

/-- Frame `f` has been committed in some copy. -/
def RingCycle.frameBack (c : RingCycle) (f : Nat) : Bool := c.back.any fun e => e.1 == f

/-- The send instant of the cycle after `c`, in ru of sync time, under the timing `c` was sent by (R251, R263). -/
def RingCycle.deadline (c : RingCycle) : Int := c.timing.start (c.k + 1)

/-- A frame of cycle `c` that passes every check is committed (R263, R267). -/
def acceptReturn (s : State) (m : Nat) (c : RingCycle) (onOut : Bool) (w : List Byte) (rx : Raw) (h : CycleHead) : State :=
  let twin := bit h.flags 3
  let c0 := if c.null then c else commitFrame c h.index (h.datagrams w) w twin
  let trip := (rx - c.ts0).toInt / 65536
  let ofFrame0 := h.index == 0 && !twin
  let c1 := { c0 with
    back := c0.back ++ [(h.index, twin)], lastRx := some rx,
    trip := if ofFrame0 then some trip.toNat else c0.trip,
    healed := if onOut = false ∧ twin = false then c0.healed ++ [h.index] else c0.healed }
  let r := if RingCycle.frameWhole c1 h.index then s.judgeFrame m c1 h.index else (s, c1)
  let s1 := r.1.setCycle m r.2
  let s2 := if ofFrame0 then s1.noteTrip m c.timing.output trip else s1
  if (s2.mring m).mode = 1 then s2.setMode m 2 else s2

/-- A frame of the ring's own comes back (R263); `ok`: it passes the checks of R36. -/
def ringReturn (s : State) (m : Nat) (onOut : Bool) (w : List Byte) (ok : Bool) (rx : Raw) (h : CycleHead) : State :=
  let x := s.mring m
  let twin := bit h.flags 3
  let closed := s.reg Ix.henayTopology (m + 1) == 0
  let discard (u : State) : State := u.count Ix.henayRxDiscarded (m + 1) 1
  match x.cycles.find? fun c => c.k % 4294967296 == h.counter with
  | none =>
    let last := x.lastSent.getD 0 % 4294967296
    let behind := (last + 4294967296 - h.counter) % 4294967296
    if ok ∧ x.lastSent.isSome ∧ behind < 2147483648 then s.count Ix.henayRxLate (m + 1) 1 else discard s
  | some c =>
    let spoil (u : State) : State := u.setCycle m { c with spoiled := true }
    if ok = false ∨ h.version ≠ 1 ∨ c.frames ≤ h.index then spoil (discard s)
    else if RingCycle.deadline c ≤ s.syncNow c.timing.dom then spoil (s.count Ix.henayRxLate (m + 1) 1)
    else if closed ∧ x.broken = false ∧ onOut then
      let s1 := spoil (discard s)
      s1.setMring m { s1.mring m with breakNext := true }
    else if (closed = false ∧ onOut = false) ∨ c.back.contains (h.index, twin) then spoil (discard s)
    else if x.cycles.any fun d => d.k + 2 == c.k then spoil (s.count Ix.henayRxOverrun (m + 1) 1)
    else s.acceptReturn m c onOut w rx h

/-! ### The close of a cycle (R268) -/

/-- All frames of a cycle are back, twins included. -/
def RingCycle.allBack (c : RingCycle) : Bool := (List.range c.frames).all (RingCycle.frameWhole c)

/-- The receive image: data of the slots in slot order, zeros where nothing returned. -/
def receiveImage (c : RingCycle) : List Byte :=
  ((imageRooms inReceive c.kept c.layout).zip c.slots).flatMap fun e => if e.2.got then slice e.2.data 0 e.1 else List.replicate e.1 0#8

/-- A slot's receipt differs from what was expected; spare and claimed slots are not compared. -/
def receiptDiffers (r : List Byte) (v : SlotRet) : Bool := slotCmd r != cmdSpare && !v.claim && v.receipt != slotExpect r

/-- Entry of the status array. -/
def statusEntry (c : RingCycle) (r : List Byte) (v : SlotRet) : List Byte :=
  leBytes 2 v.receipt ++
    leBytes 1 (ofBool v.notReady + 2 * ofBool (receiptDiffers r v) + 4 * ofBool v.claim + 8 * ofBool (!RingCycle.frameBack c (slotFrame r))) ++ [0#8]

/-- Datagrams whose receipt differs. -/
def RingCycle.differing (c : RingCycle) : Nat := ((c.layout.zip c.slots).filter fun e => receiptDiffers e.1 e.2).length

/-- The image-ready record. -/
def readyRecord (c : RingCycle) (broken : Bool) (number : Nat) : List Byte :=
  let back := ((List.range c.frames).filter (RingCycle.frameBack c)).length
  let flags := ofBool (!c.null && decide (0 < back)) + 2 * ofBool c.null + 4 * ofBool (decide (back < c.frames) || c.spoiled) +
    8 * ofBool (decide (0 < RingCycle.differing c)) + 16 * ofBool broken + 32 * ofBool c.claimed + 64 * ofBool c.invalid
  leBytes 4 c.k ++ leBytes 1 flags ++ leBytes 1 (if c.null then 0 else back) ++ leBytes 2 (RingCycle.differing c) ++
    leBytes 8 c.ts0.toNat ++ leBytes 8 ((c.lastRx.getD 0).toNat) ++ leBytes 4 (min 0xFFFFFFFF (c.trip.getD 0xFFFFFFFF)) ++ leBytes 4 number

/-- Cycles in a row in which the out port's frames returned on the in port end the broken state (R267). -/
def judgeHeal (s : State) (m : Nat) (c : RingCycle) : State :=
  let x := s.mring m
  if x.broken = false ∨ c.twin = false then s
  else
    let good := (List.range c.frames).all fun f => c.healed.contains f
    let run := if good then x.healRun + 1 else 0
    if s.reg Ix.henayHealCycles (m + 1) ≤ run then
      ((s.setMring m { x with broken := false, healRun := 0 }).showRing m).event Ix.henayHealCycles 1 ringIsland []
    else s.setMring m { x with healRun := run }

/-- The claims of frames of which one copy alone came back are judged as their cycle closes (R265, R267). -/
def judgeRest (s : State) (m : Nat) (c : RingCycle) : State × RingCycle :=
  ((List.range c.frames).filter (RingCycle.frameBack c)).foldl (fun a f => a.1.judgeFrame m a.2 f) (s, c)

/-- The cycle closes: scatter, status array, image-ready record, vector (R268); a ring that has lost a duel stands by once none
is in flight (R281). -/
def closeCycle (s : State) (m : Nat) (c0 : RingCycle) : State :=
  let j := s.judgeRest m c0
  let c := j.2
  let x := j.1.mring m
  let number := if x.recordNo = 0xFFFFFFFF then 1 else x.recordNo + 1
  let s0 := j.1.setMring m { x with cycles := x.cycles.filter fun d => d.k != c.k || d.era != c.era, recordNo := number }
  let s1 := if c.null then s0
    else s0.scatterTo (0xC000 + m) (s0.reg Ix.henayScatterBase (m + 1)) (s0.reg Ix.henayScatterSize (m + 1)) Ix.henayScatterList (m + 1) (receiveImage c)
  let missing := ((List.range c.frames).filter fun f => !RingCycle.frameBack c f).length
  let s2 := (s1.count Ix.henayRxMissing (m + 1) missing).count Ix.henayReceiptMismatch (m + 1) (RingCycle.differing c)
  let stride := (32 + 4 * s2.reg Ix.henayLayoutCount (m + 1) + 63) / 64 * 64
  let at_ := s2.reg Ix.henayStatusBase (m + 1) + c.k % s2.reg Ix.henayStatusSlots (m + 1) * stride
  let status := (c.layout.zip c.slots).flatMap fun e => statusEntry c e.1 e.2
  let s3 := (s2.storeFor (0xC000 + m) (at_ + 32) status).storeFor (0xC000 + m) at_ (readyRecord c x.broken number)
  let s4 := (s3.request (s3.reg Ix.henayMsixVector (m + 1)) s3.rawTotal).judgeHeal m c
  if (s4.mring m).leaving ∧ (s4.mring m).cycles = [] then s4.standBy m else s4

end State

/-- RING_GATHER_START (R261, R289): at T_k − lead the ready word is read and the gather begins. -/
def execRingGatherStart (m : Nat) (s : State) : Out :=
  if 16 ≤ m then .next s
  else if s.ringGoesOn m = false then .next s
  else
    match s.gatherCycle m with
    | some k => .next (s.beginGather m k)
    | none => .next s

/-- RING_GATHER_DONE (R261): the gather of the cycle completes, or a bus error remains after the retries. -/
def execRingGatherDone (m : Nat) (error : Bool) (s : State) : Out :=
  if 16 ≤ m then .next s
  else
    let x := s.mring m
    match x.gathered with
    | some (k, none) =>
      let ok := s.gatherOk (s.reg Ix.henayGatherBase (m + 1)) (s.reg Ix.henayGatherSize (m + 1)) Ix.henayGatherList (m + 1)
      if error || !ok then
        .next ((s.noteGather (0xC000 + m) (s.reg Ix.henayGatherBase (m + 1)) (s.reg Ix.henayGatherSize (m + 1)) Ix.henayGatherList
          (m + 1)).setMring m { x with gathered := none })
      else
        let bs := s.gatherFrom (s.reg Ix.henayGatherBase (m + 1)) (s.reg Ix.henayGatherSize (m + 1)) Ix.henayGatherList (m + 1)
        .next (s.setMring m { x with gathered := some (k, some bs) })
    | _ => .next s

/-- RING_CYCLE_SEND (R261): at T_k the cycle's frames leave; `first` is frame 0 at the out port, `twin` its twin at the in
port. -/
def execRingCycleSend (m : Nat) (first twin : OnWire) (s : State) : Out :=
  if 16 ≤ m then .next s
  else if s.ringGoesOn m = false then .next s
  else
    match s.sendCycle m with
    | some k =>
      .next (s.sendRingCycle m k (s.txTimestamp (s.reg Ix.henayOutPort (m + 1)) first.instant first.pipe)
        (s.txTimestamp (s.reg Ix.henayInPort (m + 1)) twin.instant twin.pipe))
    | none => .next s

/-- RING_FRAME_RETURN (R263): a cycle frame with this node's ID comes back; a ring that stands by receives without serving. A
frame of the ring that fails a check of R36 is counted by its port (R40, R43). -/
def execRingFrameReturn (m : Nat) (onOut : Bool) (frame : List Byte) (stop : RxEnd) (capture : Raw) (pipe : Int) (s : State) : Out :=
  if 16 ≤ m then .next s
  else
    let p := if onOut then s.reg Ix.henayOutPort (m + 1) else s.reg Ix.henayInPort (m + 1)
    match cycleHead (s.reg Ix.henayEthertype 0) frame with
    | none => .next s
    | some h =>
      let watches := (s.mring m).mode == 5 || (s.mring m).mode == 6
      let mine := s.isMaster m && h.node == s.nodeId m && !isStartClaim h frame
      if h.ring ≠ s.reg Ix.henayRingId (m + 1) ∨ s.running State.ringIsland = false ∨ s.sy.retaining ∨ (watches || mine) = false then
        .next s
      else
        let c := s.checkCycle p frame stop
        let ok := c.2 == State.CycleCheck.passes
        if watches then .next (if ok then c.1.sawFrame m h frame else c.1)
        else .next (c.1.ringReturn m onOut frame ok (s.rxTimestamp p capture pipe) h)

/-- RING_CYCLE_CLOSE (R268): the last frame of the oldest open cycle is back, or the next send instant has come. -/
def execRingCycleClose (m : Nat) (s : State) : Out :=
  if 16 ≤ m then .next s
  else
    match (s.mring m).cycles with
    | [] => .next s
    | c :: _ =>
      if State.RingCycle.allBack c ∨ State.RingCycle.deadline c ≤ s.syncNow c.timing.dom then .next (s.closeCycle m c) else .next s

end Sys2Proof.Machine
end

