-- ==== Sys2Proof/Machine/Pairs.lean ====
section
/-! DEFINITION. Pass-through pairs: serving a cycle frame, claims, samples for the servo, input gather and output latch
(R245 to R256, R262, R264, R266). -/

namespace Sys2Proof.Machine

/-- A frame being served: its bytes, the pair's claim state, and what the pair has done so far. -/
structure Service where
  w : List Byte
  served : Nat := 0
  notReady : Nat := 0
  rangeErrors : Nat := 0
  lateOutputs : Nat := 0
  writes : List (Nat × List Byte) := []
  /-- A claim written: slot, with the claim state and slot to show. -/
  claimed : Option Nat := none
  owned : Option Nat := none
  deriving DecidableEq, Repr

/-- What decides how a datagram is served: address, weight, areas, whether the latch instant has passed, whether the pair is
master-capable, and its claim: enabled and seeking, wanted length and command, nonce. -/
structure Serving where
  addr : Nat
  input : Option (List Byte)
  inSize : Nat
  outSize : Nat
  late : Bool
  capable : Bool
  seeking : Bool
  wantLen : Nat
  wantCmd : Nat
  nonce : Nat
  deriving DecidableEq, Repr

/-- A node's receipt weight (R247). -/
def Serving.weight (c : Serving) : Nat := if c.addr = 0 then 0x0401 else c.addr

/-- A datagram the node cannot do its part on: not-ready (R246). -/
def Service.fail (v : Service) (g : Datagram) : Service :=
  { v with w := patch v.w (g.at_ + 6) [BitVec.ofNat 8 (setBit (beField v.w (g.at_ + 6) 1) 4)], notReady := v.notReady + 1 }

/-- A datagram the node does its full part on: the weight is added to the receipt (R247). -/
def Service.done (v : Service) (c : Serving) (g : Datagram) : Service :=
  { v with w := patch v.w (g.at_ + 8) (beBytes 2 ((g.receipt + c.weight) % 65536)), served := v.served + 1 }

/-- One datagram on first passage (R244, R246, R264, R266): a claimant that has met its own address claims nothing, and a late
write is counted whether or not it lies in the area (R256). -/
def serveDatagram (c : Serving) (v : Service) (g : Datagram) : Service :=
  let reads := g.cmd == cmdRead || g.cmd == cmdReadWrite
  let writes := g.cmd == cmdWrite || g.cmd == cmdReadWrite
  let mine := (g.addr != 0 && g.addr == c.addr) || (g.addr == 0xFFFF && g.cmd == cmdWrite)
  if g.addr = 0xFFFE ∧ g.cmd = cmdWrite then (if c.capable then v.done c g else v)
  else if g.cmd = cmdSpare then
    if c.seeking ∧ v.claimed = none ∧ v.owned = none ∧ g.addr = 0 ∧ c.wantLen ≤ g.len then
      let word := beBytes 2 c.addr ++ leBytes 1 c.wantCmd ++ [0#8] ++ beBytes 2 c.wantLen ++ beBytes 2 c.nonce
      { v with
        w := patch (patch (patch v.w (g.at_ + 6) [BitVec.ofNat 8 (beField v.w (g.at_ + 6) 1 / 16 * 16 + cmdClaim)]) (g.at_ + 8) (beBytes 2 c.addr)) (g.at_ + 12) word
        claimed := some g.slot }
    else v
  else if mine && (reads || writes) then
    let range := (reads && decide (c.inSize < g.offset + g.len)) || (writes && decide (c.outSize < g.offset + g.len))
    let v1 := if g.addr = c.addr ∧ g.addr ≠ 0xFFFF then { v with owned := some g.slot } else v
    if range then
      { v1.fail g with rangeErrors := v1.rangeErrors + 1, lateOutputs := v1.lateOutputs + ofBool (writes && c.late) }
    else if c.late then
      { v1.fail g with lateOutputs := v1.lateOutputs + ofBool writes }
    else if reads && c.input.isNone then v1.fail g
    else
      let data := slice v1.w (g.at_ + 12) g.len
      let v2 := if writes then { v1 with writes := v1.writes ++ [(g.offset, data)] } else v1
      let v3 := if reads then { v2 with w := patch v2.w (g.at_ + 12) (slice (c.input.getD []) g.offset g.len) } else v2
      v3.done c g
  else v

namespace State

/-- Sizes of a pair's areas, up to 65,536 bytes (R260). -/
def ptInSize (s : State) (k : Nat) : Nat :=
  min 65536 (s.tableLen Ix.henayPtGatherList (k + 1) * s.reg Ix.henayPtGatherSize (k + 1))
def ptOutSize (s : State) (k : Nat) : Nat :=
  min 65536 (s.tableLen Ix.henayPtScatterList (k + 1) * s.reg Ix.henayPtScatterSize (k + 1))

/-- The peer delay mechanism runs on port `p` in some domain (R254). -/
def pdelayRuns (s : State) (p : Nat) : Bool :=
  (List.range 4).any fun d => s.ptpEnabled p d && s.reg Ix.timeProfile (d + 1) != 1

/-- Delay in ru of the link into a port of pair `k` (R254); one that is to be measured and is not counts 0, logged once. -/
def linkDelay (s : State) (k : Nat) (fromA : Bool) (p : Nat) : State × Int :=
  let v := if fromA then s.regI Ix.henayPtLinkDelayA (k + 1) 4 else s.regI Ix.henayPtLinkDelayB (k + 1) 4
  if v ≠ -2147483648 then (s, psToRu v)
  else if s.pdelayRuns p then (s, s.regI Ix.ptpMeanLinkDelay (p + 1) 8)
  else
    let x := s.ptPair k
    if x.delayLogged then (s, 0)
    else ((s.setPtPair k { x with delayLogged := true }).event Ix.henayPtLinkDelayA 1 ringIsland [], 0)

/-- The pair is some enabled ring's watch pair: the node is master-capable (R272, R274). -/
def masterCapable (s : State) (k : Nat) : Bool :=
  (List.range 16).any fun m => s.regB Ix.henayRingEnable (m + 1) && s.watchPair m == some k

/-- Claim states (R264, R266). -/
def claimState (s : State) (k : Nat) : Nat := s.reg Ix.henayPtClaimState (k + 1)

/-- How pair `k` serves a frame of cycle `cyc`. -/
def serving (s : State) (k cyc : Nat) (late : Bool) : Serving :=
  let c := s.reg Ix.henayPtClaim (k + 1)
  { addr := s.reg Ix.henayPtAddress (k + 1)
    input := ((s.ptPair k).inputs.find? fun e => e.1 == cyc).bind Prod.snd
    inSize := s.ptInSize k, outSize := s.ptOutSize k, late := late, capable := s.masterCapable k,
    seeking := bit c 31 && s.claimState k == 1, wantLen := bits c 12 0, wantCmd := bits c 19 16,
    nonce := Config.freeNat s.draws % 65536 }

/-- Bytes stored in the output area. -/
def storeOutput (x : PtPair) (off : Nat) (bs : List Byte) : PtPair :=
  { x with output := ((List.range bs.length).zip bs).foldl (fun t e => tput 0#8 t (off + e.1) e.2) x.output }

/-- The pair's record of cycle `cyc`, begun afresh where it is a new one; a late output shows in the next record. -/
def ptCycle (x : PtPair) (cyc : Nat) : PtCycle := if x.cur.k = cyc ∧ x.cur ≠ {} then x.cur else { k := cyc, late := x.cur.late }

/-- A claim that was not confirmed is given up: the frame that holds the slot it wrote has come in a later cycle with
claim-present clear and without the node's address (R266). -/
def claimLost (s : State) (k cyc : Nat) (h : CycleHead) (gs : List Datagram) : Bool :=
  match (s.ptPair k).claim with
  | some (slot, c) =>
    s.claimState k == 2 && c != cyc && (gs.any fun g => g.slot == slot) && !bit h.flags 2 &&
      !gs.any fun g => g.addr == s.reg Ix.henayPtAddress (k + 1)
  | none => false

/-- Servo samples a frame offers (R255, R257). -/
def offerSample (s : State) (k : Nat) (h : CycleHead) (rx : Raw) (delay : Int) (invalid : Bool) : State :=
  if bit h.flags 1 = false ∨ h.counter % s.reg Ix.henayPtSampleDivider (k + 1) ≠ 0 then s
  else
    (List.range 4).foldl (fun t d =>
      if t.reg Ix.servoSource (d + 1) = 2 ∧ t.reg Ix.henaySource (t.reg Ix.servoSourceSel (d + 1) + 1) = 0x8000 + k then
        let dd := h.accum + delay
        let ref : Int := ((h.seconds * 1000000000 + h.nanos) * 65536 : Nat)
        if invalid then t.rejectSample d
        else t.setDom d { t.dom d with offered := (t.dom d).offered ++ [(t.syncAt d rx - (ref + dd), dd)] }
      else t) s

/-- What serving a good frame leaves in the pair (R246, R264, R266). -/
def noteService (s : State) (k cyc : Nat) (h : CycleHead) (v : Service) (lost : Bool) : State :=
  let x := s.ptPair k
  let c := ptCycle x cyc
  let null := bit h.flags 0
  let c1 := { c with served := min 255 (c.served + v.served), notReady := min 255 (c.notReady + v.notReady),
                     stored := c.stored || !null, nullSeen := c.nullSeen || null, frameSeen := true,
                     invalid := c.invalid || bit h.flags 4, late := c.late || decide (0 < v.lateOutputs) }
  let x1 := v.writes.foldl (fun y e => storeOutput y e.1 e.2) { x with cur := c1, served := true }
  let x2 := match v.claimed with
    | some j => { x1 with claim := some (j, cyc) }
    | none => if lost then { x1 with claim := none } else x1
  let s1 := (((s.setPtPair k x2).count Ix.henayPtServed (k + 1) v.served).count Ix.henayPtNotReady (k + 1) v.notReady)
  let s2 := (s1.count Ix.henayPtRangeErrors (k + 1) v.rangeErrors).count Ix.henayPtLateOutputs (k + 1) v.lateOutputs
  let s3 := if null then s2.count Ix.henayPtNullSeen (k + 1) 1 else s2
  if bit (s.reg Ix.henayPtClaim (k + 1)) 31 = false then s3
  else
    match v.owned, v.claimed with
    | some j, _ =>
      if s3.claimState k = 3 then s3
      else (s3.setReg Ix.henayPtClaimState (k + 1) 3).setReg Ix.henayPtClaimSlot (k + 1) j
    | none, some _ => s3.setReg Ix.henayPtClaimState (k + 1) 2
    | none, none => if lost then s3.setReg Ix.henayPtClaimState (k + 1) 1 else s3

/-- A frame is forwarded out of port `q`; one that failed a check is stomped (R43, R248). -/
def forward (s : State) (q : Nat) (frame : List Byte) (ok : Bool) (ts : Raw) : State :=
  let s1 := match s.txCopy? (512 + q) with
    | some t => if s.preemptActive q ∧ t.preempted = false then s.preempt q t else s
    | none => s
  s1.emitAs q frame ts (!ok)

/-- A frame passes pair `k` from port `inp` to port `out` (R245 to R255). A start claim is forwarded unserved (R275). -/
def passFrame (s : State) (k : Nat) (fromA : Bool) (inp out : Nat) (w : List Byte) (ok : Bool) (rx tx : Raw) (h : CycleHead) : State :=
  let t := s.pairTiming k
  let x := s.ptPair k
  let plain (u : State) : State := u.forward out w ok tx
  if h.version ≠ 1 then plain (s.count Ix.henayPtOutOfStep (k + 1) 1)
  else
    match t.cycleOf h.counter (s.syncAt t.dom rx) with
    | none => plain (s.count Ix.henayPtOutOfStep (k + 1) 1)
    | some cyc =>
      if isStartClaim h w ∨ x.seen.contains (cyc, h.index) then plain s
      else
        let gs := h.datagrams w
        let late := decide (t.start cyc + t.output * 65536 ≤ s.syncAt t.dom rx)
        let lost := s.claimLost k cyc h gs
        let v := gs.foldl (serveDatagram (s.serving k cyc late)) { w := w }
        let ld := s.linkDelay k fromA inp
        let res := (tx - rx).toInt
        let w1 := patch v.w (h.at_ + 24) (beBytes 8 (ofSigned 64 (h.accum + ld.2 + res)))
        let s1 := ld.1.setPtPair k { ld.1.ptPair k with seen := x.seen ++ [(cyc, h.index)] }
        let s2 := (s1.count Ix.henayPtFrames (k + 1) 1).setReg Ix.henayPtResidence (k + 1)
          (ofSigned 32 (Frac.mk' (res * 1000) 65536).whole)
        let s3 := if ok then (s2.noteService k cyc h v lost).offerSample k h rx ld.2 (s.tsInvalid inp) else s2
        { s3 with draws := s3.draws + ofBool v.claimed.isSome }.forward out w1 ok tx

/-- The pair's cycle whose instant, `off` ns after its start, has come. -/
def pairCycle (s : State) (k : Nat) (off : Int) : Int :=
  let t := s.pairTiming k
  t.cycleAt (s.syncNow t.dom - off * 65536)

/-- The status record of R262. -/
def ptStatus (x : PtPair) (cyc : Nat) (latched : Bool) (instant : Raw) : List Byte :=
  let c := if x.cur.k = cyc then x.cur else { k := cyc, late := x.cur.late }
  leBytes 4 cyc ++
    leBytes 1 (ofBool latched + 2 * ofBool c.nullSeen + 4 * ofBool (!c.frameSeen) + 8 * ofBool c.invalid + 16 * ofBool c.late) ++
    leBytes 1 c.served ++ leBytes 1 c.notReady ++ [0#8] ++ leBytes 8 instant.toNat

/-- The output-latch instant of cycle `cyc` (R256, R262). -/
def latchOutputs (s : State) (k cyc : Nat) : State :=
  let x := s.ptPair k
  let fresh := x.cur.k == cyc && x.cur.stored
  let area := (List.range (s.ptOutSize k)).map fun i => tgetD x.output i 0#8
  let s1 := if fresh then
      s.scatterTo (0xD000 + k) (s.reg Ix.henayPtScatterBase (k + 1)) (s.reg Ix.henayPtScatterSize (k + 1)) Ix.henayPtScatterList (k + 1) area
    else s
  let addr := s.reg Ix.henayPtStatusAddr (k + 1)
  let t := s.pairTiming k
  let instant := s.raw + BitVec.ofInt 64 (s.rawDelta t.dom (t.start cyc + t.output * 65536))
  let s2 := if addr = 0 then s1 else s1.storeFor (0xD000 + k) addr (ptStatus x cyc fresh instant)
  s2.setPtPair k { x with latched := some cyc, seen := x.seen.filter fun e => decide (cyc ≤ e.1 + 1),
                          cur := if x.cur.k = cyc then { x.cur with late := false } else { k := cyc } }

end State

/-- CYCLE_FRAME_PASS (R245): a cycle frame, without its FCS, arrives at port A or B of pair `k`, is served on its first passage
and forwarded; one that fails a check of R36 is counted by its port, and what is forwarded of it is stomped (R40, R43). -/
def execCycleFramePass (k : Nat) (fromA : Bool) (frame : List Byte) (stop : RxEnd) (capture : Raw) (rxPipe : Int) (launch : Raw)
    (txPipe : Int) (s : State) : Out :=
  if 256 ≤ k then .next s
  else
    let a := s.reg Ix.henayPtPortA (k + 1)
    let b := s.reg Ix.henayPtPortB (k + 1)
    let inp := if fromA then a else b
    let other := if fromA then b else a
    let out := if other ≠ 0xFFFF ∧ s.portUp other then other else inp
    match cycleHead (s.reg Ix.henayEthertype 0) frame with
    | none => .next s
    | some h =>
      if s.pairServes k = false ∨ s.portUp inp = false ∨ h.ring ≠ s.reg Ix.henayPtRingId (k + 1) then .next s
      else
        let c := s.checkCycle inp frame stop
        let s0 := c.1.setPtPair k { c.1.ptPair k with fromA := fromA }
        let pass (w : List Byte) (ok : Bool) : State :=
          s0.passFrame k fromA inp out w ok (s.rxTimestamp inp capture rxPipe) (s.txTimestamp out launch txPipe) h
        match c.2 with
        | .passes => .next ((pass frame true).watchPass k h frame)
        | .dropped => .next c.1
        | .stomped w => .next (pass w false)

/-- PT_INPUT_SAMPLE (R256): at the input-sample instant the gather of the input area starts. Frames of the cycle before may
still be passing, and carry the inputs of theirs. -/
def execPtInputSample (k : Nat) (s : State) : Out :=
  if 256 ≤ k then .next s
  else
    let cyc := s.pairCycle k (s.pairTiming k).input
    let x := s.ptPair k
    if s.pairServes k = false ∨ cyc < 0 ∨ x.sampled = some cyc.toNat then .next s
    else .next (s.setPtPair k { x with
      sampled := some cyc.toNat, inputs := x.inputs.drop (x.inputs.length - 1) ++ [(cyc.toNat, none)] })

/-- PT_GATHER_DONE (R256, R260): the input area of the oldest gather under way is complete. -/
def execPtGatherDone (k : Nat) (s : State) : Out :=
  if 256 ≤ k then .next s
  else
    let x := s.ptPair k
    match x.inputs.find? fun e => e.2.isNone with
    | some (cyc, _) =>
      let bs := (s.gatherFrom (s.reg Ix.henayPtGatherBase (k + 1)) (s.reg Ix.henayPtGatherSize (k + 1)) Ix.henayPtGatherList
        (k + 1)).take (s.ptInSize k)
      .next (s.setPtPair k { x with inputs := x.inputs.map fun e => if e.1 = cyc then (cyc, some bs) else e })
    | none => .next s

/-- PT_OUTPUT_LATCH (R256, R262): at the output-latch instant the outputs are scattered, or hold, and the status is written. -/
def execPtOutputLatch (k : Nat) (s : State) : Out :=
  if 256 ≤ k then .next s
  else
    let cyc := s.pairCycle k (s.pairTiming k).output
    if s.pairServes k = false ∨ cyc < 0 ∨ (s.ptPair k).latched = some cyc.toNat then .next s
    else .next (s.latchOutputs k cyc.toNat)

end Sys2Proof.Machine
end

