-- ==== Sys2Proof/Machine/Mastership.lean ====
section
/-! DEFINITION. Who masters a ring: cold start, claims, yielding, takeover and duels (R272 to R281). -/

namespace Sys2Proof.Machine
namespace State

/-- The ring stands by, or claims, with the ring island running. -/
def standsBy (s : State) (m : Nat) : Bool := (s.mring m).mode == 5 && s.running ringIsland && !s.sy.retaining
def claims (s : State) (m : Nat) : Bool := (s.mring m).mode == 6 && s.running ringIsland && !s.sy.retaining

/-- The start claim of ring `m` as it leaves port `p` (R275). -/
def startClaim (s : State) (m p attempt : Nat) : List Byte :=
  let rec_ := leBytes 1 2 ++ leBytes 1 (s.reg Ix.henayDomain (m + 1)) ++ beBytes 2 16 ++ beBytes 4 (s.vector m) ++ beBytes 4 attempt ++
    beBytes 4 0
  s.cycleEthernet p ++ s.cycleHeader m 0 0 1 0 (s.nodeId m) none ++ beBytes 2 0xFFFE ++ beBytes 2 0 ++ beBytes 2 16 ++ leBytes 1 cmdWrite ++
    [0#8] ++ beBytes 2 0 ++ beBytes 2 0xFFFF ++ rec_

/-- A node yields to `node` (R277, R281). -/
def yieldRing (s : State) (m node : Nat) : State := (s.standBy m).count Ix.henayYields (m + 1) 1 |>.setMring m
  { (s.standBy m).mring m with yieldTo := some (node, s.rawTotal) }

/-- A frame of the ring's ID, as ring `m` sees it. -/
def ringHead (s : State) (m : Nat) (w : List Byte) : Option CycleHead :=
  match cycleHead (s.reg Ix.henayEthertype 0) w with
  | some h => if h.ring = s.reg Ix.henayRingId (m + 1) then some h else none
  | none => none

/-- The last cycle k with T_k + C/2 past (R279). -/
def watchCycle (s : State) (m : Nat) : Int :=
  let t := s.ringTiming m
  t.cycleAt (s.syncNow t.dom - (t.cycle : Int) * 32768)

/-- The run of missing reference frames at which ring `m` takes over (R279). -/
def takeoverRun (s : State) (m : Nat) : Nat :=
  s.reg Ix.henayTakeoverMisses (m + 1) + 2 * (s.reg Ix.henayMasterRank (m + 1) - 1)

/-- The takeover, in one ring-island clock (R280). -/
def takeOver (s : State) (m run : Nat) : State :=
  let prev := s.reg Ix.henayMasterNode (m + 1)
  ((s.startRing m).count Ix.henayTakeovers (m + 1) 1).event Ix.henayTakeovers 1 ringIsland [(2, prev), (2, run)]

end State

/-- LISTEN_TIMEOUT (R276): the listen time has passed without a cycle frame, and the ring may claim. -/
def execListenTimeout (m : Nat) (s : State) : Out :=
  if 16 ≤ m then .next s
  else
    let x := s.mring m
    if s.standsBy m = false ∨ x.yieldTo.isSome ∨ x.backoff.isSome ∨ s.since x.listenFrom < s.listenTime m ∨
        s.regB Ix.henayColdStart (m + 1) = false then .next s
    else .next ((s.setMring m { x with claimRun := 0, claimOut := false, slotAt := none }).setMode m 6)

/-- CLAIM_SLOT (R276): a start claim at the start of a slot, which lasts one cycle time; one that has not come back starts the
count again. -/
def execClaimSlot (m : Nat) (s : State) : Out :=
  if 16 ≤ m then .next s
  else
    let x := s.mring m
    let due := match x.slotAt with
      | some t => decide (State.ns (s.reg Ix.henayCycleTime (m + 1)) ≤ s.since t)
      | none => true
    if s.claims m = false ∨ due = false then .next s
    else
      let n := (x.attempt + 1) % 4294967296
      let send (t : State) (p : Nat) : State := if t.portUp p then t.sendCycleFrame m p (t.startClaim m p n) t.raw else t
      let s1 := send s (s.reg Ix.henayOutPort (m + 1))
      let s2 := if s.reg Ix.henayTopology (m + 1) = 0 then send s1 (s.reg Ix.henayInPort (m + 1)) else s1
      .next (s2.setMring m { x with
        attempt := n, claimOut := true, slotAt := some s.rawTotal, claimRun := if x.claimOut then 0 else x.claimRun })

/-- START_CLAIM_RETURN (R276): the node's own claim comes back; one that fails a check of R36 counts as not returned. -/
def execStartClaimReturn (m : Nat) (onOut : Bool) (frame : List Byte) (stop : RxEnd) (s : State) : Out :=
  if 16 ≤ m then .next s
  else
    match s.ringHead m frame with
    | none => .next s
    | some h =>
      let x := s.mring m
      let mine := isStartClaim h frame && h.node == s.nodeId m && x.claimOut &&
        (match controlRecord h frame 2 with | some r => beField r 8 4 == x.attempt | none => false)
      if s.claims m = false ∨ mine = false ∨ (s.reg Ix.henayTopology (m + 1) = 1 ∧ onOut = false) then .next s
      else
        let p := if onOut then s.reg Ix.henayOutPort (m + 1) else s.reg Ix.henayInPort (m + 1)
        let c := s.checkCycle p frame stop
        if c.2 ≠ .passes then .next c.1
        else
          let s1 := s.setMring m { x with claimOut := false, claimRun := x.claimRun + 1 }
          .next (if s.reg Ix.henayClaimCycles (m + 1) ≤ x.claimRun + 1 then s1.startRing m else s1)

/-- START_CLAIM_RECEIVED (R276, R277): another node's claim, or a running frame, reaches a claimant; a higher or equal vector
makes it yield. Every other state only sees the frame. -/
def execStartClaimReceived (m : Nat) (frame : List Byte) (s : State) : Out :=
  if 16 ≤ m then .next s
  else
    match s.ringHead m frame with
    | none => .next s
    | some h =>
      let v := s.vectors m h frame
      if s.claims m then
        let s1 := s.sawFrame m h frame
        if v.1 ≤ v.2 then
          let s2 := s1.yieldRing m h.node
          .next (if v.1 = v.2 then s2.event Ix.henayYields 1 State.ringIsland [(2, s.nodeId m), (2, h.node)] else s2)
        else .next s1
      else if s.standsBy m then .next (s.sawFrame m h frame)
      else .next s

/-- YIELD_TIMEOUT (R278): no frame of the winner for the listen time; a random back-off of 0 to 15 slots is drawn. -/
def execYieldTimeout (m : Nat) (s : State) : Out :=
  if 16 ≤ m then .next s
  else
    let x := s.mring m
    match x.yieldTo with
    | none => .next s
    | some (_, t) =>
      if s.standsBy m = false ∨ s.since t < s.listenTime m then .next s
      else
        let b := Config.freeNat s.draws % 16
        let stop := s.rawTotal + State.ns (b * s.reg Ix.henayCycleTime (m + 1))
        .next ({ (s.setMring m { x with yieldTo := none, backoff := some (stop, false) }) with draws := s.draws + 1 }.count
          Ix.henayBackoffs (m + 1) 1)

/-- BACKOFF_END (R278): the node claims, unless it saw a cycle frame of its ring during the back-off. -/
def execBackoffEnd (m : Nat) (s : State) : Out :=
  if 16 ≤ m then .next s
  else
    let x := s.mring m
    match x.backoff with
    | none => .next s
    | some (stop, seen) =>
      if s.standsBy m = false ∨ s.rawTotal < stop then .next s
      else
        let s1 := s.setMring m { x with backoff := none, claimRun := 0, claimOut := false, slotAt := none }
        .next (if seen then s1.setMring m { s1.mring m with listenFrom := s.rawTotal } else s1.setMode m 6)

/-- REFERENCE_WATCH (R279, R280): at T_k + C/2 a ring that stands by judges the reference frame of cycle k, and takes over once
the run of missing ones is long enough. -/
def execReferenceWatch (m : Nat) (s : State) : Out :=
  if 16 ≤ m then .next s
  else
    let k := s.watchCycle m
    let x := s.mring m
    let c := k.toNat % 4294967296
    if s.standsBy m = false ∨ k < 0 ∨ x.judged = some k.toNat ∨ c % s.reg Ix.henayRefDivider (m + 1) ≠ 0 then .next s
    else if x.refSeen = some c then .next (s.setMring m { x with judged := some k.toNat, missRun := 0 })
    else
      let run := x.missRun + 1
      let s1 := s.setMring m { x with judged := some k.toNat, missRun := run }
      .next (if s.takeoverRun m ≤ run then s1.takeOver m run else s1)

/-- DUEL_FRAME_RECEIVED (R281): a master sees a cycle frame of another master; with a lower or equal vector it counts a yield,
logs the duel, begins no further cycle, and stands by at the end of the cycle in flight. -/
def execDuelFrameReceived (m : Nat) (frame : List Byte) (s : State) : Out :=
  if 16 ≤ m then .next s
  else
    match s.ringHead m frame with
    | none => .next s
    | some h =>
      if s.ringCycles m = false ∨ (s.mring m).leaving ∨ h.node = s.nodeId m ∨ isStartClaim h frame then .next s
      else
        let v := s.vectors m h frame
        if v.1 ≤ v.2 then
          let s1 := ((s.setReg Ix.henayMasterNode (m + 1) h.node).count Ix.henayYields (m + 1) 1).event Ix.henayYields 1
            State.ringIsland []
          .next (if (s.mring m).cycles = [] then s1.standBy m else s1.setMring m { s1.mring m with leaving := true })
        else .next s

end Sys2Proof.Machine
end

