-- ==== Sys2Proof/Machine/Pins.lean ====
section
/-! DEFINITION. Time pins: their start at an apply, edges, event pulses and captures (R227 to R233). -/

namespace Sys2Proof.Machine

/-- A second in ru. -/
def secondRu : Int := 65536000000000

/-- θ of a pulse-per-second edge, in (−0.5 s, 0.5 s] (R227). -/
def pulseTheta (sync offset : Int) : Int :=
  let r := (sync - offset) % secondRu
  if r ≤ secondRu / 2 then r else r - secondRu

namespace State

def tioMode (s : State) (n : Nat) : Nat := s.reg Ix.tioMode (n + 1)

/-- The limits of R231. -/
def pinLimitsOk (s : State) (n : Nat) : Bool :=
  let period := s.reg Ix.tioPeriod (n + 1)
  let width := s.reg Ix.tioWidth (n + 1)
  decide (1310720 ≤ period) && decide (80 ≤ width) &&
    (s.tioMode n != 2 || decide (width * 4096 + 327680 ≤ period))

/-- The pulses of pin `n` are inverted: bit 0 of TIO_CONFIG (R229). -/
def inverted (s : State) (n : Nat) : Bool := bit (s.reg Ix.tioConfig (n + 1)) 0

/-- A pin's configuration takes effect (R230, R231): the pin goes off and starts afresh in its mode. -/
def applyPin (s : State) (n : Nat) : State :=
  let mode := s.tioMode n
  let x := s.pin n
  let s0 := s.setPin n (if mode = 0 ∨ mode = 3 then { x with next := none, lastEdge := none, fallAt := none, level := false }
    else { x with next := none, lastEdge := none, level := x.fallAt.isSome != s.inverted n })
  let status (t : State) (v : Nat) : State := t.setReg Ix.tioStatus (n + 1) v
  if s.pinLimitsOk n = false then
    (status ((s0.setPin n { s0.pin n with level := false, fallAt := none }).setReg Ix.tioMode (n + 1) 0) 6).event Ix.tioEdges 1 meridian []
  else
    let arm (t : State) (k : Nat) : State :=
      if horizon < t.edgeDelta n k then status t 5
      else status (t.setPin n { t.pin n with next := some (t.edgeAt n k) }) 1
    if mode = 1 then (if s0.edgeDelta n 0 < 0 then status s0 4 else arm s0 0)
    else if mode = 2 then
      let d := s.reg Ix.tioDomain (n + 1)
      if s0.edgeDelta n 0 < 0 then arm s0 (s0.firstEdge n (s0.syncAt d (s0.raw + BitVec.ofNat 64 (ns 1000)))) else arm s0 0
    else if mode = 0 then status s0 0
    else status s0 1

/-! ### Event mode (R232, R257) -/

/-- Event source `n` is running, with its timing. -/
def sourceTiming (s : State) (n : Nat) : Option Timing :=
  let v := s.reg Ix.henaySource (n + 1)
  if bit v 15 then
    let k := v % 256
    if s.pairState k = 2 then some (s.pairTiming k) else none
  else if s.reg Ix.henayState (v % 16 + 1) = 2 then some (s.ringTiming (v % 16))
  else none

/-- Raw time `r` is the instant `off` ns after some cycle's start. -/
def isInstant (s : State) (t : Timing) (off : Int) (r : Raw) : Bool :=
  let k := t.cycleAt (s.syncAt t.dom r - off * 65536)
  let target := t.start k + off * 65536
  decide (0 ≤ k) && decide (target ≤ s.syncAt t.dom r) && decide (s.syncAt t.dom (r - 1) < target)

/-- The internal event a pin in mode 4 follows occurs at raw time `r` (R232). -/
def pinEventAt (s : State) (n : Nat) (r : Raw) : Bool :=
  let e := s.reg Ix.tioEvent (n + 1)
  if e < 16 then (match s.sourceTiming e with | some t => s.isInstant t t.output r | none => false)
  else if e < 32 then (match s.sourceTiming (e - 16) with | some t => s.isInstant t t.input r | none => false)
  else if e < 48 then (match (s.group (e - 32)).armed with | some a => a.raw == r && !a.late | none => false)
  else false

/-- A pulse begins at raw time `at_`, or extends the one that is high (R229, R231). -/
def pulse (s : State) (n : Nat) (at_ : Raw) (next : Option (Nat × Int)) : State :=
  let x := s.pin n
  let fall := at_ + BitVec.ofNat 64 (s.reg Ix.tioWidth (n + 1) * 4096)
  let s1 := s.setPin n { x with level := !s.inverted n, fallAt := some fall, next := next }
  let s2 := if x.fallAt.isSome then s1 else s1.count Ix.tioEdges (n + 1) 1
  s2.setReg Ix.tioStatus (n + 1) 2

/-- The pulse of a one-shot, or of a periodic pin whose next edge follows (R228). -/
def leadingEdge (s : State) (n k : Nat) (at_ : Int) : State :=
  s.pulse n (BitVec.ofInt 64 at_) (if s.tioMode n = 2 then some (s.edgeAt n (k + 1)) else none)

/-! ### Capture (R233) -/

/-- An edge of this sense is selected by TIO_CONFIG[2:1]. -/
def captures (s : State) (n : Nat) (rising : Bool) : Bool :=
  let c := bits (s.reg Ix.tioConfig (n + 1)) 2 1
  s.tioMode n == 3 && (c == 2 || (rising && c == 0) || (!rising && c == 1))

/-- The 24-byte record of an edge. -/
def captureRecord (s : State) (n : Nat) (ts : Raw) (rising lost : Bool) : List Byte :=
  let d := s.reg Ix.tioDomain (n + 1)
  let hold := s.domState d == 3 || s.domState d == 4
  leBytes 8 ts.toNat ++ leBytes 12 (time96 (s.syncAt d ts)) ++
    leBytes 1 (ofBool rising + 2 * ofBool lost + 4 * ofBool hold + 128) ++ [0#8] ++
    leBytes 2 (s.reg Ix.timeStepCount (d + 1) % 65536)

/-- The raw time of an edge at the ball, less the input delay, in steps of 62.5 ps (R233). -/
def captureTime (s : State) (n : Nat) (t : Raw) : Raw :=
  let r := t - BitVec.ofInt 64 (psToRu (s.regI Ix.tioInDelay (n + 1) 4))
  r - BitVec.ofNat 64 (r.toNat % 4096)

/-- An edge is stored, or lost and counted (R233); a pulse-per-second capture offers the servo a sample (R227). -/
def captureEdge (s : State) (n : Nat) (t : Raw) (rising : Bool) : State :=
  let x := s.pin n
  let ts := s.captureTime n t
  let near : Bool := match x.lastEdge with
    | some l => decide ((ts - l).toNat < ns 8)
    | none => false
  if near || decide (16 ≤ x.fifo.length) then (s.setPin n { x with lostFlag := true }).count Ix.tioCaptureLost (n + 1) 1
  else
    let fifo := x.fifo ++ [s.captureRecord n ts rising x.lostFlag]
    let s1 := (s.setPin n { x with fifo := fifo, lastEdge := some ts, lostFlag := false }).setReg Ix.tioCaptureWaiting (n + 1) fifo.length
    (List.range 4).foldl (fun u d =>
      if u.reg Ix.servoSource (d + 1) = 3 ∧ u.reg Ix.servoSourceSel (d + 1) = n then
        let th := pulseTheta (u.syncAt d ts) (u.regI Ix.tioPpsOffset (n + 1) 4 * 65536)
        u.setDom d { u.dom d with offered := (u.dom d).offered ++ [(th, 0)] }
      else u) s1

/-- A read of TIO_CAPTURE (R233): the oldest record, removed, or zeros. -/
def readCapture (s : State) (n : Nat) : State × List Byte :=
  let x := s.pin n
  match x.fifo with
  | [] => (s, List.replicate 24 0#8)
  | r :: rest => ((s.setPin n { x with fifo := rest }).setReg Ix.tioCaptureWaiting (n + 1) rest.length, r)

end State

/-- TIO_EDGE (R229, R231, R232): the next edge of pin `n` is due, or in event mode its event occurs at raw time `instant`. -/
def execTioEdge (n : Nat) (instant : Raw) (s : State) : Out :=
  if 32 ≤ n then .next s
  else if s.tioMode n = 4 then
    if s.pinEventAt n instant ∧ 0 ≤ s.dueBy instant then
      .next (s.pulse n (pinGrid (instant - BitVec.ofInt 64 (psToRu (s.regI Ix.tioOutDelay (n + 1) 4)))) none)
    else .next s
  else
    match (s.pin n).next with
    | some (k, r) => .next (if (s.rawTotal : Int) < r then s else s.leadingEdge n k r)
    | none => .next s

/-- TIO_TRAILING_EDGE (R229): the pulse ends. -/
def execTioTrailingEdge (n : Nat) (s : State) : Out :=
  if 32 ≤ n then .next s
  else
    match (s.pin n).fallAt with
    | some r =>
      if s.dueBy r < 0 then .next s
      else
        let s1 := s.setPin n { s.pin n with level := s.inverted n, fallAt := none }
        .next (if s.tioMode n = 1 then s1.setReg Ix.tioStatus (n + 1) 3 else s1)
    | none => .next s

/-- TIO_CAPTURE_EDGE (R233): an input edge at raw time `t`. -/
def execTioCaptureEdge (n : Nat) (t : Raw) (rising : Bool) (s : State) : Out :=
  if 32 ≤ n then .next s else .next (if s.captures n rising then s.captureEdge n t rising else s)

/-- TIO_CAPTURE_READ (R233). -/
def execTioCaptureRead (n : Nat) (s : State) : Out :=
  if 32 ≤ n then .next s
  else
    let r := s.readCapture n
    .next (r.1.reply { data := r.2 })

end Sys2Proof.Machine
end

