-- ==== Sys2Proof/Machine/Live.lean ====
section
/-! DEFINITION. What objects read that are not stored under their own index: present counts, levels, states and records. -/

namespace Sys2Proof.Machine

/-- Wear in 2^-40 s as ISLAND_WEAR_HOURS and ISLAND_TEMP_HOURS show it, in 1/1,024 h (R463). -/
def wearHours (u : Nat) : Nat := u / (3600 * 2 ^ 30) % 2 ^ 64

namespace State

/-! ### Scalars and elements -/

/-- CH_STATUS (R303, R352). -/
def chStatus (s : State) (c : Nat) : Nat :=
  let x := s.channel c
  if s.reg Ix.chHaltCause (c + 1) ≠ 0 then 3
  else match s.chanEntry c with
    | none => 0
    | some e =>
      if entKind e = 0 then 0
      else if x.units.isEmpty = false ∨ x.reading ∨ x.again ∨ x.more then 2 else 1

/-- CH_CACHE_STATE (R332, R333). -/
def chCache (s : State) (c : Nat) : Nat :=
  if (s.channel c).dropping then 2 else if (s.channel c).entry.isSome then 1 else 0

/-- Local clock of island `i` in MHz: a rig's is stated, an absent island's is 0 (R10, R27). -/
def islandClockOf (s : State) (i : Nat) : Nat :=
  if s.islandPresent i = false then 0 else if 32 ≤ i ∧ i < 48 then 1600 else Config.islandClock i % 65536

/-- ROOT_KEY_STATUS (R447). -/
def rootKeyStatus (s : State) : Nat := s.nv.revoked % 16 + 16 * fwRoot s.booted

/-- Objects of identity, islands and the supervisor (1000h, 2000h). -/
def liveLow (s : State) (idx sub : Nat) : Option Nat :=
  if idx = Ix.serialNumber then some (Config.serialNumber % 2 ^ 128)
  else if idx = Ix.firmwareVersion then some (fwVersion s.booted)
  else if idx = Ix.siliconRevision then some (Config.siliconRevision % 65536)
  else if idx = Ix.islandClock then some (s.islandClockOf (sub - 1))
  else if idx = Ix.applyPending then some (s.island (sub - 1)).pend.length
  else none

/-- Objects of the lanes (3000h): the time asleep, the present sleep counted (R402). -/
def liveLanes (s : State) (idx sub : Nat) : Option Nat :=
  let l := sub - 1
  let now (t : Stamp) : Option Nat := some ((s.reg idx sub + s.since t / 65536) % 2 ^ 64)
  if idx = Ix.laneTxSleepTime ∧ ((s.lanePort l).toList.any fun p => (s.portLink p).asleep) then now (s.lane l).txSince
  else if idx = Ix.laneRxSleepTime ∧ (s.lane l).rxAsleep then now (s.lane l).rxSince
  else none

/-- Objects of rigs, programs and tables (4000h). -/
def liveRigs (s : State) (idx sub : Nat) : Option Nat :=
  if idx = Ix.rigQueueDepth then some (s.rigQueue (sub - 1)).length
  else if idx = Ix.programDigest then some (leNat s.rg.progs.active.digest)
  else if idx = Ix.programBuildId then some (s.rg.progs.active.build % 4294967296)
  else if idx = Ix.xmEntries then some (s.xmTable (sub - 1)).entries.length
  else none

/-- Objects of the buffer, queues, gates and shapers (5000h). -/
def liveBuffer (s : State) (idx sub : Nat) : Option Nat :=
  let q := sub - 1
  if idx = Ix.bufferFreeCells then some s.freeCells
  else if idx = Ix.sharedPoolCells then some s.sharedPool
  else if idx = Ix.queueDepthCells then some (s.queueDepth q)
  else if idx = Ix.intakeCells then some (s.intakeUsed q)
  else if idx = Ix.keeperOutstanding then some (s.outstandingOf q)
  else if idx = Ix.queueDepthBytes then some (s.queueBytes q)
  else if idx = Ix.queueHeadSojourn then some (s.headSojourn q)
  else if idx = Ix.gateOperStates then some (s.gateStates q)
  else if idx = Ix.cbsCredit then some (shaperImage (s.shaperNow q).credit)
  else if idx = Ix.tbLevel then some (shaperImage (s.shaperNow q).level)
  else if idx = Ix.streamGateState then some (s.streamGateState q)
  else none

/-- Objects of time (7000h). -/
def liveTime (s : State) (idx sub : Nat) : Option Nat :=
  let d := sub - 1
  if idx = Ix.rawTime then some s.raw.toNat
  else if idx = Ix.timeNow then some (time96 (s.syncNow d))
  else if idx = Ix.timeRate then some (ofSigned 64 (s.dom d).corr.rho)
  else if idx = Ix.timeSlewRemaining then some (ofSigned 64 (s.slewRemaining d))
  else if idx = Ix.tioCapture then some (leNat (((s.pin d).fifo.head?).getD []))
  else none

/-- Objects of rings (8000h). -/
def liveRings (s : State) (idx sub : Nat) : Option Nat :=
  if idx = Ix.henayPtState then some (s.pairState (sub - 1)) else none

/-- Objects of the host island (9000h). -/
def liveHost (s : State) (idx sub : Nat) : Option Nat :=
  let c := sub - 1
  if idx = Ix.cringBacklog then some (s.cring c).backlog.length
  else if idx = Ix.vecPending then some (if (s.vec c).held || (s.vec c).pending then 1 else (s.vec c).count % 65536)
  else if idx = Ix.dmaStageUsed then some s.stageUsed
  else if idx = Ix.dmaCacheUsed then some s.cachedChannels.length
  else if idx = Ix.chStatus then some (s.chStatus c)
  else if idx = Ix.chCacheState then some (s.chCache c)
  else if idx = Ix.chRateLevel then
    match s.chanEntry c with
    | some e => some (ofSigned 32 (s.paceLevel c e / paceUnit))
    | none => some 0
  else none

/-- Objects of the memories, images, firmware and keys (A000h, B000h). -/
def liveStore (s : State) (idx sub : Nat) : Option Nat :=
  if idx = Ix.memAddressLimit then some s.memLimit
  else if idx = Ix.imageSequence then some s.imageSeqNow
  else if idx = Ix.imageDigest then some (leNat s.imageDigestNow)
  else if idx = Ix.fwSequence then some (fwSeq s.booted)
  else if idx = Ix.rootKeyStatus then some s.rootKeyStatus
  else if idx = Ix.fwSecurityVersion then some (fwSecurity s.booted)
  else if idx = Ix.fwMinSecurity then some s.nv.minSecurity
  else if idx = Ix.fwDigest then some (leNat (fwDigestOf s.booted))
  else if idx = Ix.cormusKeyCounter then some (tgetD s.nv.cormusCounters (sub - 1) 0)
  else if idx = Ix.identityPublicKey then some (Config.identityKey % 2 ^ 480)
  else if idx = Ix.signNextLeaf then some s.nv.nextLeaf
  else if idx = Ix.signRemaining then some s.leavesLeft
  else if idx = Ix.surveyFlowBase then some s.mm.mirror
  else if idx = Ix.islandWearHours then some (wearHours (tgetD s.ag.wear (sub - 1) 0))
  else if idx = Ix.islandTempHours then some (wearHours (tgetD s.ag.heat (sub - 1) 0))
  else none

/-- What an element reads that is not stored under its own index; none where it is stored. -/
def live (s : State) (idx sub : Nat) : Option Nat :=
  let r := idx / 4096
  if r = 1 ∨ r = 2 then s.liveLow idx sub
  else if r = 3 then s.liveLanes idx sub
  else if r = 4 then s.liveRigs idx sub
  else if r = 5 then s.liveBuffer idx sub
  else if r = 7 then s.liveTime idx sub
  else if r = 8 then s.liveRings idx sub
  else if r = 9 then s.liveHost idx sub
  else if r = 10 ∨ r = 11 ∨ r = 12 then s.liveStore idx sub
  else none

/-- The value an element reads. -/
def value (s : State) (idx sub : Nat) : Nat := (s.live idx sub).getD (s.reg idx sub)

/-! ### Records of TABLEs -/

end State

/-- One entry of the event log as its 32 bytes (R459). -/
def LogEntry.bytes (e : LogEntry) : List Byte :=
  leBytes 4 e.seq ++ leBytes 2 e.boot ++ leBytes 2 e.code ++ leBytes 8 e.raw.toNat ++ leBytes 1 e.island ++
    leBytes 1 (e.severity + 32 * ofBool e.afterHold + 64 * ofBool e.cut) ++ leBytes 2 e.count ++ slice e.params 0 12

/-- An entry of an exact-match table as its 32 bytes (R506). -/
def xmRecord (key : Nat) (e : XmEntry) : List Byte :=
  leBytes 16 key ++ leBytes 8 e.data ++ leBytes 1 (ofBool e.marked) ++ leBytes 7 0

namespace State

/-- Records a TABLE has for a read (R506; R259, R260 and R289 for TABLEs of open length). -/
def tableCount (s : State) (idx sub full : Nat) : Nat :=
  if idx = Ix.xmEntry then (s.xmTable (sub - 1)).entries.length
  else if idx = Ix.tcEntry then s.reg Ix.tcPartSize sub
  else if idx = Ix.henayGatherList ∨ idx = Ix.henayScatterList ∨ idx = Ix.henaySafeImage ∨ idx = Ix.henayPtGatherList ∨
      idx = Ix.henayPtScatterList then s.tableLen idx sub
  else if idx = Ix.identityCertChain then min Config.certChain.length 24576
  else if idx = Ix.imageRead then
    match s.activeImage with
    | some i => min (leField (s.imgSlot i) 8 4) 1048576
    | none => 0
  else full

/-- Record `r` of a TABLE whose records have `size` bytes. -/
def tableRecord (s : State) (idx sub size r : Nat) : List Byte :=
  if idx = Ix.xmEntry then
    match (s.xmTable (sub - 1)).entries[r]? with
    | some e => xmRecord e.1 e.2
    | none => List.replicate 32 0#8
  else if idx = Ix.tcEntry then leBytes 96 (s.tcEntry (sub - 1) r)
  else if idx = Ix.queueStats then s.queueStats r
  else if idx = Ix.meter then
    let x := s.meterNow r
    leBytes 24 (s.record Ix.meter 0 r % 2 ^ 192) ++ leBytes 4 (x.tc / levelUnit) ++ leBytes 4 (x.te / levelUnit)
  else if idx = Ix.eventLog then
    match s.nv.log.find? fun e => (e.seq - 1) % 32768 == r with
    | some e => e.bytes
    | none => List.replicate 32 0#8
  else if idx = Ix.nvUser then leBytes 32 (tgetD s.nv.user r 0)
  else if idx = Ix.identityCertChain then slice Config.certChain r 1
  else if idx = Ix.quote then slice s.nv.quoteOut r 1
  else if idx = Ix.imageRead then
    match s.activeImage with
    | some i => slice (s.imgSlot i) r 1
    | none => [0#8]
  else leBytes size (s.record idx sub r)

end State
end Sys2Proof.Machine
end

