-- ==== Sys2Proof/Machine/MemIsland.lean ====
section
/-! DEFINITION. Commands of the memory island (R412 to R419). -/

namespace Sys2Proof.Machine
open State

namespace State

/-- The memory island. -/
def memIsland : Nat := 53

/-- MEM_STATE by its channels (R417, R418). -/
def showMemState (s : State) : State :=
  if s.reg Ix.memState 0 < 2 then s
  else
    let failed (c : Nat) : Bool := s.reg Ix.memChState (c + 1) != 0
    let pairLost := (List.range 4).any fun k => failed (2 * k) && failed (2 * k + 1)
    s.setReg Ix.memState 0 (if pairLost then 4 else if (List.range 8).any failed then 3 else 2)

/-- Channel `c` fails (R192, R417). -/
def memFails (s : State) (c : Nat) : State :=
  let s1 := (s.setReg Ix.memChState (c + 1) 1).countSat Ix.memChFails (c + 1) 1
  ((s1.setMemChan c { s1.memChan c with retrainFails := 0, uncorrectable := [] }).event Ix.memChFails 1 memIsland
    [(1, c)]).showMemState.partFaults (partMem c)

/-- A write to MEM_CH_RESTORE (R418): a failed channel starts its restore. -/
def writeMemChRestore (s : State) (c v : Nat) : Wr :=
  commandWrite s v fun s => (if s.memFailed c then s.setReg Ix.memChState (c + 1) 2 else s, 0)

/-- A channel's restore ends well: it holds its mirror share again, and poison outside it (R418). -/
def memRestored (s : State) (c : Nat) : State :=
  let mine (w : Nat) : Bool := decide (s.mm.mirror ≤ 64 * w) && s.memChannel (64 * w) == c
  let s1 := { s with mm := { s.mm with
    poison := tset s.mm.poison c [], badWords := s.mm.badWords.filter fun w => !mine w } }
  ((s1.setReg Ix.memChState (c + 1) 0).showMemState).partRecovers (partMem c)

/-- Codeword `w` is found uncorrectable by the scrubber; in the mirror region the copy of the even (0) or odd (1) channel is
repaired from the other, unless that one is bad too (`alone`) or serves no read; outside it the codeword is logged. What is not
repaired stays bad (R416, R419). -/
def scrubBad (s : State) (w copy : Nat) (alone : Bool) : State :=
  let c := s.memChannel (64 * w)
  if 64 * w < s.mm.mirror then
    let c1 := c + copy % 2
    let s1 := s.countUncorrectable c1
    if alone || s.memUnserved (c + (copy + 1) % 2) then
      { s1 with mm := { s1.mm with badWords := w :: s1.mm.badWords.filter (· ≠ w) } }
    else s1.count Ix.memMirrorRepairs (c1 + 1) 1
  else
    let s1 := s.countUncorrectable c
    ({ s1 with mm := { s1.mm with badWords := w :: s1.mm.badWords.filter (· ≠ w) } }).event Ix.memUncorrectable 1 memIsland
      [(8, 9223372036854775808 + 64 * w)]

/-- Rate codes of R427 are 0 to 2; a channel takes part while it reads OK and LPDDR4X is ready; in a retaining
reset it is held in self-refresh (R421). -/
def memServes (s : State) (c : Nat) : Bool :=
  decide (2 ≤ s.reg Ix.memState 0) && s.reg Ix.memChState (c + 1) == 0 && !s.sy.retaining

/-- The channel whose copy of codeword `w` a scrub pass reports. -/
def scrubChannel (s : State) (w copy : Nat) : Nat := s.memChannel (64 * w) + (if 64 * w < s.mm.mirror then copy % 2 else 0)

end State

/-- MEM_RETRAIN_CHECK (R412, R417): the DQS oscillator of channel `c` has drifted by `drift` ppm; `ok` is how a retraining ends. -/
def execMemRetrainCheck (c drift : Nat) (ok : Bool) (s : State) : Out :=
  if 8 ≤ c then .next s
  else
    let x := s.memChan c
    if s.memServes c = false ∨ s.since x.checked < ns (s.reg Ix.memRetrainPeriod 0 * 1000000) then .next s
    else
      let s1 := s.setMemChan c { x with checked := s.rawTotal, retrainFails := if 20000 < drift then (if ok then 0 else x.retrainFails + 1)
                                                                           else x.retrainFails }
      let s2 := if 20000 < drift then s1.countSat Ix.memRetrains (c + 1) 1 else s1
      .next (if 3 ≤ (s2.memChan c).retrainFails then s2.memFails c else s2)

/-- MEM_TEMP_POLL (R413): mode register 4 reads the refresh-rate `code`; `hot` where the high-temperature limit is exceeded,
which is logged once a minute. -/
def execMemTempPoll (c code : Nat) (hot : Bool) (s : State) : Out :=
  if 8 ≤ c then .next s
  else
    let x := s.memChan c
    if s.memServes c = false ∨ s.since x.polled < ns 16000000 then .next s
    else
      let s1 := (s.setReg Ix.memTemp (c + 1) (code % 256)).setMemChan c { x with polled := s.rawTotal }
      let recent := (x.hotLogged.map fun t => decide (s.since t < 60 * second)).getD false
      if hot && !recent then
        .next ((s1.setMemChan c { s1.memChan c with hotLogged := some s.rawTotal }).event Ix.memTemp 1 memIsland [(1, c)])
      else .next s1

/-- MEM_CHANNEL_FAIL (R417): channel `c` fails its training at start-up (0), leaves a command unanswered for 10 µs (1), or has
reached its limit of uncorrectable codewords within one second (2). -/
def execMemChannelFail (c why : Nat) (s : State) : Out :=
  if 8 ≤ c then .next s
  else
    let recent := (s.memChan c).uncorrectable.filter fun t => decide (s.since t ≤ second)
    let holds := if why = 0 then s.reg Ix.memState 0 == 1
      else if why = 1 then decide (2 ≤ s.reg Ix.memState 0)
      else decide (s.reg Ix.memChFailLimit 0 ≤ recent.length)
    if s.reg Ix.memState 0 = 0 ∨ s.memFailed c ∨ holds = false then .next s else .next (s.memFails c)

/-- MEM_CH_RESTORE (R418): 1 written to MEM_CH_RESTORE. -/
def execMemChRestore (c : Nat) (s : State) : Out :=
  if 8 ≤ c then Wr.out (s, Abort.noSuch) else (s.writeMemChRestore c 1).out

/-- MEM_RESTORE_DONE (R418, R421): the training of a channel in restore fails, or its copy and poisoning end. -/
def execMemRestoreDone (c : Nat) (ok : Bool) (s : State) : Out :=
  if 8 ≤ c then .next s
  else if s.reg Ix.memChState (c + 1) ≠ 2 ∨ s.sy.retaining then .next s
  else if ok then .next (s.memRestored c)
  else .next (s.setReg Ix.memChState (c + 1) 1)

/-- MEM_SCRUB (R419): a pass over the channels that read OK ends: `corrected` codewords by channel, and uncorrectable codewords with the copy concerned. -/
def execMemScrub (corrected bad : List (Nat × Nat)) (s : State) : Out :=
  if s.reg Ix.memState 0 < 2 ∨ s.sy.retaining ∨ s.rawTotal < s.mm.scrubbed + s.reg Ix.memScrubPeriod 0 * second then .next s
  else
    let s1 := corrected.foldl (fun t p => if p.1 < 8 ∧ s.memServes p.1 then t.count Ix.memCorrected (p.1 + 1) p.2 else t) s
    let found := bad.filter fun p => decide (64 * p.1 < s.memLimit) && s.memServes (s.scrubChannel p.1 p.2)
    let s2 := found.foldl (fun t p => t.scrubBad p.1 p.2 (found.any fun q => q.1 == p.1 && q.2 % 2 != p.2 % 2)) s1
    .next (({ s2 with mm := { s2.mm with scrubbed := s.rawTotal } }).countSat Ix.memScrubPasses 0 1)

/-- MEM_REFRESH (R413): a per-bank refresh of channel `c`. It holds a pending access back by at most one command and changes
nothing that can be read. -/
def execMemRefresh (c : Nat) (s : State) : Out := if 8 ≤ c then .next s else .next s

end Sys2Proof.Machine
end

