-- ==== Sys2Proof/Machine/Redundancy.lean ====
section
/-! DEFINITION. Sequence generation and recovery records, timers and latent tests, and the guarantee's clear
(R180, R185, R188, R189, R198). -/

namespace Sys2Proof.Machine
namespace State

/-- Functions of each kind (R174, R199). -/
def functionCount : Nat := 262144

/-- A period of `p` ms has run out since `t`. -/
def msRunOut (s : State) (t p : Nat) : Bool := decide (t + ns (p * 1000000) ≤ s.rawTotal)

/-- The function's record is valid, and its latent detection is on (R188, R189). -/
def recoveryValid (s : State) (f : Nat) : Bool := bit (s.recoverField f 0 1) 7
def latentOn (s : State) (f : Nat) : Bool := s.recoveryValid f && bit (s.recoverField f 0 1) 2

/-- The reset of R185 with its count. -/
def resetRecovery (s : State) (f : Nat) : State := (s.clearRecovery f).countRecovery f rcResets 1

/-- A write of a number to RECOVERY_RESET (R185). -/
def writeRecoveryReset (s : State) (v : Nat) : Wr :=
  if functionCount ≤ v then (s, Abort.outOfRange)
  else if s.recoveryValid v then (s.resetRecovery v, 0)
  else (s, 0)

/-- The conditions of R189 on a written record; bytes 16 to 31 are ignored. -/
def recoveryRecordOk (r : List Byte) : Bool :=
  let mode := leField r 0 1
  let h := leField r 1 1
  let paths := leField r 2 1
  decide (r.length = 32) && mode / 8 % 16 == 0 && leField r 3 1 == 0 &&
    (bit mode 0 || (decide (2 ≤ h) && decide (h ≤ 64))) &&
    (!bit mode 2 || (decide (2 ≤ paths) && decide (paths ≤ 8) && leField r 8 4 != 0 && leField r 12 4 != 0))

/-- A checked record takes effect (R188, R189): bytes 16 to 31 are kept; validation, or a change of algorithm or history
length of a valid record, resets the function; latent periods restart where detection turns on or a period changes. -/
def setRecoveryRecord (s : State) (f : Nat) (r : List Byte) : State :=
  let old (i n : Nat) : Nat := s.recoverField f i n
  let wasOn := s.latentOn f
  let wasValid := s.recoveryValid f
  let s1 := s.setRecField Ix.recoveryFunc 0 f 0 16 (leField r 0 16)
  let changed := bit (old 0 1) 0 != bit (leField r 0 1) 0 || old 1 1 != leField r 1 1
  let s2 := if (s1.recoveryValid f && !wasValid) || (wasValid && changed) then s1.clearRecovery f
    else if s1.recoveryValid f = false then s1.setRecovery f { s1.recovery f with timerRunning := false }
    else s1
  if s2.latentOn f = false then s2
  else
    let fresh := !wasOn || old 8 4 != leField r 8 4 || old 12 4 != leField r 12 4
    let s3 := if fresh then s2.setRecovery f { s2.recovery f with testFrom := s.rawTotal, resetFrom := s.rawTotal } else s2
    if wasOn then s3 else s3.setRecoverField f 28 4 0

/-- A write of one record of RECOVERY_FUNC. -/
def writeRecoveryFunc (s : State) (f : Nat) (r : List Byte) : Wr :=
  if functionCount ≤ f then (s, Abort.beyond)
  else if r.length ≠ 32 then (s, Abort.length)
  else if recoveryRecordOk r = false then (s, Abort.outOfRange)
  else s.recordWrite 50 Ix.recoveryFunc 0 f (leNat r) fun s => (s.setRecoveryRecord f r, 0)

/-- A write of one record of SEQ_GEN (R180): the count is kept, reserved bytes must be 0. -/
def writeSeqGen (s : State) (f : Nat) (r : List Byte) : Wr :=
  if functionCount ≤ f then (s, Abort.beyond)
  else if r.length ≠ 16 then (s, Abort.length)
  else if leField r 2 6 ≠ 0 then (s, Abort.outOfRange)
  else s.recordWrite 49 Ix.seqGen 0 f (leNat r) fun s => (s.setRecField Ix.seqGen 0 f 0 2 (leField r 0 2), 0)

/-- A latent test of function `f` (R188). -/
def latentTest (s : State) (f : Nat) : State :=
  let x := s.recovery f
  let s1 := s.setRecovery f { x with testFrom := x.testFrom + ns (s.recoverField f 8 4 * 1000000) }
  let d := toSigned 32 (s.recoverField f 28 4)
  if (s.recoverField f 6 2 : Int) < d then
    (s1.countRecovery f rcLatent 1).event Ix.recoveryCounts 3 50 [(4, f), (4, s.recoverField f 28 4)]
  else s1

/-- A latent test is due. -/
def latentTestDue (s : State) (f : Nat) : Bool := s.latentOn f && s.msRunOut (s.recovery f).testFrom (s.recoverField f 8 4)

/-- A write to GUARANTEE_CLEAR (R198). -/
def writeGuaranteeClear (s : State) (v : Nat) : Wr :=
  commandWrite s v fun s =>
    ((s.setReg Ix.guaranteeLeftCause 0 0).setReg Ix.guaranteeState 0 (if s.isl.faultParts = [] then 0 else 1), 0)

end State

/-- RECOVERY_TIMER_EXPIRY (R185): no frame has passed for the reset time. -/
def execRecoveryTimerExpiry (f : Nat) (s : State) : Out :=
  if State.functionCount ≤ f then .next s
  else if s.recoveryValid f ∧ (s.recovery f).timerRunning ∧ s.recoverField f 4 2 ≠ 0 ∧
      s.msRunOut (s.recovery f).lastPass (s.recoverField f 4 2) then .next (s.resetRecovery f)
  else .next s

/-- RECOVERY_RESET (R185): a write of a function number. -/
def execRecoveryReset (f : Nat) (s : State) : Out := (s.writeRecoveryReset f).out

/-- RECOVERY_FUNC_WRITE (R189): a write of a recovery function record. -/
def execRecoveryFuncWrite (f : Nat) (record : List Byte) (s : State) : Out := (s.writeRecoveryFunc f record).out

/-- SEQ_GEN_WRITE (R180): a write of a generation record, the sequence generation reset. -/
def execSeqGenWrite (f : Nat) (record : List Byte) (s : State) : Out := (s.writeSeqGen f record).out

/-- LATENT_TEST (R188): a multiple of the latent test period. -/
def execLatentTest (f : Nat) (s : State) : Out :=
  if State.functionCount ≤ f then .next s
  else if s.latentTestDue f then .next (s.latentTest f) else .next s

/-- LATENT_RESET (R188): a multiple of the latent reset period; a test in the same clock runs first. -/
def execLatentReset (f : Nat) (s : State) : Out :=
  if State.functionCount ≤ f then .next s
  else
    let x := s.recovery f
    if s.latentOn f ∧ s.msRunOut x.resetFrom (s.recoverField f 12 4) then
      let s1 := if s.latentTestDue f then s.latentTest f else s
      let s2 := s1.setRecovery f { s1.recovery f with resetFrom := x.resetFrom + State.ns (s.recoverField f 12 4 * 1000000) }
      .next ((s2.setRecoverField f 28 4 0).countRec Ix.latentResetCount 0 f 0 1)
    else .next s

/-- GUARANTEE_CLEAR (R198): 1 written to GUARANTEE_CLEAR. -/
def execGuaranteeClear (s : State) : Out := (s.writeGuaranteeClear 1).out

end Sys2Proof.Machine
end

