-- ==== Sys2Proof/Machine/Effects.lean ====
section
/-! DEFINITION. Owners of elements (R13), the elements present (R2, R10), and what a dictionary write that is not buffered does
in its owning island. -/

namespace Sys2Proof.Machine

/-! ### Owners (R13, R14) -/

/-- The island that owns an element, or record `r` of a TABLE owned record by record (R13, R170). -/
def ownerIsland (o : ObjDesc) (sub r : Nat) : Nat :=
  match o.own with
  | .island i => i
  | .laneOf => (sub - 1) / 32
  | .portOf => 16 + (sub - 1) / 32
  | .laneSector => sub - 1
  | .rigOf => 32 + (sub - 1)
  | .queueOf => if sub - 1 < 4096 then 16 + (sub - 1) / 256 else 52
  | .filterOf => 16 + r / 4096
  | .streamGateOf => 16 + (sub - 1) / 1024

/-- An object of the per-island arrays (R10). -/
def perIsland (o : ObjDesc) : Bool := o.cnt == .fixed 56

namespace State

/-- The highest subindex of an array, 0 for a scalar (R2, R10, R56, R72, R170). -/
def elementCount (s : State) (o : ObjDesc) : Nat :=
  match o.cnt with
  | .scalar => 0
  | .ports => 32 * s.sectors
  | .lanes => 32 * s.sectors
  | .sectors => s.sectors
  | .queues => 4128
  | .sources => 516
  | .streamGates => 1024 * s.sectors
  | .fixed n => n

/-- Subindex `sub` of an object is a scalar or an element that the variant has (R2, R10, R56, R72). -/
def elementPresent (s : State) (o : ObjDesc) (sub : Nat) : Bool :=
  match o.cnt with
  | .scalar => sub == 0
  | .queues => decide (1 ≤ sub ∧ sub ≤ 4128) && s.queuePresent (sub - 1)
  | .sources => decide (1 ≤ sub ∧ sub ≤ 516) && s.sourcePresent (sub - 1)
  | _ => decide (1 ≤ sub ∧ sub ≤ s.elementCount o)

/-- A write may reach the element: elements of absent islands take none (R10). -/
def elementWritable (s : State) (o : ObjDesc) (sub : Nat) : Bool :=
  s.elementPresent o sub && (!perIsland o || s.islandPresent (sub - 1))

/-! ### Effects of scalars and elements that are RW or WO -/

/-- A write to one of CRING_BASE, CRING_SIZE and CRING_INDEX_ADDR (R328). -/
def writeCringSetup (s : State) (idx sub v : Nat) : Wr :=
  if s.regB Ix.cringEnable sub then (s, Abort.busy) else (s.setReg idx sub v, 0)

/-- A write to CRING_ENABLE (R328): enabling sets both indices to 0. -/
def writeCringEnable (s : State) (sub v : Nat) : Wr :=
  let s1 := s.setReg Ix.cringEnable sub v
  if v = 1 ∧ s.regB Ix.cringEnable sub = false then (s1.setCring (sub - 1) {}, 0) else (s1, 0)

/-- A write to CH_TABLE_BASE (R329). -/
def writeChTableBase (s : State) (v : Nat) : Wr :=
  if s.cachedChannels ≠ [] then (s, Abort.busy) else (s.setReg Ix.chTableBase 0 v, 0)

/-- A write to CORMUS_KEY (R378): the key's counter is 0. -/
def writeCormusKey (s : State) (k v : Nat) : Wr :=
  ({ s with
      co := { s.co with keys := tset s.co.keys k (leBytes 32 v) }
      nv := { s.nv with cormusCounters := terase s.nv.cormusCounters k } }, 0)

/-- Writes to objects at 3xxxh to 6xxxh that act beyond their value. -/
def effectMid (s : State) (idx sub v : Nat) : Wr :=
  if idx = Ix.tsCalibrate then s.writeTsCalibrate (sub - 1) v
  else if idx = Ix.laneAnchorRetake then s.writeAnchorRetake (sub - 1) v
  else if idx = Ix.programLoad then s.writeProgramLoad v
  else if idx = Ix.programDefault then s.writeProgramDefault v
  else if idx = Ix.queueSamplePeriod then s.writeSampling idx 100 1000000000 v
  else if idx = Ix.queueSampleWindow then s.writeSampling idx 1 1000000 v
  else if idx = Ix.queueHistBase then s.writeSampling idx 1 1000000 v
  else if idx = Ix.streamGateReopen then s.writeStreamGateReopen (sub - 1) v
  else if idx = Ix.recoveryReset then s.writeRecoveryReset v
  else (s.setReg idx sub v, 0)

/-- Writes to objects at 7xxxh that act beyond their value. -/
def effectTime (s : State) (idx sub v : Nat) : Wr :=
  if idx = Ix.timeSnapshot then s.writeTimeSnapshot v
  else if idx = Ix.timeSet then s.writeTimeSet (sub - 1) v
  else if idx = Ix.timeAdjust then s.writeTimeAdjust (sub - 1) (toSigned 64 v)
  else if idx = Ix.timeSlew then s.writeTimeSlew (sub - 1) (toSigned 64 v)
  else if idx = Ix.timeRateSet then s.writeTimeRateSet (sub - 1) (toSigned 64 v)
  else (s.setReg idx sub v, 0)

/-- Writes to objects at 9xxxh that act beyond their value. -/
def effectHost (s : State) (idx sub v : Nat) : Wr :=
  if idx = Ix.cringEnable then s.writeCringEnable sub v
  else if idx = Ix.cringBase ∨ idx = Ix.cringSize ∨ idx = Ix.cringIndexAddr then s.writeCringSetup idx sub v
  else if idx = Ix.chTableBase then s.writeChTableBase v
  else if idx = Ix.chInvalidate then s.writeChInvalidate v
  else if idx = Ix.chAbort then s.writeChAbort v
  else if idx = Ix.chRestart then s.writeChRestart (sub - 1) v
  else if idx = Ix.chShadowArm then s.writeChShadowArm (sub - 1) v
  else (s.setReg idx sub v, 0)

/-- Writes to objects from Axxxh on that act beyond their value. -/
def effectHigh (s : State) (idx sub v : Nat) : Wr :=
  if idx = Ix.memChRestore then s.writeMemChRestore (sub - 1) v
  else if idx = Ix.fwCommand then s.writeFwCommand v
  else if idx = Ix.cormusKey then s.writeCormusKey (sub - 1) v
  else if idx = Ix.quoteRequest then s.writeQuoteRequest v
  else (s.setReg idx sub v, 0)

/-- A RW or WO scalar or element is written in its owning island (R361). -/
def effectRW (s : State) (idx sub v : Nat) : Wr :=
  let r := idx / 4096
  if r = 2 then (if idx = Ix.guaranteeClear then s.writeGuaranteeClear v else (s.setReg idx sub v, 0))
  else if r < 7 then s.effectMid idx sub v
  else if r = 7 then s.effectTime idx sub v
  else if r = 9 then s.effectHost idx sub v
  else s.effectHigh idx sub v

/-! ### Effects of records -/

/-- A meter record is written (R161): levels are kept, cut to the new sizes; setting bit 5 from 0 fills them; bit 3 is cleared
by 0 only. -/
def writeMeter (s : State) (m : Nat) (r : List Byte) : Wr :=
  let x := s.meterNow m
  let old := s.meterField m 16 1
  let flags := leField r 16 1
  let kept := if bit flags 3 ∧ bit old 3 = false then clearBit flags 3 else flags
  let s1 := s.setRecField Ix.meter 0 m 0 24 (leField r 0 16 + kept * 2 ^ 128)
  let cbs := leField r 4 4 * levelUnit
  let ebs := leField r 12 4 * levelUnit
  let fill := bit flags 5 && !bit old 5
  (s1.setMeter m ⟨if fill then cbs else min x.tc cbs, if fill then ebs else min x.te ebs, s.rawTotal⟩, 0)

/-- One unit of the user area is written (R424). -/
def writeNvUser (s : State) (r v : Nat) : Wr :=
  if s.nvHeld then (s, Abort.busy)
  else (({ s with nv := { s.nv with user := tput 0 s.nv.user r v } }).count Ix.nvBytesWritten 0 32, 0)

/-- Record `r` of a RW TABLE is written in its owning island, its conditions checked. -/
def effectRec (s : State) (idx sub r : Nat) (bytes : List Byte) : Wr :=
  if idx = Ix.xmEntry then s.writeXmRecord (sub - 1) bytes
  else if idx = Ix.seqGen then s.writeSeqGen r bytes
  else if idx = Ix.recoveryFunc then s.writeRecoveryFunc r bytes
  else if idx = Ix.meter then s.writeMeter r bytes
  else if idx = Ix.tcEntry then (s.setRecord Ix.tcEntry 0 (s.reg Ix.tcPartFirst sub + r) (leNat bytes), 0)
  else if idx = Ix.nvUser then s.writeNvUser r (leNat bytes)
  else (s.setRecord idx sub r (leNat bytes), 0)

end State
end Sys2Proof.Machine
end

