-- ==== Sys2Proof/Machine/Apply.lean ====
section
/-! DEFINITION. The apply: an island's pending writes take effect in one clock (R18), and what that makes of its lanes, ports,
gates, shapers, tables, domains, rings and units. -/

namespace Sys2Proof.Machine

/-- Some pending write is of an object for which `p` holds at subindex `sub`. -/
def pendAny (l : List PendWrite) (p : Nat → Nat → Bool) : Bool := l.any fun w => p w.idx w.sub

/-- The subindices at which a pending write is of one of the objects `ixs`, each once. -/
def pendSubs (l : List PendWrite) (ixs : List Nat) : List Nat :=
  ((l.filter fun w => ixs.contains w.idx).map PendWrite.sub).eraseDups

/-- The pending writes of gate `k` bring new values of its schedule (R139, R144). -/
def renewsGate (l : List PendWrite) (k : Nat) : Bool :=
  let objects := scheduleIxs.filter fun i => (gateIxs.contains i) == decide (k < 512)
  l.any fun w => objects.contains w.idx && w.sub == gateSub k

/-- Objects of a queue's shapers (R152 to R154). -/
def shaperIxs : List Nat :=
  [Ix.cbsEnable, Ix.cbsIdleSlope, Ix.tbEnable, Ix.tbRate, Ix.tbBurst, Ix.shaperForgive]

/-- Objects of a pin's configuration (R228). -/
def pinIxs : List Nat :=
  [Ix.tioMode, Ix.tioDomain, Ix.tioStart, Ix.tioPeriod, Ix.tioWidth, Ix.tioConfig, Ix.tioEvent, Ix.tioOutDelay]

/-- Objects that decide a domain's port states (R224, R282). -/
def ptpIxs : List Nat :=
  [Ix.timeRole, Ix.timeProfile, Ix.timePtpDomainNumber, Ix.timeTransport, Ix.timeTwoStep, Ix.timePriority1, Ix.timePriority2,
    Ix.timeClockClass, Ix.timeClockAccuracy]

/-- Objects of a domain's quorum (R283). -/
def quorumIxs : List Nat := [Ix.quorumEnable, Ix.quorumMemberId, Ix.quorumWeights, Ix.quorumTiebreak]

/-- Objects whose apply makes a ring compute its first cycle (R251). -/
def ringStartIxs : List Nat :=
  [Ix.henayBaseTime, Ix.henayCycleTime, Ix.henayDomain, Ix.henayOutPort, Ix.henayInPort, Ix.henayTopology]

/-- TABLEs of open length (R259, R260, R289). -/
def openTable (idx : Nat) : Bool :=
  idx == Ix.henayGatherList || idx == Ix.henayScatterList || idx == Ix.henaySafeImage || idx == Ix.henayPtGatherList ||
    idx == Ix.henayPtScatterList

namespace State

/-! ### Values -/

/-- A record of a TABLE takes effect; one of open length reaches at least to it. -/
def putRecord_ (s : State) (idx sub : Nat) (e : Nat × Nat) : State :=
  let s1 := s.setRecord idx sub e.1 e.2
  if openTable idx then { s1 with lens := tput 0 s1.lens (dictKey idx sub) (max (s1.tableLen idx sub) (e.1 + 1)) } else s1

/-- A TABLE is emptied. -/
def clearRecords (s : State) (idx sub : Nat) : State :=
  { s with tabs := s.tabs.filter fun e => e.1 / 16777216 != dictKey idx sub, lens := terase s.lens (dictKey idx sub) }

/-- One pending write takes effect: a buffered value, or a write that R31 held back. -/
def putPending (s : State) (w : PendWrite) : State :=
  match objAt w.idx with
  | none => s
  | some o =>
    if o.acc = .rwb then
      if o.ty.isTable then
        let s0 := if w.recs.any fun e => e.1 == emptyMark then s.clearRecords w.idx w.sub else s
        (w.recs.filter fun e => e.1 != emptyMark).foldl (fun t e => t.putRecord_ w.idx w.sub e) s0
      else w.recs.foldl (fun t e => t.setReg w.idx w.sub e.2) s
    else if o.ty.isTable then w.recs.foldl (fun t e => (t.effectRec w.idx w.sub e.1 (leBytes o.ty.width e.2)).1) s
    else w.recs.foldl (fun t e => (t.effectRW w.idx w.sub e.2).1) s

/-- The pending values of a whole store take effect in order. -/
def putAll (s : State) (l : List PendWrite) : State := l.foldl putPending s

/-! ### Lane islands (R32 to R35, R394, R397, R408) -/

/-- The ports of a sector are formed in ascending order (R34): `pend` holds the modes just applied. -/
def formPorts (pend : List PendWrite) : State → List Nat → Nat → State
  | s, [], _ => s
  | s, p :: ps, taken =>
    let mode := s.reg Ix.portMode (p + 1)
    if 0 < taken then
      let s1 := s.setReg Ix.portMode (p + 1) 8
      let s2 := if pendAny pend fun i b => i == Ix.portMode && b == p + 1 then
          s1.event Ix.portMode 1 (p / 32) [(2, p)] else s1
      formPorts pend s2 ps (taken - 1)
    else
      let s1 := if mode = 8 then s.setReg Ix.portMode (p + 1) 0 else s
      formPorts pend s1 ps (modeLanes mode - 1)

/-- The FEC in use (R35). -/
def fecActive (s : State) (p : Nat) : Nat :=
  let mode := s.reg Ix.portMode (p + 1)
  if mode = 4 ∨ mode = 5 ∨ mode = 6 ∨ mode = 7 then 2
  else if mode = 3 ∧ s.reg Ix.portFec (p + 1) = 1 then 1 else 0

def showFec (s : State) (p : Nat) : State := s.setReg Ix.portFecActive (p + 1) (s.fecActive p)

/-- A lane whose port, mode, presets, polarity or test differs between two states goes through OFF. -/
def laneConcerned (s t : State) (l : Nat) : Bool :=
  s.lanePort l != t.lanePort l || s.laneMode l != t.laneMode l ||
    s.reg Ix.laneTxFfe (l + 1) != t.reg Ix.laneTxFfe (l + 1) ||
    s.reg Ix.lanePolarity (l + 1) != t.reg Ix.lanePolarity (l + 1) ||
    s.reg Ix.laneTestMode (l + 1) != t.reg Ix.laneTestMode (l + 1)

/-- An apply at lane island `k`: lanes concerned leave their state under the old values and come back under the new. -/
def applyLanes (s : State) (k : Nat) (pend : List PendWrite) : State :=
  let ports := sectorPorts k
  let form (t : State) : State := ports.foldl showFec (formPorts pend (t.putAll pend) ports 0)
  let ls := (sectorLanes k).filter (s.laneConcerned (form s))
  let s1 := ls.foldl laneOff (ls.foldl settlePort s)
  ((sectorLanes k).foldl settleLane (form s1)).settlePorts s ports

/-! ### Port islands and shapers (R46, R139, R152 to R154, R403) -/

/-- A debt is forgiven where the rate changed (R154), and a bucket just enabled is full (R153). -/
def applyShaper (old : State) (s : State) (q : Nat) : State :=
  let x := s.shaper q
  let forgive := s.regB Ix.shaperForgive (q + 1)
  let slope := old.reg Ix.cbsIdleSlope (q + 1) != s.reg Ix.cbsIdleSlope (q + 1)
  let rate := old.reg Ix.tbRate (q + 1) != s.reg Ix.tbRate (q + 1)
  let credit := if forgive ∧ slope then max x.credit 0 else x.credit
  let level := if forgive ∧ rate then max x.level 0 else x.level
  let full := s.regB Ix.tbEnable (q + 1) && !old.regB Ix.tbEnable (q + 1)
  s.setShaper q { x with credit := credit, level := if full then (s.reg Ix.tbBurst (q + 1) : Int) * shaperUnit else level }

/-- PMAC_ENABLE is rewritten (R46): verification stands at INITIAL, or is DISABLED. -/
def applyPmac (s : State) (p : Nat) : State :=
  let s1 := s.setPmac p { s.pmac p with attempts := 0 }
  s1.setReg Ix.pmacVerifyStatus (p + 1) (if s1.regB Ix.pmacEnable (p + 1) then 1 else 0)

/-! ### Checks of rings (R42, R258, R272) -/

/-- A ring's configuration is checked (R258), its start included (R251). -/
def checkRing (s : State) (m : Nat) (tr : Int) (starts : Bool) : State :=
  let t := s.ringTiming m
  let far := starts && decide (horizon < s.rawDelta t.dom (((t.base + s.firstCycle m tr * t.cycle : Nat) : Int) * 65536))
  let fault := match s.layoutFault m with
    | some f => some f
    | none => if far then some (12, 0) else none
  let f := fault.getD (0, 0)
  let s1 := (s.setReg Ix.henayLayoutStatus (m + 1) f.1).setReg Ix.henayLayoutAt (m + 1) f.2
  ((s1.setMring m { s1.mring m with bad := fault.isSome }).showRing m).noteBig m (f.1 == 9)

/-- Rings that fail for the length of a frame are checked again where a port's maximum has changed (R42). -/
def recheckBig (s : State) (m : Nat) : State :=
  if s.regB Ix.henayRingEnable (m + 1) ∧ s.reg Ix.henayLayoutStatus (m + 1) = 9 then s.checkRing m 0 false else s

/-- An apply at port island 16 + `k`. -/
def applyPorts (s : State) (pend : List PendWrite) (target : Option Raw) : State :=
  let ports := ((pendSubs pend [Ix.portLengthOverhead, Ix.portMaxFrame, Ix.gateEnable, Ix.gateInitialStates, Ix.gateAdminList]).map
    (· - 1)) ++ (pendSubs pend shaperIxs).map fun b => (b - 1) / 8
  let s0 := ports.eraseDups.foldl settlePort s
  let s1 := s0.putAll pend
  let s2 := (pendSubs pend shaperIxs).foldl (fun t b => applyShaper s0 t (b - 1)) s1
  let renew (k : Nat) : Bool := renewsGate pend k || !s.gateEnabled k
  let s3 := (pendSubs pend gateIxs).foldl
    (fun t b => (t.applyGateWrites (b - 1) target (renew (b - 1))).countOverruns (b - 1)) s2
  let s4 := (pendSubs pend streamGateIxs).foldl
    (fun t b => t.applyGateWrites (512 + (b - 1)) target (renew (512 + (b - 1)))) s3
  let s5 := (pendSubs pend [Ix.pmacEnable]).foldl (fun t b => t.applyPmac (b - 1)) s4
  let doms := pendSubs pend [Ix.ptpPortDomains]
  let s6 := if doms = [] then s5 else s5.decideAll
  let s7 := if pendSubs pend [Ix.portMaxFrame] = [] then s6 else (List.range 16).foldl recheckBig s6
  (pendSubs pend [Ix.portTxSleepEnable]).foldl
    (fun t b => if t.regB Ix.portTxSleepEnable b then t else t.wakePort (b - 1)) s7

/-! ### The buffer island (R64, R75, R129) -/

/-- A new hold limit meets the time already elapsed (R64). -/
def applyHold (s : State) (p : Nat) : State :=
  let x := s.holdTimer p
  if x.running ∧ s.holdReached p then s.expireHold p else s

/-- The program switch (R129). The declarations are judged by the geometry this apply leaves: that pending in table island A
where the two islands are in one apply group, else that in force. -/
def applySwitch (s : State) : State :=
  let s0 := s.setReg Ix.programSwitch 0 0
  let refuse := s0.event Ix.programStatus 3 48 []
  match s0.rg.progs.pending with
  | none => refuse
  | some p =>
    let together := s0.reg Ix.applyGroup 49 == s0.reg Ix.applyGroup 50
    if s0.reg Ix.programStatus 0 ≠ 2 ∨ (declList p.decls).any (fun d => !s0.declHolds together d) then refuse
    else
      let x := s0.rg.progs
      let s1 := (s0.setProgs { x with active := p, old := some x.active, pending := none }).count32 Ix.programEpoch 0 1
      let s2 := (s1.setReg Ix.programPendingDigest 0 0).setReg Ix.programStatus 0 3
      ((List.range s2.sectors).foldl fillScratch s2).switchDrained

/-- A source's handles from now on belong to a new order setting (R75). -/
def newOrderSetting (s : State) (i : Nat) : State :=
  { s with fr := { s.fr with orderGens := tput 0 s.fr.orderGens i (tgetD s.fr.orderGens i 0 + 1) } }

/-- An apply at the buffer island. -/
def applyBuffer (s : State) (pend : List PendWrite) : State :=
  let switch := pend.any fun w => w.idx == Ix.programSwitch && w.recs.any fun e => e.2 == 1
  let s1 := s.putAll pend
  let s2 := (pendSubs pend [Ix.portHoldLimit]).foldl (fun t b => t.applyHold (b - 1)) s1
  let s3 := (pendSubs pend [Ix.orderMode, Ix.flowHashFields]).foldl (fun t b => t.newOrderSetting (b - 1)) s2
  if switch then s3.applySwitch else s3

/-! ### Table island A (R113, R114) -/

/-- Ageing of table `t` starts: every entry counts as marked (R114). -/
def startAgeing (s : State) (t : Nat) : State :=
  let x := s.xmTable t
  s.setXm t { x with t0 := s.rawTotal, aged := [], entries := x.entries.map fun e => (e.1, { e.2 with marked := true }) }

/-- An apply at table island A: a table whose geometry changes is cleared. -/
def applyTables (s : State) (pend : List PendWrite) : State :=
  let s1 := s.putAll pend
  let shape (b : Nat) : Bool :=
    s.reg Ix.xmKeyBits b != s1.reg Ix.xmKeyBits b || s.reg Ix.xmCapacity b != s1.reg Ix.xmCapacity b
  let changed := (pendSubs pend [Ix.xmKeyBits, Ix.xmCapacity]).filter shape
  let s2 := changed.foldl (fun t b => t.setXm (b - 1) { t.xmTable (b - 1) with entries := [] }) s1
  (pendSubs pend [Ix.xmAgeTime]).foldl (fun t b => if t.reg Ix.xmAgeTime b = 0 then t else t.startAgeing (b - 1)) s2

/-! ### The meridian (R212, R218, R224, R228, R282, R291) -/

/-- A domain's source has changed (R212): nothing learned of the paths of the old one stays. At the start-up apply every domain
stays in FREE_RUN (R470). -/
def applySource (s0 : State) (d : Nat) : State :=
  let s := s0.forgetPaths d
  if s.reg Ix.startPhase 0 < 3 then s
  else if s.reg Ix.servoSource (d + 1) = 0 then s.enterFreeRun d
  else if s.domState d = 4 then s
  else s.enterHoldover d 3

/-- A silenced domain whose rule has been turned off opens its gates (R291). -/
def applySilence (s : State) (d : Nat) : State :=
  if s.reg Ix.silenceThreshold (d + 1) = 0 ∧ s.regB Ix.silenceState (d + 1) then s.setSilence d 0
  else (s.silencedPorts d).foldl countOverruns s

/-- An apply at the meridian. -/
def applyTime (s : State) (pend : List PendWrite) : State :=
  let subs (ixs : List Nat) : List Nat := (pendSubs pend ixs).map (· - 1)
  let hushed := (subs [Ix.silenceThreshold, Ix.silenceClasses])
  let s0 := (hushed.flatMap s.silencedPorts).foldl settlePort s
  let s1 := s0.putAll pend
  let sourceChanged (d : Nat) : Bool :=
    s.reg Ix.servoSource (d + 1) != s1.reg Ix.servoSource (d + 1) ||
      s.reg Ix.servoSourceSel (d + 1) != s1.reg Ix.servoSourceSel (d + 1)
  let s2 := ((subs [Ix.servoSource, Ix.servoSourceSel]).filter sourceChanged).foldl applySource s1
  let altChanged (d : Nat) : Bool := s.reg Ix.servoAltPort (d + 1) != s1.reg Ix.servoAltPort (d + 1)
  let s3 := ((subs [Ix.servoAltPort]).filter altChanged).foldl forgetAlt s2
  let s4 := (subs [Ix.servoSlewLimit]).foldl sendRate s3
  let s5 := (subs ptpIxs).foldl decidePorts s4
  let s6 := (subs quorumIxs).foldl (fun t d => (t.judgeQuorum d).decidePorts d) s5
  let s7 := hushed.foldl applySilence s6
  (subs pinIxs).foldl applyPin s7

/-! ### The host island (R153, R344) -/

/-- An apply at the host island. -/
def applyHost (s : State) (pend : List PendWrite) : State :=
  let qs := (pendSubs pend shaperIxs).map (· - 1)
  let s0 := qs.foldl settleQueue s
  let s1 := qs.foldl (applyShaper s0) (s0.putAll pend)
  if pendSubs pend [Ix.dmaMode] ≠ [] ∧ s1.reg Ix.dmaMode 0 ≠ s1.dmaMode then
    { s1 with ho := { s1.ho with dmaNext := some (s1.reg Ix.dmaMode 0) } }
  else s1

/-! ### The ring island (R241, R251, R258, R264, R276) -/

/-- An apply that reaches ring `m`; `old` is the state before it. A change of its timing or ports lets the cycle in flight
return before cycling goes on (R251); a slot that was claimed keeps its room until its record is rewritten (R258, R265). -/
def applyRing (old : State) (pend : List PendWrite) (target : Option Raw) (s : State) (m : Nat) : State :=
  let on := s.regB Ix.henayRingEnable (m + 1)
  let was := old.regB Ix.henayRingEnable (m + 1)
  let mine (ixs : List Nat) : Bool := pendAny pend fun i b => b == m + 1 && ixs.contains i
  let relaid := mine [Ix.henayLayout, Ix.henayLayoutCount]
  let x := s.mring m
  let kept := if relaid then [] else x.kept
  if on = false then if was ∨ relaid then (s.setMring m { gen := x.gen, kept := kept }).setMode m 0 else s
  else
    let tr := s.syncAt (s.ringTiming m).dom (target.getD s.raw)
    let s1 := if was = false then s.setMring m { gen := x.gen + 1, kept := kept }
      else if relaid then s.setMring m { x with gen := x.gen + 1, kept := [], present := [] } else s
    let restarts := mine ringStartIxs
    let s2 := s1.checkRing m tr (was = false || restarts)
    if was = false then (((s2.ringPorts m).filter s2.portFormed).foldl wakePort s2).standBy m
    else if restarts then s2.setMring m { s2.mring m with first := s2.firstCycle m tr, lastGather := none, lastSent := none, gathered := none, era := x.era + 1 }
    else s2

/-- An apply that reaches pair `k`. -/
def applyPair (old : State) (s : State) (k : Nat) : State :=
  let on := s.regB Ix.henayPtEnable (k + 1)
  let was := old.regB Ix.henayPtEnable (k + 1)
  let claim := bit (s.reg Ix.henayPtClaim (k + 1)) 31 && on
  let s0 := if claim then (if s.claimState k = 0 then s.setReg Ix.henayPtClaimState (k + 1) 1 else s)
    else s.setReg Ix.henayPtClaimState (k + 1) 0
  if on = false then (if was then s0.setPtPair k {} else s0)
  else if was then s0
  else if s0.pairPortsOk k then
    ((s0.pairPorts k).filter s0.portFormed).foldl wakePort (s0.setPtPair k { enabled := true })
  else (s0.setPtPair k {}).event Ix.henayInPort 1 ringIsland []

/-- An enabled ring whose watch pair's ports an apply has changed is checked again, unless the apply has reached the ring
itself (R272). -/
def recheckWatch (pend : List PendWrite) (s : State) (m : Nat) : State :=
  match s.watchPair m with
  | some k =>
    if s.regB Ix.henayRingEnable (m + 1) ∧ pendAny pend (fun i b => b == k + 1 && [Ix.henayPtPortA, Ix.henayPtPortB].contains i) then
      s.checkRing m 0 false
    else s
  | none => s

/-- An apply at the ring island. -/
def applyRings (s : State) (pend : List PendWrite) (target : Option Raw) : State :=
  let s1 := s.putAll pend
  let rings := ((List.range 16).filter fun m => pendAny pend fun i b => decide (i < 0x8100) && b == m + 1)
  let pairs := ((List.range 256).filter fun k => pendAny pend fun i b => decide (0x8100 ≤ i ∧ i < 0x8200) && b == k + 1)
  let s2 := rings.foldl (applyRing s pend target) s1
  let s3 := pairs.foldl (applyPair s) s2
  ((List.range 16).filter fun m => !rings.contains m).foldl (recheckWatch pend) s3

/-! ### The supervisor island (R123, R387) -/

/-- The management port's mode follows its enables (R387). -/
def showT1s (s : State) : State :=
  s.setReg Ix.t1sMode 0
    (if s.regB Ix.t1sEnable 0 = false then 0
     else if s.regB Ix.t1sPlcaEnable 0 ∧ s.mp.fellBack = false then 1 else 2)

/-- The flow store is cleared (R123): `n` entries of 128 bytes read 0. -/
def clearFlows (s : State) (n : Nat) : State :=
  let lo := s.mm.mirror
  let hi := s.mm.mirror + 128 * n
  let inside (a : Nat) : Bool := decide (lo ≤ a) && decide (a < hi)
  let written (c : Nat) : List Nat := ((List.range (2 * n)).map (lo / 64 + ·)).filter fun w => s.memChannel (64 * w) == c
  { s with
    mm := { s.mm with
      lpddr := s.mm.lpddr.filter fun c => !inside c.1
      poison := s.mm.poison.map fun (e : Nat × List Nat) => (e.1, e.2 ++ (written e.1).filter fun w => !e.2.contains w)
      badWords := s.mm.badWords.filter fun w => !inside (64 * w) } }

/-- An apply at the supervisor island. -/
def applySupervisor (s : State) (pend : List PendWrite) : State :=
  let s1 := s.putAll pend
  let s2 := if pendSubs pend [Ix.t1sEnable, Ix.t1sPlcaEnable, Ix.t1sPlcaNodeId] = [] then s1
    else ({ s1 with mp := { s1.mp with fellBack := false, beacon := s1.rawTotal } }).showT1s
  if s.reg Ix.surveyFlowBits 0 = s2.reg Ix.surveyFlowBits 0 then s2
  else s2.clearFlows (2 ^ max (s.reg Ix.surveyFlowBits 0) (s2.reg Ix.surveyFlowBits 0))

/-! ### The apply (R18) -/

/-- Every write pending in island `i` takes effect in one clock, and its pending store is empty. `target` is the raw target of
a scheduled strobe. -/
def applyIsland (s : State) (i : Nat) (target : Option Raw) : State :=
  let pend := (s.island i).pend
  if pend = [] then s
  else
    let s0 := s.setIsland i { s.island i with pend := [] }
    if i < 16 then s0.applyLanes i pend
    else if i < 32 then s0.applyPorts pend target
    else if i < 48 then s0.putAll pend
    else if i = 48 then s0.applyBuffer pend
    else if i = 49 then s0.applyTables pend
    else if i = 51 then s0.applyTime pend
    else if i = 52 then s0.applyHost pend
    else if i = 54 then s0.applyRings pend target
    else if i = 55 then s0.applySupervisor pend
    else s0.putAll pend

end State
end Sys2Proof.Machine
end

