-- ==== Sys2Proof/Machine/Checks.lean ====
section
/-! DEFINITION. What a dictionary write is checked for: stated ranges (R360, R380), combinations with other objects, and the
conditions on records (R503). -/

namespace Sys2Proof.Machine

/-- A value lies in the object's stated range (R360: BOOL holds 0 or 1). -/
def rangeOk (o : ObjDesc) (v : Nat) : Bool :=
  let x : Int := match o.ty with
    | .i w => toSigned (8 * w) v
    | _ => v
  match o.rng with
  | .any => true
  | .within lo hi => decide (lo ≤ x ∧ x ≤ hi)
  | .withinOr lo hi alt => decide (lo ≤ x ∧ x ≤ hi) || x == alt

/-- Every nibble of a U32 is at most 7 (R55). -/
def nibblesOk (v : Nat) : Bool := (List.range 8).all fun n => decide (v / 16 ^ n % 16 ≤ 7)

/-- A LANE_TX_FFE value (R394). -/
def ffeOk (v : Nat) : Bool :=
  let c (i : Nat) : Int := toSigned 8 (v / 256 ^ i % 256)
  v == 0 || (decide (32 ≤ c 2 ∧ c 2 ≤ 64) && ([0, 1, 3].all fun i => decide (-24 ≤ c i ∧ c i ≤ 24)) &&
    decide (c 2 + (c 0).natAbs + (c 1).natAbs + (c 3).natAbs ≤ 64))

/-- A HENAY_PT_CLAIM value (R264, R270): wanted length and command in their ranges, or 0 while the claim is off. -/
def claimValueOk (v : Nat) : Bool :=
  let len := v % 8192
  let cmd := v / 65536 % 16
  let off := !bit v 31
  ((off && len == 0) || decide (8 ≤ len ∧ len ≤ 4096)) && ((off && cmd == 0) || decide (1 ≤ cmd ∧ cmd ≤ 3)) &&
    v / 8192 % 8 == 0 && v / 1048576 % 2048 == 0

/-- A time value's nanoseconds (R205). -/
def time80Ok (v : Nat) : Bool := decide (v % 4294967296 < 1000000000)
def time96Ok (v : Nat) : Bool := decide (v / 65536 % 4294967296 < 1000000000)

namespace State

/-- The value an element will hold after its island's apply. -/
def afterApply (s : State) (idx sub : Nat) : Nat :=
  match objAt idx with
  | some o => s.pendReg (ownerIsland o sub 0) idx sub
  | none => 0

/-! ### Combinations -/

/-- The capacities of the used exact-match tables, with `key` and `cap` in place at `sub`, fit the memory (R113). -/
def xmSumOk (s : State) (sub : Nat) (key cap : Option Nat) : Bool :=
  decide (((List.range 64).map fun t =>
    let b := if t + 1 = sub then key.getD (s.afterApply Ix.xmKeyBits sub) else s.afterApply Ix.xmKeyBits (t + 1)
    let c := if t + 1 = sub then cap.getD (s.afterApply Ix.xmCapacity sub) else s.afterApply Ix.xmCapacity (t + 1)
    if b = 0 then 0 else c).sum ≤ 2097152)

/-- Partition `k`, as it will stand, from its first entry to the one behind its last. -/
def tcSpan (s : State) (sub : Nat) (first size : Option Nat) (k : Nat) : Nat × Nat :=
  let f := if k + 1 = sub then first.getD (s.afterApply Ix.tcPartFirst sub) else s.afterApply Ix.tcPartFirst (k + 1)
  let n := if k + 1 = sub then size.getD (s.afterApply Ix.tcPartSize sub) else s.afterApply Ix.tcPartSize (k + 1)
  (f, if n = 0 then f else f + n)

/-- No two ternary partitions overlap, and none runs past entry 65,535 (R116). -/
def tcOk (s : State) (sub : Nat) (first size : Option Nat) : Bool :=
  let p := s.tcSpan sub first size
  let mine := p (sub - 1)
  decide (mine.2 ≤ 65536) && (List.range 16).all fun k =>
    k + 1 == sub || decide ((p k).2 ≤ mine.1) || decide (mine.2 ≤ (p k).1) || (p k).1 == (p k).2 || mine.1 == mine.2

/-- The shared pool keeps 16,384 cells once `q` has a guard of `v` cells, or the intake pool has (R61). -/
def poolOk (s : State) (q : Option Nat) (v : Nat) : Bool :=
  let subs := ((s.dict.filter fun (e : Nat × Nat) => e.1 / 65536 == Ix.queueGuardCells).map fun (e : Nat × Nat) => e.1 % 65536) ++
    (s.isl.islands.flatMap fun (e : Nat × Island) => (e.2.pend.filter fun w => w.idx == Ix.queueGuardCells).map PendWrite.sub)
  let others := ((subs.eraseDups.filter fun b => some b != q).map fun b => s.afterApply Ix.queueGuardCells b).sum
  let intake := if q.isNone then v else s.afterApply Ix.guardIntakeCells 0
  decide (others + intake + (if q.isSome then v else 0) + s.fr.quarantine.length + 16384 ≤ cellCount)

/-- Grade maximum in °C (R3). -/
def gradeMax (s : State) : Nat := if s.gradeI then 105 else 100

/-- Conditions of elements at 1xxxh to 3xxxh. -/
def specialLow (idx sub v : Nat) : Bool :=
  if idx = Ix.deviceMacBase then beNat (leBytes 6 v) % 1024 == 0
  else if idx = Ix.applyTime then time80Ok v
  else if idx = Ix.portMode then
    (v != 6 || (sub - 1) % 2 == 0) && (v != 7 || (sub - 1) % 4 == 0)
  else if idx = Ix.portFec then decide (v ≤ 2)
  else if idx = Ix.portPcpToTc then nibblesOk v
  else if idx = Ix.laneTxFfe then ffeOk v
  else true

/-- Conditions of elements at 4xxxh and 5xxxh. -/
def specialMid (s : State) (idx sub v : Nat) : Bool :=
  if idx = Ix.xmKeyBits then s.xmSumOk sub (some v) none
  else if idx = Ix.xmCapacity then s.xmSumOk sub none (some v)
  else if idx = Ix.tcPartFirst then s.tcOk sub (some v) none
  else if idx = Ix.tcPartSize then s.tcOk sub none (some v)
  else if idx = Ix.guardIntakeCells then s.poolOk none v
  else if idx = Ix.queueGuardCells then s.poolOk (some sub) v
  else if idx = Ix.gateBaseTime ∨ idx = Ix.streamGateBaseTime then time80Ok v
  else if idx = Ix.cbsEnable then decide (sub - 1 < 4096) || v == 0
  else true

/-- Conditions of elements at 7xxxh and 8xxxh. -/
def specialTime (s : State) (idx sub v : Nat) : Bool :=
  if idx = Ix.timeSet ∨ idx = Ix.tioStart then time96Ok v
  else if idx = Ix.timePtpDomainNumber then s.afterApply Ix.timeProfile sub != 0 || decide (v ≤ 127)
  else if idx = Ix.returnThreshold then decide (v ≤ s.afterApply Ix.silenceThreshold sub)
  else if idx = Ix.quorumAge then decide (2 * s.afterApply Ix.rollPeriod sub ≤ v)
  else if idx = Ix.henayBaseTime ∨ idx = Ix.henayPtBaseTime then time80Ok v
  else if idx = Ix.henayGatherLead then decide (v ≤ s.afterApply Ix.henayCycleTime sub)
  else if idx = Ix.henayRefDivider ∨ idx = Ix.henayPtSampleDivider then isPow2 v && decide (v ≤ 32768)
  else if idx = Ix.henayStatusSlots then isPow2 v
  else if idx = Ix.henayPtClaim then claimValueOk v
  else if idx = Ix.henaySource then (if bit v 15 then bits v 14 8 == 0 else decide (v < 16))
  else true

/-- Conditions of elements from 9xxxh on. -/
def specialHigh (s : State) (idx sub v : Nat) : Bool :=
  if idx = Ix.hostPortHomeSector then decide (v < s.sectors)
  else if idx = Ix.cringBase then v % 32 == 0
  else if idx = Ix.cringIndexAddr then v % 64 == 0
  else if idx = Ix.cringSize then isPow2 v
  else if idx = Ix.chTableBase then v % 128 == 0
  else if idx = Ix.memMirrorSize then
    v % 16 == 0 && decide (v * 1048576 ≤ 4 * dataBytes (densityBytes (s.reg Ix.memChDensity 0)))
  else if idx = Ix.railWarnPercent then decide (2 ≤ v ∧ v + 1 ≤ s.reg Ix.railResetPercent sub)
  else if idx = Ix.thermalWarn then decide (v ≤ s.gradeMax)
  else true

/-- A value may be written to an element: in its stated range, and in no refused combination. -/
def valueOk (s : State) (o : ObjDesc) (sub v : Nat) : Bool :=
  let r := o.idx / 4096
  rangeOk o v &&
    (if r < 4 then specialLow o.idx sub v
     else if r < 6 then s.specialMid o.idx sub v
     else if r = 7 ∨ r = 8 then s.specialTime o.idx sub v
     else s.specialHigh o.idx sub v)

end State

/-! ### Records (R503) -/

/-- An entry of a copy list (R117). -/
def copyEntryOk (e : Nat) : Bool := e / 1024 % 16 == 0 && decide (e % 1024 ≤ 515)

/-- An entry of a gate list (R140), and of a stream gate's list (R157). -/
def gateEntryOk (b : List Byte) : Bool := decide (leField b 5 1 ≤ 2) && leField b 6 2 == 0
def streamEntryOk (b : List Byte) : Bool := decide (leField b 4 1 ≤ 1) && decide (leField b 5 1 < 16) && leField b 6 2 == 0

/-- A record of STREAM_HANDLE (R174). -/
def streamHandleOk (b : List Byte) : Bool :=
  ([0, 4, 8].all fun i => leField b i 4 / 262144 % 8192 == 0) && leField b 12 4 / 65536 % 32768 == 0 &&
    ([16, 18].all fun i => leField b i 2 / 1024 % 32 == 0 && decide (leField b i 2 % 1024 ≤ 515)) &&
    decide (leField b 20 1 < 8) && decide (leField b 21 1 < 8) && decide (leField b 22 2 < 4096) && leField b 30 2 == 0

/-- A record of a ring's layout: the ranges and reserved bits of R258, the checks of its causes apart. -/
def layoutRecordOk (b : List Byte) : Bool :=
  decide (leField b 4 2 ≤ 4096) && ([1, 2, 3, 5].contains (leField b 6 1)) && decide (leField b 7 1 < 8) && leField b 10 6 == 0

/-- A record of METER (R161): bytes 24 to 31 are ignored. -/
def meterOk (b : List Byte) : Bool := leField b 17 7 == 0 && decide (leField b 16 1 < 64)

namespace State

/-- A record of STREAM_FILTER (R170). -/
def filterOk (s : State) (b : List Byte) : Bool :=
  decide (leField b 8 1 < 8) && leField b 9 7 == 0 &&
    (leField b 2 2 == 0xFFFF || decide (leField b 2 2 < 1024 * s.sectors)) &&
    (leField b 4 4 == 0xFFFFFFFF || decide (leField b 4 4 < 262144))

/-- A record may be written, the conditions that its own operation checks apart. -/
def recordOk (s : State) (idx : Nat) (b : List Byte) : Bool :=
  if idx = Ix.copyList then (List.range 64).all fun i => copyEntryOk (leField b (2 * i) 2)
  else if idx = Ix.gateAdminList then gateEntryOk b
  else if idx = Ix.streamGateAdminList then streamEntryOk b
  else if idx = Ix.streamFilter then s.filterOk b
  else if idx = Ix.streamHandle then streamHandleOk b
  else if idx = Ix.henayLayout then layoutRecordOk b
  else if idx = Ix.meter then meterOk b
  else if idx = Ix.tcEntry then decide (leField b 88 1 ≤ 1) && leField b 89 7 == 0
  else true

end State
end Sys2Proof.Machine
end

