-- ==== Sys2Proof/Machine/Islands.lean ====
section
/-! DEFINITION. Time beacons and time-lost islands (R15 to R17); immediate and scheduled apply strobes (R20 to R27). -/

namespace Sys2Proof.Machine

/-- The nominal period of the meridian reference in fifths of a ru (R201, R202). -/
def refPeriod5 (code : Nat) : Nat :=
  if code = 0 then 32768000 else if code = 1 then 13107200 else if code = 2 then 2621440 else 2097152

/-- 1,024 ns and 4,096 ns in ru (R15, R17). -/
def lostAfter : Nat := 268435456

/-- 39 h in ru of sync time (R23). -/
def farAhead : Int := 39 * 3600 * 65536000000000

namespace State

/-- The islands the variant has, in order of their numbers. -/
def islandsPresent (s : State) : List Nat := (List.range 56).filter s.islandPresent

/-- A strobe of group `g` finds island `i` in its group and not in reset: it applies (R18, R20), a fenced one (FAULTED) too. A
strobe that finds the island in reset changes nothing there (R31). -/
def strobeIsland (s : State) (i g : Nat) (target : Option Raw) : State :=
  if s.resetting i = false ∧ s.reg Ix.applyGroup (i + 1) = g then s.applyIsland i target else s

/-- An immediate strobe of group `g` is requested (R21, R27); its time is in the group's domain. -/
def startStrobe (s : State) (g : Nat) : State :=
  let x := s.group g
  s.setGroup g { x with strobes := x.strobes ++ [⟨s.islandsPresent, time80 (s.syncNow (s.reg Ix.applyDomain (g + 1)))⟩] }

/-- A write of a group mask to APPLY_NOW (R21). -/
def writeApplyNow (s : State) (mask : Nat) : Wr :=
  (((List.range 16).filter (bit mask ·)).foldl startStrobe s, 0)

/-- A write to APPLY_ARM (R23, R26, R502). -/
def writeApplyArm (s : State) (g v : Nat) : Wr :=
  let x := s.group g
  if 1 < v then (s, Abort.outOfRange)
  else if v = 0 then
    match x.armed with
    | some a =>
      if 0 ≤ s.dueBy a.raw then (s, 0)
      else (((s.setGroup g { x with armed := none }).setReg Ix.applyArm (g + 1) 0).setReg Ix.applyStatus (g + 1) 0, 0)
    | none => (s, 0)
  else if x.armed.isSome then (s, 0)
  else
    let d := s.reg Ix.applyDomain (g + 1)
    let v := s.reg Ix.applyTime (g + 1)
    let target := ofTime80 v
    let dt := s.rawDelta d target
    if horizon < dt ∨ farAhead < target - s.syncNow d then (s.setReg Ix.applyStatus (g + 1) 4, 0)
    else if dt < 0 then ((s.startStrobe g).setReg Ix.applyStatus (g + 1) 3, 0)
    else
      let a : Armed := { target := v, domain := d, raw := s.rawIn dt, held := [], unsent := s.islandsPresent, late := false }
      (((s.setGroup g { x with armed := some a }).setReg Ix.applyArm (g + 1) 1).setReg Ix.applyStatus (g + 1) 1, 0)

/-- The island is done with the target of group `g`; it applied late. -/
def settleTarget (s : State) (i g : Nat) (late : Bool) : State :=
  match (s.group g).armed with
  | none => s
  | some a =>
    let hit := late && !s.resetting i && s.reg Ix.applyGroup (i + 1) == g
    let b := { a with held := a.held.filter (· != i), unsent := a.unsent.filter (· != i), late := a.late || hit }
    (s.setGroup g { s.group g with armed := some b }).strobeIsland i g (some a.raw)

/-- Island `i` was time-lost when raw target `t` fell (R25). -/
def lostWhen (s : State) (i : Nat) (t : Raw) : Bool :=
  match (s.island i).lost with
  | none => false
  | some (e, none) => decide (0 ≤ (t - e).toInt)
  | some (e, some b) => decide (0 ≤ (t - e).toInt) && decide ((t - b).toInt < 0)

/-- Island `i` is time-lost no longer; a port island's gates move to the position of its time (R17, R145). -/
def findTime (s : State) (i : Nat) : State :=
  let x := s.island i
  let s1 := s.setIsland i { x with lost := x.lost.map fun e => (e.1, some s.raw) }
  if s1.timeLost i then
    ((tkeys s.eg.gates).filter fun k => gateIsland k == i).foldl landGate (s1.setIslandState i 3)
  else s1

/-- An immediate strobe of group `g` has reached every island (R21, R27). -/
def completeStrobe (s : State) (g : Nat) (x : ApplyGroup) (b : Strobe) : State :=
  let s1 := s.setGroup g { x with strobes := x.strobes.drop 1 }
  (s1.setReg Ix.applyLast (g + 1) b.arrival).count32 Ix.applyCount (g + 1) 1

/-- The scheduled strobe of group `g` has been applied everywhere (R22). -/
def completeTarget (s : State) (g : Nat) (x : ApplyGroup) (a : Armed) : State :=
  let s1 := ((s.setGroup g { x with armed := none }).setReg Ix.applyArm (g + 1) 0).setReg Ix.applyStatus (g + 1)
    (if a.late then 3 else 2)
  (s1.setReg Ix.applyLast (g + 1) a.target).count32 Ix.applyCount (g + 1) 1

end State

/-- TIME_BEACON (R15, R17): the beacon the meridian sent at the last whole multiple of 1,024 ns, with that raw time and its
rate, reaches island `i`, which leaves time-lost. One that has reached it already does not come again. -/
def execTimeBeacon (i : Nat) (s : State) : Out :=
  let sent : Raw := BitVec.ofNat 64 (s.raw.toNat / State.beaconPeriod * State.beaconPeriod)
  if s.islandPresent i = false ∨ (s.timeLost i = false ∧ (s.island i).beacon = sent) then .next s
  else
    let s1 := s.findTime i
    .next (s1.setIsland i { s1.island i with beacon := sent, heard := s.rawTotal, beaconRate := refPeriod5 s.tm.refFreq })

/-- TIME_LOST (R17): island `i` has received no beacon for 4,096 ns. -/
def execTimeLost (i : Nat) (s : State) : Out :=
  if s.islandPresent i = false then .next s
  else if s.islandState i = 3 ∧ i ≠ 51 ∧ lostAfter ≤ s.since (s.island i).heard then
    let s1 := s.setIsland i { s.island i with lost := some (s.raw, none) }
    .next (((s1.setIslandState i 4).countSat Ix.timeBusLostCount (i + 1) 1).event Ix.timeBusLostCount 1 i [])
  else .next s

/-- APPLY_NOW (R21): a group mask is written. -/
def execApplyNow (mask : Nat) (s : State) : Out := (s.writeApplyNow mask).out

/-- STROBE_ARRIVAL (R18, R20, R21): the oldest immediate strobe of group `g` that has not reached island `i` reaches it. -/
def execStrobeArrival (i g : Nat) (s : State) : Out :=
  if s.islandPresent i = false ∨ 16 ≤ g then .next s
  else
    let x := s.group g
    match x.strobes.findIdx? fun b => b.waiting.contains i with
    | none => .next s
    | some n =>
      let bs := x.strobes.modify n fun b => { b with waiting := b.waiting.filter (· != i) }
      .next ((s.setGroup g { x with strobes := bs }).strobeIsland i g none)

/-- APPLY_ARM (R22, R23): 1 is written to APPLY_ARM of group `g`. -/
def execApplyArm (g : Nat) (s : State) : Out := if 16 ≤ g then Wr.out (s, Abort.noSuch) else (s.writeApplyArm g 1).out

/-- APPLY_CANCEL (R26): 0 is written to APPLY_ARM of group `g`. -/
def execApplyCancel (g : Nat) (s : State) : Out := if 16 ≤ g then Wr.out (s, Abort.noSuch) else (s.writeApplyArm g 0).out

/-- APPLY_TARGET_RECEIPT (R22, R23): the raw target of group `g` reaches island `i`; one that has passed is applied at once,
except by an island that is time-lost (R25). -/
def execApplyTargetReceipt (i g : Nat) (s : State) : Out :=
  if s.islandPresent i = false ∨ 16 ≤ g then .next s
  else
    match (s.group g).armed with
    | none => .next s
    | some a =>
      if a.unsent.contains i = false then .next s
      else if 0 < s.dueBy a.raw ∧ s.timeLost i = false ∧ s.lostWhen i a.raw = false then .next (s.settleTarget i g true)
      else
        let b := { a with held := a.held ++ [i], unsent := a.unsent.filter (· != i) }
        .next (s.setGroup g { s.group g with armed := some b })

/-- SCHEDULED_APPLY (R22): the raw target held by island `i` falls due; an island that was time-lost then waits for the fire
message (R25). -/
def execScheduledApply (i g : Nat) (s : State) : Out :=
  if s.islandPresent i = false ∨ 16 ≤ g then .next s
  else
    match (s.group g).armed with
    | none => .next s
    | some a =>
      if a.held.contains i ∧ 0 ≤ s.dueBy a.raw ∧ s.lostWhen i a.raw = false then .next (s.settleTarget i g a.late) else .next s

/-- APPLY_FIRE_MESSAGE (R25): the meridian's fire message for a target reaches an island that was time-lost when the target
fell, or that is time-lost and has not received the target. -/
def execApplyFireMessage (i g : Nat) (s : State) : Out :=
  if s.islandPresent i = false ∨ 16 ≤ g then .next s
  else
    match (s.group g).armed with
    | none => .next s
    | some a =>
      if (a.held.contains i ∨ a.unsent.contains i) ∧ 0 ≤ s.dueBy a.raw ∧ (s.lostWhen i a.raw ∨ s.timeLost i) then .next (s.settleTarget i g true)
      else .next s

/-- APPLY_COMPLETE (R22, R27): a strobe of group `g` has been applied everywhere. -/
def execApplyComplete (g : Nat) (s : State) : Out :=
  if 16 ≤ g then .next s
  else
    let x := s.group g
    match x.strobes, x.armed with
    | b :: _, some a =>
      if b.waiting = [] then .next (s.completeStrobe g x b)
      else if 0 ≤ s.dueBy a.raw ∧ a.held = [] ∧ a.unsent = [] then .next (s.completeTarget g x a) else .next s
    | b :: _, none => if b.waiting = [] then .next (s.completeStrobe g x b) else .next s
    | [], some a => if 0 ≤ s.dueBy a.raw ∧ a.held = [] ∧ a.unsent = [] then .next (s.completeTarget g x a) else .next s
    | [], none => .next s

end Sys2Proof.Machine
end

