-- ==== Sys2Proof/Machine/Dictionary.lean ====
section
/-! DEFINITION. The dictionary server: writes and reads of elements and records, and DESCRIBE (R360 to R365, R376, R503). -/

namespace Sys2Proof.Machine

/-- The state after a read, its abort code, and the data. -/
abbrev Rd := State × Nat × List Byte

/-- The outcome of a command that is a dictionary read. -/
def Rd.out (r : Rd) : Out := .next (r.1.reply { abort := r.2.1, data := if r.2.1 = 0 then r.2.2 else [] })

/-- `n`-byte pieces of a byte list. -/
def splitRecords (n : Nat) : Nat → List Byte → List (List Byte)
  | 0, _ => []
  | k + 1, bs => bs.take n :: splitRecords n k (bs.drop n)

namespace State

/-! ### Writes of elements -/

/-- A write of PROGRAM_SIGNED_ONLY, which locks it (R127, R364). -/
def writeSignedOnly (s : State) (v : Nat) : Wr :=
  if s.locked Ix.programSignedOnly then (s, Abort.locked)
  else (({ s with nv := { s.nv with locked := Ix.programSignedOnly :: s.nv.locked } }).setReg Ix.programSignedOnly 0 v, 0)

/-- A checked value reaches its element: pending (R19, R31), or at once in its owning island (R361). -/
def takeValue (s : State) (o : ObjDesc) (sub v : Nat) : Wr :=
  let i := ownerIsland o sub 0
  if o.acc = .rwb then s.pendWrite i o.idx sub 0 v
  else if o.idx = Ix.applyNow then s.writeApplyNow v
  else if o.idx = Ix.applyArm then s.writeApplyArm (sub - 1) v
  else if o.idx = Ix.programSignedOnly then s.writeSignedOnly v
  else if o.idx = Ix.ownerKey then s.writeOwnerKey (leBytes 60 v)
  else if s.inReset i then s.pendWrite i o.idx sub 0 v
  else s.effectRW o.idx sub v

/-- A write of a whole object or element by the server, commands of IMAGE_COMMAND and guarded objects apart. -/
def writeElement (s : State) (idx sub : Nat) (data : List Byte) : Wr :=
  match objAt idx with
  | none => (s, Abort.noSuch)
  | some o =>
    if o.cnt ≠ .scalar ∧ sub = 0 then (s, Abort.readOnly)
    else if s.elementWritable o sub = false then (s, Abort.noSuch)
    else if o.acc = .ro ∨ o.acc = .rc then (s, Abort.readOnly)
    else if o.acc = .rwg then (s, Abort.guardFailed)
    else if o.ty.isTable ∨ data.length ≠ o.ty.width then (s, Abort.length)
    else if o.acc = .wol ∧ s.locked idx then (s, Abort.locked)
    else if s.valueOk o sub (leNat data) = false then (s, Abort.outOfRange)
    else s.takeValue o sub (leNat data)

/-! ### Writes of records -/

/-- The island a record belongs to is absent (R170). -/
def recordAbsent (s : State) (idx r : Nat) : Bool := idx == Ix.streamFilter && decide (s.sectors ≤ r / 4096)

/-- Records a TABLE can take: its full length, or TC_PART_SIZE; XM_ENTRY takes any (R506). -/
def recordRoom (s : State) (idx sub full r : Nat) : Bool :=
  idx == Ix.xmEntry || decide (r < if idx = Ix.tcEntry then s.reg Ix.tcPartSize sub else full)

/-- One whole record is written. -/
def writeRecord (s : State) (idx sub r : Nat) (b : List Byte) : Wr :=
  match objAt idx with
  | none => (s, Abort.noSuch)
  | some o =>
    if s.elementPresent o sub = false then (s, Abort.noSuch)
    else
      match o.ty with
      | .table size count =>
        if o.acc ≠ .rw ∧ o.acc ≠ .rwb then (s, Abort.readOnly)
        else if b.length ≠ size then (s, Abort.length)
        else if s.recordRoom idx sub count r = false then (s, Abort.beyond)
        else if s.recordAbsent idx r then (s, Abort.noSuch)
        else if s.recordOk idx b = false then (s, Abort.outOfRange)
        else
          let i := ownerIsland o sub r
          if o.acc = .rwb then s.pendWrite i idx sub r (leNat b)
          else if idx = Ix.xmEntry ∨ idx = Ix.seqGen ∨ idx = Ix.recoveryFunc then s.effectRec idx sub r b
          else s.recordWrite i idx sub r (leNat b) fun t => t.effectRec idx sub r b
      | _ => (s, Abort.malformed)

/-- Records in order from record `r`, up to the first that is refused (R503). -/
def writeRecords (s : State) (idx sub : Nat) : Nat → List (List Byte) → Wr
  | _, [] => (s, 0)
  | r, b :: rest =>
    let w := s.writeRecord idx sub r b
    if w.2 = 0 then writeRecords w.1 idx sub (r + 1) rest else w

/-- WRITE_RANGE (R376): 1 to 1,024 bytes, whole records at a record boundary. -/
def writeRange (s : State) (idx sub off : Nat) (data : List Byte) : Wr :=
  match objAt idx with
  | none => (s, Abort.noSuch)
  | some o =>
    if s.elementPresent o sub = false then (s, Abort.noSuch)
    else
      match o.ty with
      | .table size count =>
        if o.acc ≠ .rw ∧ o.acc ≠ .rwb then (s, Abort.readOnly)
        else if data = [] ∨ 1024 < data.length ∨ data.length % size ≠ 0 ∨ off % size ≠ 0 then (s, Abort.malformed)
        else if s.recordRoom idx sub count ((off + data.length) / size - 1) = false then (s, Abort.beyond)
        else s.writeRecords idx sub (off / size) (splitRecords size (data.length / size) data)
      | _ => (s, Abort.malformed)

/-! ### Reads -/

/-- The value an element reads as its byte image; elements of absent islands read 0 (R10). -/
def elementImage (s : State) (o : ObjDesc) (sub : Nat) : List Byte :=
  leBytes o.ty.width (if perIsland o ∧ s.islandPresent (sub - 1) = false then 0 else s.value o.idx sub)

/-- An RC element is read: the value, which the read removes or restarts (R233, R362, R464). -/
def readClear (s : State) (o : ObjDesc) (sub : Nat) : State × List Byte :=
  if o.idx = Ix.tioCapture then s.readCapture (sub - 1)
  else (s.setReg o.idx sub (s.reg Ix.railVoltage sub), s.elementImage o sub)

/-- A read of a whole scalar, element, or subindex 0 of an array (R360, R361). -/
def readElement (s : State) (idx sub : Nat) : Rd :=
  match objAt idx with
  | none => (s, Abort.noSuch, [])
  | some o =>
    if o.cnt ≠ .scalar ∧ sub = 0 then (s, 0, leBytes 2 (s.elementCount o))
    else if s.elementPresent o sub = false then (s, Abort.noSuch, [])
    else if o.acc = .wo then (s, Abort.writeOnly, [])
    else if o.ty.isTable then (s, Abort.length, [])
    else if o.acc = .rc then let r := s.readClear o sub; (r.1, 0, r.2)
    else (s, 0, s.elementImage o sub)

/-- `n` bytes of a TABLE from byte `off`, record by record. -/
def tableBytesAt (s : State) (idx sub size off n : Nat) : List Byte :=
  let first := off / size
  let last := (off + n - 1) / size
  slice (((List.range (last + 1 - first)).map fun k => s.tableRecord idx sub size (first + k)).flatten) (off % size) n

/-- READ_RANGE (R376): 1 to 1,024 bytes of a TABLE or OCTETS object. -/
def readRange (s : State) (idx sub off n : Nat) : Rd :=
  match objAt idx with
  | none => (s, Abort.noSuch, [])
  | some o =>
    if s.elementPresent o sub = false then (s, Abort.noSuch, [])
    else if o.acc = .wo then (s, Abort.writeOnly, [])
    else if n = 0 ∨ 1024 < n then (s, Abort.malformed, [])
    else
      match o.ty with
      | .table size count =>
        if size * s.tableCount idx sub count < off + n then (s, Abort.beyond, [])
        else if (List.range ((off + n - 1) / size + 1 - off / size)).any fun k => s.recordAbsent idx (off / size + k) then
          (s, Abort.noSuch, [])
        else (s, 0, s.tableBytesAt idx sub size off n)
      | .octets w =>
        if w < off + n then (s, Abort.beyond, [])
        else if o.acc = .rc then let r := s.readClear o sub; (r.1, 0, slice r.2 off n)
        else (s, 0, slice (s.elementImage o sub) off n)
      | _ => (s, Abort.malformed, [])

/-! ### DESCRIBE (R376) -/

/-- The field class codes of DESCRIBE; a class that no rule gives an object is an open value. -/
def classCode (o : ObjDesc) : Byte :=
  match o.cls with
  | .cfg => 0#8 | .st => 1#8 | .ct => 2#8 | .sc => 3#8 | .hv => 4#8 | .lk => 5#8 | .rc => 6#8
  | .none => Config.fieldClass o.idx

/-- Objects whose table gives no factory value, though the model holds one from the start. -/
def noFactory (idx : Nat) : Bool :=
  idx == Ix.deviceType || idx == Ix.temperatureGrade || idx == Ix.islandState || idx == Ix.avsSetpoint || idx == Ix.railVoltage

/-- The 16 bytes of DESCRIBE for an element, or for record `r` of a TABLE. -/
def describeBytes (s : State) (o : ObjDesc) (sub r : Nat) : List Byte :=
  if o.cnt ≠ .scalar ∧ sub = 0 then
    [0x03#8, 1#8, 4#8] ++ leBytes 1 (ownerIsland o 1 0) ++ leBytes 2 (s.elementCount o) ++ leBytes 2 2 ++ leBytes 8 (s.elementCount o)
  else
    leBytes 1 o.ty.code ++ leBytes 1 o.acc.code ++ [classCode o] ++ leBytes 1 (ownerIsland o sub r) ++
      leBytes 2 (s.elementCount o) ++ leBytes 2 o.ty.width ++
      leBytes 8 (if noFactory o.idx then 0 else factory s.variant s.gradeI o.idx sub)

/-- DESCRIBE of an object or element; for a TABLE `off` names a byte of the record. -/
def describe (s : State) (idx sub off : Nat) : Rd :=
  match objAt idx with
  | none => (s, Abort.noSuch, [])
  | some o =>
    if (o.cnt = .scalar ∨ sub ≠ 0) ∧ s.elementPresent o sub = false then (s, Abort.noSuch, [])
    else
      match o.ty with
      | .table size count =>
        if off ≠ 0 ∧ size * s.tableCount idx sub count ≤ off then (s, Abort.beyond, [])
        else if s.recordAbsent idx (off / size) then (s, Abort.noSuch, [])
        else (s, 0, s.describeBytes o sub (off / size))
      | _ => if off ≠ 0 then (s, Abort.malformed, []) else (s, 0, s.describeBytes o sub 0)

end State
end Sys2Proof.Machine
end

