-- ==== Sys2Proof/Machine/Images.lean ====
section
/-! DEFINITION. NV images: their form, loading, saving, comparing, and IMAGE_COMMAND (R366 to R372, R391). -/

namespace Sys2Proof.Machine

/-! ### The form of an image (R367, R368) -/

/-- One record of an image: kind 0 whole object or element, 1 table segment, 2 program image, any other kind one that loads
nothing; its byte offset in a TABLE, its value, and its own offset in the image. -/
structure ImgRec where
  idx : Nat
  sub : Nat
  kind : Nat
  off : Nat
  value : List Byte
  place : Nat
  deriving DecidableEq, Repr

/-- A length rounded up to a multiple of 4. -/
def pad4 (n : Nat) : Nat := (n + 3) / 4 * 4

/-- Largest image, in bytes (R367). -/
def imgMax : Nat := 1048576

/-- A slot is valid (R368), its magic given. -/
def imageValid (b : List Byte) : Bool :=
  let n := leField b 8 4
  decide (slice b 0 4 = imgMagic) && leField b 4 2 == 1 && ([0x8512, 0x8256, 0x8128].contains (leField b 6 2)) &&
    decide (64 ≤ n) && decide (n ≤ imgMax) && decide (n ≤ b.length) && sha256 (slice b 64 (n - 64)) == slice b 32 32

/-- The sequence number of an image. -/
def imageSeq (b : List Byte) : Nat := leField b 12 4

/-- The records from offset `at_` of an image whose bytes from there are `b`, at most `k` of them. -/
def imageRecords : Nat → Nat → List Byte → List ImgRec
  | 0, _, _ => []
  | k + 1, at_, b =>
    if b.length < 8 then []
    else
      let kind := leField b 6 1
      let head := if kind = 1 ∨ kind = 2 then 12 else 8
      let n := if kind = 2 then leField b 8 4 else leField b 4 2
      let whole := decide (head + n ≤ b.length) && decide (leField b 7 1 = 0)
      let r : ImgRec :=
        { idx := leField b 0 2, sub := leField b 2 2, kind := if whole then kind else 255,
          off := if kind = 1 then leField b 8 4 else 0, value := slice b head n, place := at_ }
      let size := head + pad4 n
      r :: imageRecords k (at_ + size) (b.drop size)

/-- The records of an image, as many as its header counts (R367). -/
def imageList (b : List Byte) : List ImgRec :=
  let im := b.take (leField b 8 4)
  imageRecords (min (leField b 16 4) 131072) 64 (im.drop 64)

/-- A value zero-padded to a multiple of 4 bytes. -/
def padded (v : List Byte) : List Byte := v ++ List.replicate (pad4 v.length - v.length) 0#8

/-- A record as it stands in an image; the length of a program image stands in bytes 8 to 11. -/
def ImgRec.bytes (r : ImgRec) : List Byte :=
  leBytes 2 r.idx ++ leBytes 2 r.sub ++ leBytes 2 r.value.length ++ leBytes 1 r.kind ++ [0#8] ++
    (if r.kind = 1 then leBytes 4 r.off else if r.kind = 2 then leBytes 4 r.value.length else []) ++ padded r.value

/-- An image of the records `rs`, saved on `variant` with sequence `seq` and firmware version `fw` (R367). -/
def buildImage (variant seq fw : Nat) (rs : List ImgRec) : List Byte :=
  let body := rs.flatMap ImgRec.bytes
  imgMagic ++ leBytes 2 1 ++ leBytes 2 variant ++ leBytes 4 (64 + body.length) ++ leBytes 4 seq ++ leBytes 4 rs.length ++
    leBytes 4 fw ++ leBytes 8 0 ++ sha256 body ++ body

/-- An object whose value an image holds (R370): RW, RWB or RWG of class CFG. -/
def imageHolds (o : ObjDesc) : Bool := o.cls == .cfg && (o.acc == .rw || o.acc == .rwb || o.acc == .rwg)

/-- The CFG fields of a record of a TABLE (R161, R170, R177, R183): the others are read as 0. -/
def cfgFields (idx v : Nat) : Nat :=
  if idx = Ix.meter then (let x := v % 2 ^ 192; clearBit x 131)
  else if idx = Ix.recoveryFunc then v % 2 ^ 128
  else if idx = Ix.seqGen then v % 65536
  else if idx = Ix.streamFilter then clearBit v 66
  else v

namespace State

/-! ### Slots (R366, R368) -/

/-- The slot that is active at start (R368). -/
def chooseImage (s : State) : Option Nat :=
  let a := imageValid (s.imgSlot 0)
  let b := imageValid (s.imgSlot 1)
  if a && (!b || decide (imageSeq (s.imgSlot 1) ≤ imageSeq (s.imgSlot 0))) then some 0 else if b then some 1 else none

/-- The slot that an image command writes: the inactive one (R368). -/
def imgTarget (s : State) : Nat := match s.activeImage with
  | some i => 1 - i
  | none => 0

/-! ### Loading (R366) -/

/-- A record is skipped: counted, and logged with its image offset. -/
def skipRecord (s : State) (r : ImgRec) : State := (s.count32 Ix.imageSkipped 0 1).event Ix.imageSkipped 2 55 [(4, r.place)]

/-- A kind 1 record is written: whole records from a record boundary. -/
def writeSegment (s : State) (o : ObjDesc) (r : ImgRec) : Wr :=
  let size := o.ty.width
  if o.ty.isTable = false ∨ r.value = [] ∨ r.value.length % size ≠ 0 ∨ r.off % size ≠ 0 then (s, Abort.length)
  else s.writeRecords r.idx r.sub (r.off / size) (splitRecords size (r.value.length / size) r.value)

/-- A kind 2 record at RESTORE: its check as R128 states, and a switch left pending as R129's. -/
def restoreProgram (s : State) (im : List Byte) : State :=
  let st := s.reg Ix.programStatus 0
  if st = 1 ∨ st = 3 then s
  else
    match s.imageFault im with
    | none => ((s.loaded (programOfImage im)).pendWrite 48 Ix.programSwitch 0 0 1).1
    | some (cause, off) => (s.rejected cause off).event Ix.firmwareVersion 1 55 []

/-- One record takes effect, or is skipped. RESTORE (`now`) writes nothing to the NV store (R371); a program image is left to
the end of start-up otherwise. -/
def loadRecord (now : Bool) (s : State) (r : ImgRec) : State :=
  match objAt r.idx with
  | none => s.skipRecord r
  | some o =>
    if r.kind = 2 ∧ r.idx = Ix.programStage ∧ r.sub = 0 then
      if now then
        (if s.reg Ix.programStatus 0 = 1 ∨ s.reg Ix.programStatus 0 = 3 then s.skipRecord r else s.restoreProgram r.value)
      else s
    else if imageHolds o = false then s.skipRecord r
    else if now ∧ r.idx = Ix.nvUser then s
    else
      let w := if r.kind = 0 then s.writeElement r.idx r.sub r.value
        else if r.kind = 1 then s.writeSegment o r
        else (s, Abort.malformed)
      if w.2 = 0 then w.1 else s.skipRecord r

/-- The records of the active slot are written, in record order (R366). -/
def loadImage (now : Bool) (s : State) : State :=
  let s0 := s.setReg Ix.imageSkipped 0 0
  match s.activeImage with
  | none => s0
  | some i => (imageList (s.imgSlot i)).foldl (loadRecord now) s0

/-- The program image of the active slot, if it has one: the last kind 2 record. -/
def savedProgram (s : State) : Option (List Byte) :=
  match s.activeImage with
  | none => none
  | some i =>
    ((imageList (s.imgSlot i)).filter fun r => r.kind == 2 && r.idx == Ix.programStage && r.sub == 0).getLast?.map ImgRec.value

/-! ### Saving (R370) -/

/-- The elements that differ from their factory values. -/
def savedElements (s : State) : List (Nat × ImgRec) :=
  s.dict.filterMap fun (e : Nat × Nat) =>
    match objAt (e.1 / 65536) with
    | none => none
    | some o =>
      if imageHolds o = true ∧ o.ty.isTable = false then
        some (e.1 * 16777216, ⟨e.1 / 65536, e.1 % 65536, 0, 0, leBytes o.ty.width e.2, 0⟩)
      else none

/-- A kind 1 segment of one record, with its key in the order of R370. -/
def oneSegment (idx sub r size v : Nat) : Nat × ImgRec := (recKey idx sub r, ⟨idx, sub, 1, size * r, leBytes size v, 0⟩)

/-- The records of TABLEs whose CFG fields differ from their factory values; ternary entries apart. -/
def savedRecords (s : State) : List (Nat × ImgRec) :=
  s.tabs.filterMap fun (e : Nat × Nat) =>
    let idx := e.1 / 16777216 / 65536
    match objAt idx with
    | none => none
    | some o =>
      let v := cfgFields idx e.2
      if imageHolds o = true ∧ o.ty.isTable = true ∧ idx ≠ Ix.tcEntry ∧ v ≠ 0 then
        some (oneSegment idx (e.1 / 16777216 % 65536) (e.1 % 16777216) o.ty.width v)
      else none

/-- The ternary entries, by partition. -/
def savedTernary (s : State) : List (Nat × ImgRec) :=
  (List.range 16).flatMap fun k =>
    let first := s.reg Ix.tcPartFirst (k + 1)
    let size := s.reg Ix.tcPartSize (k + 1)
    let base := recKey Ix.tcEntry 0 first
    (s.tabs.filter fun (e : Nat × Nat) => decide (base ≤ e.1) && decide (e.1 < base + size)).map fun (e : Nat × Nat) =>
      oneSegment Ix.tcEntry (k + 1) (e.1 - base) 96 e.2

/-- The exact-match entries whose data has bit 63 set. -/
def savedExact (s : State) : List (Nat × ImgRec) :=
  s.tb.xm.flatMap fun (t : Nat × XmTable) =>
    ((t.2.entries.filter fun e => bit e.2.data 63).zipIdx).map fun (e : (Nat × XmEntry) × Nat) =>
      oneSegment Ix.xmEntry (t.1 + 1) e.2 32 (leNat (xmRecord e.1.1 { e.1.2 with marked := false }))

/-- The user area. -/
def savedUser (s : State) : List (Nat × ImgRec) := s.nv.user.map fun (e : Nat × Nat) => oneSegment Ix.nvUser 0 e.1 32 e.2

/-- The active program, unless it is the default bridge. -/
def savedBank (s : State) : List (Nat × ImgRec) :=
  let p := s.rg.progs.active
  if p.isDefault then [] else [(recKey Ix.programStage 0 0, ⟨Ix.programStage, 0, 2, 0, p.image, 0⟩)]

/-- The records of a SAVE in ascending index, subindex and record; a program image stands before its stage's segments. -/
def savedList (s : State) : List ImgRec :=
  let all := s.savedElements ++ s.savedRecords ++ s.savedTernary ++ s.savedExact ++ s.savedUser
  s.savedBank.map Prod.snd |>.foldr
    (fun p rest => rest.takeWhile (fun r => decide (r.idx < Ix.programStage)) ++ p :: rest.dropWhile fun r => decide (r.idx < Ix.programStage))
    ((all.foldl (fun (t : Tbl ImgRec) e => tset t e.1 e.2) []).map Prod.snd)

/-! ### IMAGE_COMMAND (R369 to R372) -/

/-- The sequence number a command gives: one above the active slot's. -/
def imgNextSeq (s : State) : Nat := wrapAdd 32 s.imageSeqNow 1

/-- The job of a command that writes the NV store. -/
def imgJobOf (s : State) (code : Nat) : NvJob :=
  let old := s.imgSlot s.imgTarget
  if code = 1 then
    let im := buildImage s.variant.code s.imgNextSeq (fwVersion s.booted) s.savedList
    if imgMax < im.length then { code := 1, data := [], left := 0, cause := 1 }
    else { code := 1, data := im, left := nvUnits im.length }
  else if code = 2 then
    if s.activeImage.isNone ∨ imageValid old = false then { code := 2, data := [], left := 0, cause := 2 }
    else { code := 2, data := patch old 12 (leBytes 4 s.imgNextSeq), left := 1 }
  else if code = 5 then { code := 5, data := noMagic old, left := 1 }
  else
    let stage := s.tableBytes Ix.imageStage (min (max 64 (leNat ((s.tableBytes Ix.imageStage 12).drop 8))) imgMax)
    if imageValid stage = false then { code := 7, data := [], left := 0, cause := 3 }
    else { code := 7, data := patch stage 12 (leBytes 4 s.imgNextSeq), left := nvUnits stage.length }

/-- IMAGE_STATUS of a running command (R369, R391). -/
def imgState (code : Nat) : Nat :=
  if code = 1 then 1 else if code = 2 then 7 else if code = 3 then 2 else if code = 4 then 8 else if code = 5 then 9
  else if code = 6 then 3 else 10

/-- IMAGE_STATUS while a command runs: HELD where its next unit waits (R371). -/
def showImg (s : State) : State :=
  match s.nv.imgJob with
  | some j => s.setReg Ix.imageStatus 0 (if s.nvHeld ∧ j.left ≠ 0 ∧ j.cause = 0 then 4 else imgState j.code)
  | none => s

/-- One record of the active slot differs from what it names (R372). -/
def recordDiffers (s : State) (r : ImgRec) : Bool :=
  match objAt r.idx with
  | none => true
  | some o =>
    if r.kind = 2 then slice r.value 32 32 != s.rg.progs.active.digest
    else if s.elementPresent o r.sub = false then true
    else if r.kind = 0 then o.ty.isTable || decide (r.value.length ≠ o.ty.width) || leNat r.value != s.value r.idx r.sub
    else
      let size := o.ty.width
      if r.kind ≠ 1 ∨ o.ty.isTable = false ∨ r.value.length % size ≠ 0 ∨ r.off % size ≠ 0 then true
      else
        (splitRecords size (r.value.length / size) r.value).zipIdx.any fun (e : List Byte × Nat) =>
          if r.idx = Ix.xmEntry then
            (match tget (s.xmTable (r.sub - 1)).entries (leField e.1 0 16) with
             | some x => leField e.1 16 8 != x.data
             | none => true)
          else cfgFields r.idx (leNat e.1) != cfgFields r.idx (leNat (s.tableRecord r.idx r.sub size (r.off / size + e.2)))

/-- COMPARE (R372). -/
def compareImage (s : State) (i : Nat) : State :=
  let diff := (imageList (s.imgSlot i)).filter s.recordDiffers
  let first := match diff with
    | r :: _ => r.idx * 65536 + r.sub
    | [] => 0xFFFFFFFF
  (s.setReg Ix.imageDiffCount 0 diff.length).setReg Ix.imageDiffFirst 0 first

/-- One element takes its factory value (R369 FACTORY). -/
def defaultElement (s : State) (idx sub : Nat) : State :=
  match objAt idx with
  | none => s
  | some o =>
    if imageHolds o = false ∨ o.ty.isTable = true then s
    else (s.takeValue o sub (factory s.variant s.gradeI idx sub)).1

/-- A staged TABLE's pending write becomes its emptying. -/
def pendEmpty (s : State) (o : ObjDesc) (sub : Nat) : State :=
  let i := ownerIsland o sub 0
  let s1 := (s.pendWrite i o.idx sub emptyMark 0).1
  s1.setIsland i { s1.island i with
    pend := (s1.island i).pend.map fun w => if w.idx = o.idx ∧ w.sub = sub then { w with recs := [(emptyMark, 0)] } else w }

/-- One record of a TABLE takes its factory value, 0; a buffered TABLE is emptied as a whole. -/
def defaultRecord (s : State) (idx sub r : Nat) : State :=
  match objAt idx with
  | none => s
  | some o =>
    if imageHolds o = false ∨ o.ty.isTable = false then s
    else if o.acc = .rwb then s.pendEmpty o sub
    else if idx = Ix.seqGen ∨ idx = Ix.recoveryFunc then (s.effectRec idx sub r (leBytes o.ty.width 0)).1
    else (s.recordWrite (ownerIsland o sub r) idx sub r 0 fun t =>
      if idx = Ix.meter then t.writeMeter r (leBytes 32 0) else (t.setRecord idx sub r 0, 0)).1

/-- FACTORY (R369): what differs from its factory value, in force or pending, is written back to it; exact-match tables are
emptied. -/
def factoryAll (s : State) : State :=
  let pends := s.isl.islands.flatMap fun (e : Nat × Island) => e.2.pend.map fun w => (w.idx, w.sub)
  let s1 := s.dict.foldl (fun t (e : Nat × Nat) => t.defaultElement (e.1 / 65536) (e.1 % 65536)) s
  let s2 := pends.foldl (fun t (e : Nat × Nat) => (t.defaultElement e.1 e.2).defaultRecord e.1 e.2 0) s1
  let s3 := s.tabs.foldl (fun t (e : Nat × Nat) =>
    t.defaultRecord (e.1 / 16777216 / 65536) (e.1 / 16777216 % 65536) (e.1 % 16777216)) s2
  { s3 with tb := { s3.tb with xm := s3.tb.xm.map fun (e : Nat × XmTable) => (e.1, { e.2 with entries := [] }) } }

/-- What a command that writes no NV unit does at once: RESTORE, FACTORY and COMPARE (R369); without an active slot it fails. -/
def imgAtOnce (s : State) (code : Nat) : State × Nat :=
  match s.activeImage with
  | some i => if code = 3 then (s.loadImage true, 0) else if code = 4 then (s.factoryAll, 0) else (s.compareImage i, 0)
  | none => if code = 4 then (s.factoryAll, 0) else (s, 2)

/-- A write to IMAGE_COMMAND (R369). -/
def writeImageCommand (s : State) (v : Nat) : Wr :=
  if v = 0 ∨ 7 < v then (s, Abort.outOfRange)
  else if s.nv.imgJob.isSome then (s, Abort.busy)
  else if v = 3 ∨ v = 4 ∨ v = 6 then
    let r := s.imgAtOnce v
    (({ r.1 with nv := { r.1.nv with imgJob := some { code := v, data := [], left := 0, cause := r.2 } } }).showImg, 0)
  else (({ s with nv := { s.nv with imgJob := some (s.imgJobOf v) } }).showImg, 0)

/-- A unit of the image command under way is written (R423). The magic of a SAVE or an INSTALL makes its slot the active one
(R368). -/
def imgUnit (s : State) (ok : Bool) : State :=
  match s.nv.imgJob with
  | none => s
  | some j =>
    if j.left = 0 ∨ j.cause ≠ 0 ∨ s.nvHeld then s
    else
      let i := s.imgTarget
      let s1 := s.count Ix.nvBytesWritten 0 32
      let s2 := if ok then s1.setImgSlot i (jobUnit (s.imgSlot i) j) else s1
      let j1 := stepJob j ok 4
      let s3 := { s2 with nv := { s2.nv with imgJob := some j1 } }
      let s4 := if ok ∧ j.left = 1 ∧ (j.code = 1 ∨ j.code = 7) then s3.setReg Ix.imageActiveSlot 0 i else s3
      if j1.cause = 0 then s4 else s4.nvFailed

/-- The image command ends in DONE or FAILED (R369). -/
def endImg (s : State) : State :=
  match s.nv.imgJob with
  | none => s
  | some j =>
    if j.left ≠ 0 ∧ j.cause = 0 then s
    else
      let s1 := ({ s with nv := { s.nv with imgJob := none } }).setReg Ix.imageStatus 0 (if j.cause = 0 then 5 else 6)
      if j.cause = 0 then s1 else s1.setReg Ix.imageFailCause 0 j.cause

end State

/-! ### The commands -/

/-- IMAGE_SAVE (R369, R370): 1 written to IMAGE_COMMAND. -/
def execImageSave (s : State) : Out := (s.writeImageCommand 1).out

/-- IMAGE_SELECT (R369): 2 written to IMAGE_COMMAND. -/
def execImageSelect (s : State) : Out := (s.writeImageCommand 2).out

/-- IMAGE_RESTORE (R369): 3 written to IMAGE_COMMAND. -/
def execImageRestore (s : State) : Out := (s.writeImageCommand 3).out

/-- IMAGE_FACTORY (R369): 4 written to IMAGE_COMMAND. -/
def execImageFactory (s : State) : Out := (s.writeImageCommand 4).out

/-- IMAGE_ERASE (R369): 5 written to IMAGE_COMMAND. -/
def execImageErase (s : State) : Out := (s.writeImageCommand 5).out

/-- IMAGE_COMPARE (R372): 6 written to IMAGE_COMMAND. -/
def execImageCompare (s : State) : Out := (s.writeImageCommand 6).out

/-- IMAGE_INSTALL (R369): 7 written to IMAGE_COMMAND. -/
def execImageInstall (s : State) : Out := (s.writeImageCommand 7).out

/-- IMAGE_COMMAND_DONE (R369): the command under way ends. -/
def execImageCommandDone (s : State) : Out := .next s.endImg

/-- NV_UNIT_WRITE (R423, R437): one 32-byte unit of the command `which` names is written, its read-back agreeing or not. -/
def execNvUnitWrite (which : NvWriter) (ok : Bool) (s : State) : Out :=
  match which with
  | .firmware => .next (s.fwUnit ok)
  | .image => .next (s.imgUnit ok)
  | .leaf => .next (s.leafUnit ok)

end Sys2Proof.Machine
end

