-- ==== Sys2Proof/Machine/Rigs.lean ====
section
/-! DEFINITION. Commands of the rigs and the keepers (chapter 3): DISPATCH to STEAL_REQUEST, RETIRE, COMMIT,
POSTCARD_FLUSH, and the awl and rig faults. -/

namespace Sys2Proof.Machine
open State

/-- One move out of sector `k`'s dispatch list or a hold list (R70, R74). `rest`: further bytes of the head frame that have
arrived. -/
def execDispatch (k : Nat) (rest : List Byte) (s : State) : Out :=
  if s.sectorPresent k = false then .next s
  else if s.running 48 = false then .next s
  else
    match s.heldReady k with
    | some (h, d) =>
      if s.rigRoom k then
        let s1 := { s with fr := { s.fr with holdQ := tput [] s.fr.holdQ d ((tgetD s.fr.holdQ d []).drop 1) } }
        .next (s1.toRigQueue k h d)
      else .next s
    | none =>
      let grow (p : Packet) : Packet :=
        if p.src < 512 ∧ p.ended = false ∧ p.preempt = false ∧
            p.bytes.length + rest.length ≤ s.reg Ix.portMaxFrame (p.src + 1) then { p with bytes := p.bytes ++ rest } else p
      let s1 := match tgetD s.fr.dispatchQ k [] with
        | h :: _ => s.modPkt h grow
        | [] => s
      .next (s1.dispatchHead k)

/-- An idle awl takes the head of its rig's queue; idle awls take in ascending number (R71). -/
def execAwlTakeHandle (w : Nat) (s : State) : Out :=
  if s.sectorPresent (w / 256) = false then .next s
  else
    let r := w / 256
    let first := (List.range (w % 256)).all fun a => !s.awlIdle (256 * r + a)
    match s.rigQueue r with
    | [] => .next s
    | h :: rest =>
      match s.pkt? h with
      | none => .next s
      | some p =>
        if s.running (rigIsland r) ∧ s.awlIdle w ∧ first then .next ((s.setRigQueue r rest).awlTakes w h p) else .next s

/-- Every rig reports its depth on the load map, every 64 ns of raw time (R77). -/
def execLoadMapReport (s : State) : Out :=
  if s.multipleDue s.rg.lastReport (ns 64) = false then .next s
  else
    let s1 := { s with rg := { s.rg with lastReport := s.raw } }
    .next ((List.range s.sectors).foldl (fun t r => t.setRig r { t.rig r with mapDepth := (t.rigQueue r).length }) s1)

/-- A dry rig's round of steal requests (R76 to R81); after a round without a grant it waits 64 ns. -/
def execStealRequest (thief : Nat) (s : State) : Out :=
  if s.sectorPresent thief = false then .next s
  else
    let waited := match (s.rig thief).stealWait with
      | some t => decide (ns 64 ≤ s.since t)
      | none => true
    if s.rigDry thief && waited then .next ((s.setRig thief { s.rig thief with stealWait := none }).stealRound thief)
    else .next s

/-- Keeper `k` retires the next packet (R86). -/
def execRetire (k : Nat) (s : State) : Out :=
  if s.sectorPresent k then .next (if s.running 48 then s.retireOne k else s) else .next s

/-- Keeper `k` commits the next packet (R89). -/
def execCommit (k : Nat) (s : State) : Out :=
  if s.sectorPresent k then .next (if s.running 48 then s.commitOne k else s) else .next s

/-- POSTCARD_FLUSH after its first record, a partly filled postcard frame is offered to its queue (R124). -/
def execPostcardFlush (k : Nat) (s : State) : Out :=
  let pc := tgetD s.fr.postcards k {}
  if pc.records = [] ∨ s.running 48 = false ∨ s.since pc.first < ns (s.reg Ix.postcardFlush 0 * 1000) then .next s else .next (s.sendPostcard k)

/-- The awl's present handle is taken from it, as `f` says. -/
def State.leaveAwl (s : State) (w : Nat) (f : State → Nat → Packet → State) : State :=
  match (s.awl w).pkt with
  | none => s
  | some h =>
    match s.pkt? h with
    | some p => f s h p
    | none => s

/-- The watchdog of awl `w` expires: its count has reached the limit and one more (R85, R94, R95). -/
def execAwlWatchdogExpiry (w : Nat) (s : State) : Out :=
  if s.sectorPresent (w / 256) = false ∨ (s.awl w).cycles ≤ s.watchdogLimit w then .next s
  else
    .next ((s.leaveAwl w fun s h p =>
      let n := p.faults + 1
      let s1 := (s.count Ix.awlWatchdogFaults (w / 256 + 1) 1).partFaults (partAwl w)
      let s2 := s1.modPkt h fun q => { q with faults := n, faultParts := q.faultParts ++ [partAwl w] }
      let s3 := if s.reg Ix.handleFaultLimit 0 ≤ n then s2.poison w h { p with faults := n } else s2.redispatch w h
      s3.setAwl w { restart := some s.rawTotal }))

/-- A parity error in the register file of awl `w` (R93, R96). -/
def execAwlParityError (w : Nat) (s : State) : Out :=
  if s.sectorPresent (w / 256) = false then .next s
  else
    let r := w / 256
    if s.running (rigIsland r) = false ∨ (s.awl w).fenced then .next s
    else
      let s1 := ((s.count Ix.awlParityFaults (r + 1) 1).setReg Ix.awlsFenced (r + 1) (s.reg Ix.awlsFenced (r + 1) + 1)).setReg
        Ix.awlFenceMap (r + 1) (setBit (s.reg Ix.awlFenceMap (r + 1)) (w % 256))
      let s2 := (s1.event Ix.awlParityFaults 2 (rigIsland r) [(1, r), (1, w % 256)]).partFaults (partAwl w)
      let s3 := match (s.awl w).pkt with
        | some h => (s2.modPkt h fun q => { q with faultParts := q.faultParts ++ [partAwl w] }).redispatch w h
        | none => s2.partRecovers (partAwl w)
      let s4 := s3.setAwl w { fenced := true }
      .next (if s4.reg Ix.rigFenceLimit (r + 1) ≤ s4.reg Ix.awlsFenced (r + 1) then s4.fenceRig r else s4)

/-- An uncorrectable error in the program store of rig `r` fences it while it runs (R96). -/
def execProgramStoreError (r : Nat) (s : State) : Out :=
  if s.sectorPresent r = false then .next s
  else if s.running (rigIsland r) then .next (s.fenceRig r)
  else .next s

end Sys2Proof.Machine
end

