-- ==== Sys2Proof/Machine/ResetOps.lean ====
section
/-! DEFINITION. Island resets (R28 to R31), the retaining reset and its recovery walk (R193 to R197, R474 to R478), and the
entry into a power-on or device reset (R471). -/

namespace Sys2Proof.Machine
namespace State

/-! ### Shapers, counts and restarts common to resets -/

/-- The queues a list of islands' worth of shapers may concern: those with a shaper, a burst of their own, or copies. -/
def shaperQueues (s : State) : List Nat :=
  (tkeys s.eg.shapers ++ tkeys s.fr.queues ++
    ((s.dict.filter fun (e : Nat × Nat) => e.1 / 65536 == Ix.tbBurst).map fun (e : Nat × Nat) => e.1 % 65536 - 1)).eraseDups

/-- The shapers of queues `qs` start afresh: no credit, and a full bucket (R153, R193). -/
def initShapers (s : State) (qs : List Nat) : State :=
  qs.foldl (fun t q => t.setShaper q
    { credit := 0, level := (t.reg Ix.tbBurst (q + 1) : Int) * shaperUnit, owed := 0, upTo := t.rawTotal }) s

/-- Frames counted by the lane islands are added to RX_DURING_RESET of ports `p` for which `mine` holds (R37). -/
def addDuringReset (s : State) (mine : Nat → Bool) : State :=
  let s1 := (s.fr.rxDuringReset.filter fun e => mine e.1).foldl (fun t e => t.count Ix.rxDuringReset (e.1 + 1) e.2) s
  { s1 with fr := { s1.fr with rxDuringReset := s1.fr.rxDuringReset.filter fun e => !mine e.1 } }

/-- The gates whose island satisfies `mine` move to the position of the present sync time (R29, R477). -/
def landGates (s : State) (mine : Nat → Bool) : State :=
  ((tkeys s.eg.gates).filter fun k => mine (gateIsland k)).foldl landGate s

/-- A copy in transmission at MAC `key` ends at once with a complemented FCS, and is back at the head of its queue (R194). -/
def cutCopy (s : State) (key : Nat) (t : TxCopy) : State :=
  let p := key % 512
  if t.stomp then s.endCopy p key t
  else
    let data := (s.finalData t).take (s.bytesSent key t)
    let s1 := (s.dropTx key).setQueue t.queue (t.copy :: s.queue t.queue)
    { s1 with
      fr := { s1.fr with
        wire := tset s1.fr.wire p { frame := data ++ complementBytes (fcsOf data), stomped := true, ts := t.ts } } }

/-- Copies in transmission at the ports for which `mine` holds. -/
def portCopies (s : State) (mine : Nat → Bool) : List (Nat × TxCopy) := s.fr.tx.filter fun e => decide (e.1 < 1024) && mine (e.1 % 512)

/-! ### Island resets (R28 to R31) -/

/-- Only lane islands, port islands, rigs and the ring island accept a reset (R28). -/
def resettable (s : State) (i : Nat) : Bool := s.islandPresent i && (decide (i < 48) || i == ringIsland)

/-- The ST fields of port island 16 + `k` read as cleared (R29): the blocked flags of its stream filters and the latches of its
stream gates. -/
def clearLatches (s : State) (k : Nat) : State :=
  let fs := (s.tabs.filter fun e => e.1 / 16777216 == dictKey Ix.streamFilter 0 && e.1 % 16777216 / 4096 == k).map (·.1 % 16777216)
  let s1 := fs.foldl (fun t f => t.setRecField Ix.streamFilter 0 f 8 1 (clearBit (t.recField Ix.streamFilter 0 f 8 1) 2)) s
  let gs := (tkeys s1.eg.gates).filter fun g => decide (512 ≤ g) && gateIsland g == 16 + k
  gs.foldl (fun t g => t.setGate g { t.gate g with latchClosed := false, latchOctets := false }) s1

/-- Lane island `k` begins its reset (R30): its lanes drop. -/
def resetLanes (s : State) (k : Nat) : State := (s.setIslandState k 1).settleLanes (sectorLanes k) (sectorPorts k)

/-- Port island 16 + `k` begins its reset (R30): its ports neither receive nor transmit, their hold limits start, and each of
them that was up counts as faulted (R192). -/
def resetPorts (s : State) (k : Nat) : State :=
  let mine (p : Nat) : Bool := p / 32 == k
  let s1 := (s.portCopies mine).foldl (fun t e => t.cutCopy e.1 e.2) s
  let s2 := (s1.fr.rx.filter fun e => mine (e.1 % 512)).foldl (fun t e =>
    let u := t.dropRx e.1
    match e.2.pkt with
    | some h => if e.2.failed then u else u.failFrame h
    | none => u) s1
  let s3 := { s2 with fr := { s2.fr with pmac := s2.fr.pmac.filter fun e => !mine e.1 } }
  let s4 := ((s3.clearLatches k).setIslandState (16 + k) 1).settlePorts s (sectorPorts k)
  (((sectorPorts k).filter s.portUp).map partPort).foldl partFaults s4

/-- The ring island begins its reset (R30): every ring and pair stops, and what was committed of a cycle stays. -/
def resetRings (s : State) : State :=
  let s1 := s.setIslandState ringIsland 1
  let s2 := { s1 with ri := { rings := s1.ri.rings.map fun (e : Nat × MRing) =>
                (e.1, { mode := 0, broken := e.2.broken, bad := e.2.bad, recordNo := e.2.recordNo, gen := e.2.gen, kept := e.2.kept,
                        cycles := e.2.cycles.filter fun c => !c.null && !c.back.isEmpty }),
                              pairs := s1.ri.pairs.map fun (e : Nat × PtPair) =>
                (e.1, { enabled := e.2.enabled, output := e.2.output }) } }
  let s3 := (tkeys s2.ri.rings).foldl showRing s2
  (tkeys s3.ri.pairs).foldl (fun t k => if t.reg Ix.henayPtClaimState (k + 1) = 2 then t.setReg Ix.henayPtClaimState (k + 1) 1 else t) s3

/-- A write to ISLAND_RESET (R28, R29). -/
def writeIslandReset (s : State) (v : Nat) : Wr :=
  if s.resettable v = false then (s, Abort.notResettable)
  else if s.islandState v = 1 ∨ s.islandState v = 2 then (s, 0)
  else
    let s1 := (if 32 ≤ v ∧ v < 48 then s else s.discardPending v).setReg Ix.islandResetLast 0 v
    if v < 16 then (s1.resetLanes v, 0)
    else if v < 32 then (s1.resetPorts (v - 16), 0)
    else if v < 48 then (s1.startRigReset (v - 32), 0)
    else (s1.resetRings, 0)

/-- Every committed image of a ring is scattered, and its cycle closes (R196 step 5, R268). -/
def closeCommitted (s : State) (m : Nat) : State := (s.mring m).cycles.foldl (fun t c => t.closeCycle m c) s

/-- Enabled rings listen in STANDBY and enabled pairs wait (R276, R470, R478). -/
def restartRings (s : State) : State :=
  let rings := (List.range 16).filter fun m => s.regB Ix.henayRingEnable (m + 1)
  rings.foldl (fun t m => (t.closeCommitted m).standBy m) s

/-- Island `i`, out of its reset, acts as its kind says (R29 to R31, R37, R98, R278). -/
def islandRuns (s : State) (i : Nat) : State :=
  let s1 := (s.setIslandState i 3).setIsland i { s.island i with beacon := s.raw, heard := s.rawTotal, lost := none }
  if i < 16 then s1.settleLanes (sectorLanes i) (sectorPorts i)
  else if i < 32 then
    let k := i - 16
    let qs := s1.shaperQueues.filter fun q => decide (q < 4096) && q / 256 == k
    (((s1.initShapers qs).addDuringReset fun p => p / 32 == k).landGates (· == i)).settlePorts s (sectorPorts k)
  else if i < 48 then s1.rigRuns (i - 32)
  else s1.restartRings

/-! ### The retaining reset (R193 to R195, R474 to R478) -/

/-- What the reset makes of an engine unit: transfers in flight are to be done again (R196 step 5), a delivery is written
again from its first byte (R194). -/
def restUnit (u : HUnit) : HUnit :=
  if u.stage = .started ∧ u.transferring then
    match u.copy with
    | some _ => { u with flying := [], todo := (chunksOf u.data.length).map (fun p => .deliver p.1 p.2), done := 0 }
    | none => { u with flying := [], todo := u.flying ++ u.todo }
  else u

/-- Frames, handles and keepers: transmission is cut, reception ends, and every list of handles is lost; the ST fields of the
port islands and the messages that wait in them are cleared (R193, R194). -/
def restFrames (s : State) : State :=
  let cut := s.portCopies fun _ => true
  let s1 := cut.foldl (fun t e => t.cutCopy e.1 e.2) s
  let s2 := (List.range s.sectors).foldl clearLatches (s1.count Ix.resetResendCount 0 ((cut.filter fun e => !e.2.stomp).length))
  { s2 with
    co := { s2.co with waiting := [], out := [] }
    mp := { s2.mp with out := [] }
    tm := { s2.tm with waiting := [] }
    fr := { s2.fr with
      rx := [], pmac := [], dispatchQ := [], holdQ := [], rigQ := [], surveys := [], postcards := [], sampling := { last := s2.raw }
      keepers := s2.fr.keepers.map fun (e : Nat × Keeper) => (e.1, { e.2 with sampleFlow := 0, samplePost := [] })
      hold := s2.fr.hold.map fun (e : Nat × HoldTimer) => (e.1, { e.2 with elapsed := s2.holdElapsed e.1 }) }
    rg := { s2.rg with awls := [], rigs := s2.rg.rigs.map (fun (e : Nat × Rig) => (e.1, { e.2 with mapDepth := 0, stealWait := none })) } }

/-- A program check in progress is abandoned: the pending bank is empty, and the status reads IDLE (R128). -/
def restProgram (s : State) : State :=
  if s.reg Ix.programStatus 0 = 1 then
    ((s.setProgs { s.rg.progs with checking := none, checkingDefault := none, pending := none }).setReg Ix.programPendingDigest 0 0).setReg
      Ix.programStatus 0 0
  else s

/-- A retaining reset begins. One that begins during a recovery walk starts the walk again (R473). -/
def startRetaining (s : State) : State :=
  let up := (List.range 512).filter s.portUp
  let s1 := (List.range 512).foldl wakePort (s.restFrames.restProgram.abandonNv)
  let s2 := s.islandsPresent.foldl discardPending s1
  let s3 := s2.resetRings
  let s4 := (s.islandsPresent.filter (· != 51)).foldl (fun t i => t.setIslandState i 1) s3
  { s4 with
    mv := {}
    ho := { s4.ho with
      channels := s4.ho.channels.map fun (e : Nat × Channel) => (e.1, { e.2 with units := e.2.units.map restUnit })
      visit := none }
    sy := { s4.sy with
      retaining := true, superDown := false
      wasUp := if s.sy.retaining then s.sy.wasUp else up
      resetFrom := s.rawTotal } }

/-! ### The recovery walk (R196, R197) -/

/-- One copy is lost with a link word (R197). -/
def loseCopy (s : State) (q : Nat) (c : QCopy) : State :=
  let s1 := (s.setQueue q ((s.queue q).filter fun d => d.seq != c.seq)).count Ix.walkLinkLost 0 1
  ((s1.leaveGuarantee 4).event Ix.walkLinkLost 3 48 [(2, q), (6, c.seq)]).reap c.pkt

/-- Step 1: the chain of a queue ends before position `n` (R197). -/
def cutChain (s : State) (q n : Nat) : State := ((s.queue q).drop n).foldl (fun t c => t.loseCopy q c) s

/-- An uncorrectable handle record loses its frame (R197). -/
def loseHandle (s : State) (h : Nat) : State :=
  match s.pkt? h with
  | none => s
  | some p =>
    let s1 := ((s.removeQueued h).count Ix.walkLinkLost 0 1).leaveGuarantee 4
    let s2 := s1.event Ix.walkLinkLost 3 48 [(4, p.domain), (4, p.domSeq)]
    p.faultParts.foldl partRecovers (p.cells.foldl freeCell (s2.dropPkt h))

/-- Handles in the keepers' walk order: order domain, then domain sequence. -/
def walkOrder (s : State) : List (Nat × Packet) := s.fr.pkts.mergeSort domainBefore

/-- Step 3 for a frame that is not accepted: its cells are freed, and its packet retires void when dispatch resumes. -/
def discardPartial (s : State) (h : Nat) (p : Packet) : State :=
  if p.stage = .reserved then s.dropPkt h else (s.failFrame h).countSat Ix.walkPartialDiscards 0 1

/-- A handle whose packet has not retired. -/
def unretired (p : Packet) : Bool :=
  match p.stage with
  | .retired | .enqueuing | .reserved => false
  | _ => true

/-- Step 3 for an unretired handle: it is rebuilt and joins its sector's dispatch list; an accepted one is counted. -/
def rebuildHandle (s : State) (h : Nat) : State :=
  match s.pkt? h with
  | none => s
  | some p =>
    if unretired p = false then s
    else
      let s1 := s.setPkt h { p with stage := .dispatchList, result := none, stolen := false, redispatched := true }
      let s2 := { s1 with fr := { s1.fr with dispatchQ := tput [] s1.fr.dispatchQ p.home (tgetD s1.fr.dispatchQ p.home [] ++ [h]) } }
      if p.failed then s2 else s2.countSat Ix.walkHandlesRedispatched 0 1

/-- Step 3 for a packet with a retire number whose enqueues are unfinished: every enqueue is sent again, and those already
done are dropped as duplicates (R87). -/
def resendEnqueues (s : State) (p : Packet) : State :=
  match p.retireNo, (s.keeper p.home).lastEnq with
  | some n, some (m, j) => if p.stage = .enqueuing ∧ n = m then s.count Ix.enqueueDuplicateCount (p.home + 1) (j + 1) else s
  | _, _ => s

/-- Step 3. -/
def walkHandles (s : State) : State :=
  let s1 := (s.setReg Ix.walkPartialDiscards 0 0).setReg Ix.walkHandlesRedispatched 0 0
  let s2 := s1.walkOrder.foldl (fun t e => if e.2.accepted ∨ e.2.failed then t else t.discardPartial e.1 e.2) s1
  let s3 := s2.walkOrder.foldl (fun t e => t.rebuildHandle e.1) s2
  s3.walkOrder.foldl (fun t e => t.resendEnqueues e.2) s3

/-- A move whose source and destination overlap and that was under way (R191). -/
def overlapping (u : HUnit) : Bool := u.kind == 2 && u.transferring && u.meets

/-- Step 5 for one unit of channel `c`: an overlapping move is reported as an error; a transmit frame whose fetch was cut is
fetched again; everything else goes on from its recorded point. -/
def resumeUnit (c : Nat) (s : State) (u : HUnit) : State :=
  if overlapping u then
    ((s.finishUnit c u.first 3 8).event Ix.chStatus 3 hostIsland [(2, c), (4, u.last.1)]).leaveGuarantee 5
  else if u.kind = 0 ∧ u.stage = .started ∧ u.transferring then
    (s.dropFetched u).modUnit c u.first fun v => { v with stage := .waiting, pkt := none, todo := [], flying := [], done := 0, data := [] }
  else s

/-- Step 5: every channel resumes from its progress, and committed ring images are scattered. -/
def resumeChannels (s : State) : State :=
  let s1 := (tkeys s.ho.channels).foldl (fun t c => (t.channel c).units.foldl (resumeUnit c) t) s
  (List.range 16).foldl closeCommitted s1

/-- Armed targets that passed during the reset are applied late (R475). -/
def applyPassed (s : State) : State :=
  (tkeys s.isl.groups).foldl (fun t g =>
    match (t.group g).armed with
    | some a =>
      if 0 < t.dueBy a.raw then
        (a.held ++ a.unsent).foldl (fun u i => u.settleTarget i g true) t
      else t
    | none => t) s

/-- A restore of an LPDDR4X channel that was in progress begins again (R421): it still reads RESTORING. Step 6: islands, ports,
rigs, gates, shapers, hold timers and rings run again (R195 to R197, R477, R478). -/
def bringUp (s : State) : State :=
  let s1 := (s.islandsPresent.filter (· != 51)).foldl (fun t i =>
    (t.setIslandState i 3).setIsland i { t.island i with beacon := t.raw, heard := t.rawTotal, lost := none }) s
  let s2 := { s1 with
    sy := { s1.sy with retaining := false, wasUp := [], upSince := s1.rawTotal }
    fr := { s1.fr with hold := s1.fr.hold.map fun (e : Nat × HoldTimer) => (e.1, { e.2 with started := s1.rawTotal }) } }
  let s3 := (List.range s2.sectors).foldl rigRuns s2
  let s4 := ((s3.initShapers s3.shaperQueues).landGates fun _ => true).addDuringReset fun _ => true
  let s5 := (List.range 512).foldl (fun t p =>
    if s.sy.wasUp.contains p && not (s4.portUp p) then t.portDown p
    else if not (s.sy.wasUp.contains p) && s4.portUp p then t.portComesUp p else t) s4
  (s5.decideAll.restartRings).applyPassed

/-- The recovery walk, its six steps: `links` are queues with the position from which their chain cannot be followed, and
`handles` the handle records that do not decode. -/
def recoveryWalk (s : State) (links : List (Nat × Nat)) (handles : List Nat) : State :=
  let s1 := links.foldl (fun t e => t.cutChain e.1 e.2) s
  let s2 := (handles.foldl loseHandle s1).walkHandles
  let s3 := s2.resumeChannels.bringUp
  (s3.countSat Ix.retainResetCount 0 1).setReg Ix.walkDuration 0 (s3.since s3.sy.resetFrom / 65536000)

/-! ### Power-on and device resets (R458, R471) -/

/-- Objects whose values come from the non-volatile store or from manufacture, and so survive (R361, R422, R460). -/
def survives (idx : Nat) : Bool :=
  idx == Ix.eventNewest || idx == Ix.eventOverrun || idx == Ix.thermalTrips || idx == Ix.railVoltage || idx == Ix.islandTemp ||
    idx == Ix.tempSensor || idx == Ix.tempMax || idx == Ix.islandLifeDays || idx == Ix.islandLifeLower ||
    (match objAt idx with | some o => o.acc == .wol | none => false)

/-- The reset-cause unit takes a cause and its rail or sensor (R458). -/
def putCause (s : State) (cause rail : Nat) : State := { s with nv := { s.nv with cause := cause, causeRail := rail } }

/-- The supervisor writes the cause of a reset it can see coming; while writes are held no unit begins (R424, R458). -/
def writeCause (s : State) (cause rail : Nat) : State :=
  if s.nvHeld then s else (s.putCause cause rail).count Ix.nvBytesWritten 0 32

/-- The device enters a power-on or device reset, held by `h` (R471): everything is re-initialised but the NV store and the
fuses. THERM_ALERTn is low throughout a thermal-trip reset (R488). -/
def enterReset (s : State) (h : Hold) : State :=
  { State.reset with
    raw := s.raw, variant := s.variant, gradeI := s.gradeI
    dict := s.dict.filter fun e => survives (e.1 / 65536)
    mm := { host := s.mm.host }
    tm := { refPresent := s.tm.refPresent }
    ho := { perst := s.ho.perst }
    ag := { wear := s.nv.wear.wear, heat := s.nv.wear.heat }
    nv := { s.nv with
      heldEvents := [], fwJob := none, imgJob := none, quote := none, lastQuote := none, quoteOut := [], wearHeld := false }
    sy := { hold := some h, tap := { s.sy.tap with tested := false }, porGood := s.sy.porGood }
    su := { alert := h == .thermal }
    answer := s.answer, draws := s.draws, pending := s.pending }

/-- A retaining reset is requested (R472, R473): before the start-up apply it runs as a device reset; a deeper reset under way
absorbs it. -/
def requestRetaining (s : State) : State :=
  if s.sy.hold.isSome then s
  else if s.reg Ix.startPhase 0 = 3 ∨ s.sy.retaining then s.startRetaining
  else s.enterReset .request

/-- A write to RESET_REQUEST (R472). -/
def writeResetRequest (s : State) (v : Nat) : Wr :=
  if v = 1 then (s.requestRetaining, 0)
  else if v = 2 then ((s.writeCause 2 0xFF).enterReset .request, 0)
  else (s, Abort.outOfRange)

end State

/-- ISLAND_RESET (R28): an island number with its complement. -/
def execIslandReset (value complement : Nat) (s : State) : Out :=
  if complementOk value complement then (s.writeIslandReset value).out else Wr.out (s, Abort.guardFailed)

/-- ISLAND_RESET_DONE (R30, R31): island `i` reaches RUN. -/
def execIslandResetDone (i : Nat) (s : State) : Out :=
  if s.islandPresent i = false then .next s
  else if s.resettable i ∧ s.sy.hold.isNone ∧ s.sy.retaining = false ∧ s.reg Ix.startPhase 0 = 3 ∧
      (s.islandState i = 1 ∨ s.islandState i = 2) then
    .next ((s.islandRuns i).countSat Ix.islandResetCount (i + 1) 1)
  else .next s

/-- RETAINING_RESET (R193, R194): the logic of every island is re-initialised and accepted work is kept. -/
def execRetainingReset (s : State) : Out := .next s.requestRetaining

end Sys2Proof.Machine
end

