-- ==== Sys2Proof/Machine/Server.lean ====
section
/-! DEFINITION. The dictionary server's commands: one entry of a Cormus message each, guarded writes, and OBJECT_WRITE
(R361, R376, R378). -/

namespace Sys2Proof.Machine

/-- A command entry of a Cormus message (R376): `len` is the length field, `data` what follows the head. -/
structure CEntry where
  op : Nat
  zero : Nat
  idx : Nat
  sub : Nat
  len : Nat
  off : Nat
  data : List Byte
  deriving DecidableEq, Repr

namespace State

/-- A write of a whole object or element on any path but a guarded one. -/
def writeObject (s : State) (idx sub : Nat) (data : List Byte) : Wr :=
  if idx = Ix.imageCommand ∧ sub = 0 ∧ data.length = 1 then s.writeImageCommand (leNat data) else s.writeElement idx sub data

/-- A guarded object takes a value whose complement has matched. -/
def runGuarded (s : State) (idx v : Nat) : Wr :=
  if idx = Ix.islandReset then s.writeIslandReset v
  else if idx = Ix.resetRequest then s.writeResetRequest v
  else if idx = Ix.rootKeyRevoke then s.writeRootKeyRevoke v
  else if idx = Ix.fwMinSecurityRaise then s.writeFwMinSecurityRaise v
  else (s, Abort.noSuch)

/-- WRITE_GUARDED (R376): a value and its complement at the object's width. -/
def writeGuarded (s : State) (idx sub : Nat) (data : List Byte) : Wr :=
  match objAt idx with
  | none => (s, Abort.noSuch)
  | some o =>
    let w := o.ty.width
    if (o.cnt = .scalar ∨ sub ≠ 0) ∧ s.elementPresent o sub = false then (s, Abort.noSuch)
    else if o.acc ≠ .rwg then (s, Abort.guardFailed)
    else if data.length ≠ 2 * w then (s, Abort.length)
    else if data.drop w ≠ complementBytes (data.take w) then (s, Abort.guardFailed)
    else s.runGuarded idx (leNat (data.take w))

/-- An untagged write that R378 turns away whatever CORMUS_TAG_REQUIRED holds. -/
def keyedOnly (op idx : Nat) : Bool :=
  (op == 2 || op == 3 || op == 5) && (idx == Ix.cormusTagRequired || (decide (0xB000 ≤ idx) && decide (idx ≤ 0xBFFF)))

/-- A write's answer as a read's. -/
def noData (w : Wr) : Rd := (w.1, w.2, [])

/-- One entry is executed (R376, R378, R380). -/
def runEntry (s : State) (tagged : Bool) (e : CEntry) : Rd :=
  if tagged = false ∧ (s.regB Ix.cormusTagRequired 0 ∨ keyedOnly e.op e.idx) then (s, Abort.tagRequired, [])
  else if e.op = 0 ∨ 6 < e.op then (s, Abort.unknown, [])
  else if e.zero ≠ 0 ∨ (e.op < 4 ∧ e.off ≠ 0) ∨ ((e.op = 1 ∨ e.op = 6) ∧ e.len ≠ 0) then (s, Abort.malformed, [])
  else if e.op = 1 then s.readElement e.idx e.sub
  else if e.op = 2 then noData (s.writeObject e.idx e.sub e.data)
  else if e.op = 3 then noData (s.writeGuarded e.idx e.sub e.data)
  else if e.op = 4 then s.readRange e.idx e.sub e.off e.len
  else if e.op = 5 then noData (s.writeRange e.idx e.sub e.off e.data)
  else s.describe e.idx e.sub e.off

/-- An entry as a command of its own: it is served once the dictionary is (R386, R469). -/
def serveEntry (s : State) (tagged : Bool) (e : CEntry) : Out :=
  if s.trafficWaits then .next s else (s.runEntry tagged e).out

end State

/-- READ (R376). -/
def execRead (idx sub : Nat) (tagged : Bool) (s : State) : Out := s.serveEntry tagged ⟨1, 0, idx, sub, 0, 0, []⟩

/-- WRITE (R376). -/
def execWrite (idx sub : Nat) (data : List Byte) (tagged : Bool) (s : State) : Out :=
  s.serveEntry tagged ⟨2, 0, idx, sub, data.length, 0, data⟩

/-- WRITE_GUARDED (R376): `data` is the value, then its complement. -/
def execWriteGuarded (idx sub : Nat) (data : List Byte) (tagged : Bool) (s : State) : Out :=
  s.serveEntry tagged ⟨3, 0, idx, sub, data.length, 0, data⟩

/-- READ_RANGE (R376): `len` bytes from byte `off`. -/
def execReadRange (idx sub off len : Nat) (tagged : Bool) (s : State) : Out := s.serveEntry tagged ⟨4, 0, idx, sub, len, off, []⟩

/-- WRITE_RANGE (R376). -/
def execWriteRange (idx sub off : Nat) (data : List Byte) (tagged : Bool) (s : State) : Out :=
  s.serveEntry tagged ⟨5, 0, idx, sub, data.length, off, data⟩

/-- DESCRIBE (R376). -/
def execDescribe (idx sub off : Nat) (tagged : Bool) (s : State) : Out := s.serveEntry tagged ⟨6, 0, idx, sub, 0, off, []⟩

/-- OBJECT_WRITE (R361): a write on the supervisor's own path. -/
def execObjectWrite (idx sub : Nat) (data : List Byte) (s : State) : Out := (s.writeObject idx sub data).out

end Sys2Proof.Machine
end

