-- ==== Sys2Proof/Machine/Cormus.lean ====
section
/-! DEFINITION. Cormus messages: their frames, tags, replays and cache, and their responses; address resolution; and the frames
a port island diverts (R374 to R379, R386). The layouts of ARP and neighbour discovery are those of their standards. -/

namespace Sys2Proof.Machine

/-- The management port, where a port is named (R374). -/
def mgmtPort : Nat := 512

/-- Messages the supervisor queues (R374). -/
def cormusQueue : Nat := 256

/-- The header of a request and its entries (R376); `stop_` is its byte after the entries. -/
structure CHead where
  tagged : Bool
  stopOnAbort : Bool
  seq : Nat
  key : Nat
  counter : Nat
  stop_ : Nat
  entries : List CEntry
  deriving DecidableEq, Repr

/-- `k` entries that fill the bytes exactly; each entry's data is padded to 4 bytes. -/
def cormusEntries : Nat → List Byte → Option (List CEntry)
  | 0, b => if b = [] then some [] else none
  | k + 1, b =>
    let len := beField b 6 2
    let op := beField b 0 1
    let n := if op = 4 then 0 else len
    let size := 12 + pad4 n
    if b.length < size then none
    else
      let e : CEntry :=
        { op := op, zero := beField b 1 1, idx := beField b 2 2, sub := beField b 4 2, len := len, off := beField b 8 4,
          data := slice b 12 n }
      (cormusEntries k (b.drop size)).map (e :: ·)

/-- A request's header and entries; none where it breaks R376. -/
def cormusHead (b : List Byte) : Option CHead :=
  let flags := beField b 1 1
  let key := beField b 4 1
  let n := beField b 6 2
  let ctr := beField b 8 4
  let tagged := bit flags 1
  let stop := 16 + n
  if b.length < 16 ∨ beField b 0 1 ≠ 1 ∨ 7 < flags ∨ bit flags 0 ∨ 3 < key ∨ beField b 5 1 = 0 ∨ 32 < beField b 5 1 ∨ n % 4 ≠ 0 ∨
      n < 12 ∨ 1408 < n ∨ beField b 12 4 ≠ 0 ∨ (tagged = false ∧ (key ≠ 0 ∨ ctr ≠ 0)) ∨
      min 1440 b.length < stop + (if tagged then 16 else 0) then none
  else
    (cormusEntries (beField b 5 1) (slice b 16 n)).map fun es =>
      { tagged := tagged, stopOnAbort := bit flags 2, seq := beField b 2 2, key := key, counter := ctr, stop_ := stop, entries := es }

/-- One entry of a response (R376). -/
def responseEntry (e : CEntry) (abort : Nat) (data : List Byte) : List Byte :=
  beBytes 1 e.op ++ [0#8] ++ beBytes 2 e.idx ++ beBytes 2 e.sub ++ beBytes 2 data.length ++ beBytes 2 abort ++ [0#8, 0#8] ++ padded data

/-- A message's tag: the first 16 bytes of its HMAC (R378). -/
def cormusTag (key msg : List Byte) : List Byte := (hmacSha256 key msg).take 16

namespace State

/-! ### Frames (R374, R375) -/

/-- The Cormus message that a frame carries, with its datagram where it is one; `ids` are the EtherType and the UDP port that
held when its first byte came (R374). -/
def cormusBy (s : State) (ids : Nat × Nat) (port : Nat) (w : List Byte) : Option (List Byte × Option Udp) :=
  let at_ := if tagAt w 12 then 16 else 12
  let here := port == mgmtPort || s.regB Ix.cormusPortEnable (port + 1)
  let mine := slice w 0 6 == s.macOf 1023 || (port == mgmtPort && beField w 0 1 % 2 == 1)
  if here = false then none
  else if beField w at_ 2 = ids.1 ∧ mine = true then some (w.drop (at_ + 2), none)
  else
    match udpOf w with
    | some u => if u.dport = ids.2 ∧ s.ownsIp u then some (u.data, some u) else none
    | none => none

/-- The message of a frame whose first byte comes now. -/
def cormusOf (s : State) (port : Nat) (w : List Byte) : Option (List Byte × Option Udp) := s.cormusBy s.cormusIds port w

/-- The source a response is kept under (R379). -/
def cormusSource (w : List Byte) (u : Option Udp) : List Byte :=
  match u with
  | some u => u.src ++ beBytes 2 u.sport
  | none => slice w 6 6

/-- The frame that answers a request: addresses swapped, its VLAN tag copied; `rest` from the EtherType on. -/
def answerFrame (s : State) (w rest : List Byte) : List Byte :=
  let own := slice w 0 6
  let src := if beNat own / 1099511627776 % 2 = 1 then s.macOf 1023 else own
  slice w 6 6 ++ src ++ (if tagAt w 12 then slice w 12 4 else []) ++ rest

/-- A message as it stands in its answer, over the request's own carrier. -/
def cormusFrame (s : State) (w : List Byte) (u : Option Udp) (msg : List Byte) : List Byte :=
  let at_ := if tagAt w 12 then 16 else 12
  s.answerFrame w (match u with
    | some u => udpPacket u.v6 u.dst u.src u.dport u.sport msg true
    | none => slice w at_ 2 ++ msg)

/-- Answers of port `p` that wait go out in class CORMUS_TX_CLASS (R375). -/
def sendReplies (s : State) (p : Nat) : State :=
  match s.co.out.find? fun e => e.1 == p with
  | none => s
  | some e =>
    s.trySend p (s.queueOpen (8 * p + s.reg Ix.cormusTxClass 0)) e.2 s.raw fun t => { t with co := { t.co with out := t.co.out.erase e } }

/-- An answer is handed to the port its request came from. -/
def sendReply (s : State) (port : Nat) (frame : List Byte) : State :=
  let s1 := { s with co := { s.co with reply := frame } }
  if port = mgmtPort then { s1 with mp := { s1.mp with out := s1.mp.out ++ [frame] } }
  else ({ s1 with co := { s1.co with out := s1.co.out ++ [(port, frame)] } }).sendReplies port

/-! ### Messages (R376 to R379) -/

/-- The entries in order (R377): the state, and the response's entries. `size` is the response so far, its tag included. -/
def runEntries (s : State) (h : CHead) : List CEntry → Nat → Bool → State × List Byte
  | [], _, _ => (s, [])
  | e :: rest, size, stopped =>
    let r := if stopped then (s, Abort.notExecuted, []) else s.runEntry h.tagged e
    let data := if r.2.1 = 0 then r.2.2 else []
    let fits := decide (size + 12 * (rest.length + 1) + pad4 data.length ≤ 1440)
    let t := if fits then r.1 else s
    let code := if fits then r.2.1 else Abort.notExecuted
    let out := if fits then data else []
    let u := runEntries t h rest (size + 12 + pad4 out.length) (stopped || (code != 0 && h.stopOnAbort) || t.trafficWaits)
    (u.1, responseEntry e code out ++ u.2)

/-- The response to a request. -/
def response (key : List Byte) (h : CHead) (entries : List Byte) : List Byte :=
  let flags := 1 + 2 * ofBool h.tagged + 4 * ofBool h.stopOnAbort
  let body := beBytes 1 1 ++ beBytes 1 flags ++ beBytes 2 h.seq ++ beBytes 1 h.key ++ beBytes 1 h.entries.length ++
    beBytes 2 entries.length ++ beBytes 4 h.counter ++ [0#8, 0#8, 0#8, 0#8] ++ entries
  if h.tagged then body ++ cormusTag key body else body

/-- Responses no older than 1 s (R379). -/
def freshReplies (s : State) : List CormusReply := s.co.cache.filter fun r => decide (s.since r.sentAt < second)

/-- A message waits, or is dropped where the queue is full (R374, R386). -/
def queueMessage (s : State) (ids : Nat × Nat) (port : Nat) (w : List Byte) : State :=
  if s.co.waiting.length < cormusQueue then { s with co := { s.co with waiting := s.co.waiting ++ [(port, w, ids)] } }
  else s.count Ix.cormusRxDropped 0 1

/-- A request that is new is executed, answered and kept (R377 to R379). -/
def runMessage (s : State) (port : Nat) (w : List Byte) (u : Option Udp) (h : CHead) (key : List Byte) : State :=
  let s1 := if h.tagged then
      ({ s with nv := { s.nv with cormusCounters := tset s.nv.cormusCounters h.key h.counter } }).count Ix.nvBytesWritten 0 32
    else s
  let r := s1.runEntries h h.entries (if h.tagged then 32 else 16) false
  if r.1.trafficWaits then r.1
  else
    let msg := response key h r.2
    let kept : CormusReply :=
      { source := cormusSource w u, seq := h.seq, key := if h.tagged then h.key else 4, counter := h.counter, frame := msg,
        sentAt := r.1.rawTotal }
    let cache := r.1.freshReplies
    let s2 := { r.1 with co := { r.1.co with cache := (cache ++ [kept]).drop (cache.length + 1 - 64) } }
    s2.sendReply port (s2.cormusFrame w u msg)

/-- The supervisor takes a message: header, tag, cache, replay, supply warning, in the order of R378. -/
def takeMessage (s : State) (ids : Nat × Nat) (port : Nat) (w : List Byte) : State :=
  match s.cormusBy ids port w with
  | none => s
  | some (b, u) =>
    match cormusHead b with
    | none => s.count Ix.cormusRxDropped 0 1
    | some h =>
      let key := (tget s.co.keys h.key).getD []
      if h.tagged ∧ ((tget s.co.keys h.key).isNone ∨ cormusTag key (b.take h.stop_) ≠ slice b h.stop_ 16) then
        s.count Ix.cormusTagFails 0 1
      else
        let same (r : CormusReply) : Bool :=
          r.source == cormusSource w u && r.seq == h.seq && r.key == (if h.tagged then h.key else 4) && r.counter == h.counter
        match s.freshReplies.find? same with
        | some r => (s.count Ix.cormusCacheHits 0 1).sendReply port (s.cormusFrame w u r.frame)
        | none =>
          if h.tagged ∧ h.counter ≤ tgetD s.nv.cormusCounters h.key 0 then s.count Ix.cormusReplays 0 1
          else if h.tagged ∧ s.nvHeld then s.queueMessage ids port w
          else s.runMessage port w u h key

/-- Messages that wait are served in order; one that must still wait does so. -/
def serveWaiting (s : State) : State :=
  let s0 := { s with co := { s.co with waiting := [] } }
  s.co.waiting.foldl (fun t e => if t.trafficWaits then t.queueMessage e.2.2 e.1 e.2.1 else t.takeMessage e.2.2 e.1 e.2.1) s0

/-! ### Address resolution (R375) -/

/-- The answer to an ARP request for the device's IPv4 address. -/
def arpAnswer (s : State) (w : List Byte) : Option (List Byte) :=
  let at_ := if tagAt w 12 then 16 else 12
  let b := w.drop (at_ + 2)
  if beField w at_ 2 = 0x0806 ∧ 28 ≤ b.length ∧ slice b 0 8 = [0#8, 1#8, 8#8, 0#8, 6#8, 4#8, 0#8, 1#8] ∧
      s.reg Ix.deviceIpv4 0 ≠ 0 ∧ slice b 24 4 = s.ipv4 then
    some (s.answerFrame w (beBytes 2 0x0806 ++ [0#8, 1#8, 8#8, 0#8, 6#8, 4#8, 0#8, 2#8] ++ s.macOf 1023 ++ s.ipv4 ++ slice b 8 10))
  else none

/-- The pseudo-header of ICMPv6. -/
def icmpPseudo (src dst : List Byte) (n : Nat) : List Byte := src ++ dst ++ beBytes 4 n ++ [0#8, 0#8, 0#8, 58#8]

/-- The answer to an IPv6 neighbour solicitation for the device's IPv6 address. -/
def neighbourAnswer (s : State) (w : List Byte) : Option (List Byte) :=
  let at_ := if tagAt w 12 then 16 else 12
  let b := w.drop (at_ + 2)
  let n := beField b 4 2
  let src := slice b 8 16
  let icmp := slice b 40 n
  if beField w at_ 2 = 0x86DD ∧ 40 + n ≤ b.length ∧ 24 ≤ n ∧ beField b 6 2 = 0x3AFF ∧ slice icmp 0 2 = [135#8, 0#8] ∧
      s.reg Ix.deviceIpv6 0 ≠ 0 ∧ slice icmp 8 16 = s.ipv6 ∧ inetGood (icmpPseudo src (slice b 24 16) n ++ icmp) = true then
    let unspecified := decide (src = List.replicate 16 0#8)
    let dst := if unspecified then [0xFF#8, 2#8] ++ List.replicate 13 0#8 ++ [1#8] else src
    let body (sum : Nat) : List Byte :=
      [136#8, 0#8] ++ beBytes 2 sum ++ [if unspecified then 0x20#8 else 0x60#8, 0#8, 0#8, 0#8] ++ s.ipv6 ++ [2#8, 1#8] ++ s.macOf 1023
    let sum := inetSum (icmpPseudo s.ipv6 dst 32 ++ body 0)
    some (s.answerFrame w (beBytes 2 0x86DD ++ [0x60#8, 0#8, 0#8, 0#8] ++ beBytes 2 32 ++ [58#8, 255#8] ++ s.ipv6 ++ dst ++ body sum))
  else none

/-- The answer to an address-resolution frame. -/
def resolution (s : State) (w : List Byte) : Option (List Byte) := (s.arpAnswer w).orElse fun _ => s.neighbourAnswer w

/-- A port island diverts the frame (R225, R374): what its first cell shows of it decides, by the identifiers `ids`. -/
def diverted (s : State) (ids : Nat × Nat) (p : Nat) (w : List Byte) : Bool :=
  (s.cormusBy ids p w).isSome || (s.resolution w).isSome || (s.timeMessage p w).isSome

end State

/-! ### The commands -/

/-- CORMUS_MESSAGE (R374 to R379): a frame, without its FCS, arrives at data port `port`, or at the management port (512); the
command stands for its first byte (DESIGN CHOICE, notes/assumptions/34.md). -/
def execCormusMessage (port : Nat) (frame : List Byte) (s : State) : Out :=
  if port ≠ mgmtPort ∧ s.portPresent port = false then .next s
  else if (s.cormusOf port frame).isNone ∨ s.sy.hold.isSome ∨ s.sy.recovery then .next s
  else if port = mgmtPort ∧ s.regB Ix.t1sEnable 0 = false then .next s
  else
    let s1 := s.count Ix.cormusRx 0 1
    if s.trafficWaits then .next (s1.queueMessage s.cormusIds port frame) else .next (s1.takeMessage s.cormusIds port frame)

/-- ADDRESS_RESOLUTION (R375): an ARP request or a neighbour solicitation for the device's own addresses is answered. -/
def execAddressResolution (port : Nat) (frame : List Byte) (s : State) : Out :=
  if port ≠ mgmtPort ∧ s.portPresent port = false then .next s
  else if s.trafficWaits ∨ (port = mgmtPort ∧ s.regB Ix.t1sEnable 0 = false) then .next s
  else
    match s.resolution frame with
    | some f => .next (s.sendReply port f)
    | none => .next s

/-- FIRST_CELL (R36, R57, R68, R225, R374): the first cell of a frame is complete: the intake reservation, and the handle; a
frame that its port island diverts gets none, and neither does a cycle frame, which the ring controller serves (R69). `cells`
are the cells the buffer island reserves. Unless at least 64 bytes, not above the maximum, form the cell, nothing happens (R38, R39). -/
def execFirstCell (p : Nat) (pre : Bool) (data : List Byte) (ended : Bool) (cells : List Nat) (s : State) : Out :=
  if s.portPresent p = false then .next s
  else
    match s.rxFrame? (State.macKey p pre) with
    | none => .next s
    | some r =>
      let bytes := r.bytes ++ data
      let n := bytes.length
      let whole := ended && (!pre || r.complete) && decide (64 ≤ n ∧ n ≤ 256)
      let first := !ended && (if pre then decide (256 ≤ n) else n == 256)
      let cls := classOf (s.reg Ix.portPcpToTc (p + 1)) (s.reg Ix.portDefaultTc (p + 1)) bytes
      let acct := 8 * p + cls
      if r.pkt.isSome ∨ r.diverted ∨ r.failed ∨ r.duringReset ∨ s.running (State.portIsland p) = false ∨ (whole || first) = false ∨
          s.reg Ix.portMaxFrame (p + 1) < n ∨ (pre ∧ data ≠ []) then .next s
      else if s.isCycleFrame p bytes then .next (s.dropRx (State.macKey p pre))
      else if s.diverted r.cormusIds p bytes then .next (s.setRx (State.macKey p pre) { r with bytes := bytes, diverted := true })
      else if s.intakeGrants acct (s.rxCells p) = false then
        .next (s.rxFails (State.macKey p pre) { r with bytes := bytes } Ix.rxNoIntake n)
      else if s.freeChoice cells (s.rxCells p) then
        let h := s.fr.nextPkt
        let pk := { State.newPacket p cls pre bytes whole r.ts cells (s.regB Ix.intakeGuarded (acct + 1)) 0xFFFFFFFF 0 none false with
                    tsInvalid := r.tsInvalid }
        .next ((s.createHandle pk).setRx (State.macKey p pre) { r with bytes := [], pkt := some h })
      else .next s

/-- TX_SELECT (R136): a transmit opportunity of port `p`. `launch` and `pipe` are the launch instant and the pipeline delay
of the position (R221); `found` is what is met in the codewords read (R51, R53). An answer of the device's own that waits goes first (R375). -/
def execTxSelect (p : Nat) (launch : Raw) (pipe : Int) (found : List CellFinding) (s : State) : Out :=
  if s.portPresent p = false then .next s
  else if s.portUp p = false ∨ s.awake p = false then .next s
  else
    let ts := s.txTimestamp p launch pipe
    let s1 := (List.range 8).foldl (fun t c => t.noteDeferral p c) ((s.sendReplies p).dropBadHeads p)
    .next (if s1.preemptActive p then s1.selectActive p ts found else s1.selectWhole p ts found)

end Sys2Proof.Machine
end

