-- ==== Sys2Proof/Machine/Dma.lean ====
section
/-! DEFINITION. Commands of the transfer channels and the DMA engines (chapter 11). -/

namespace Sys2Proof.Machine
open State

/-- CHANNEL_ENTRY_LOAD (R331, R332, R334): the entry of a channel whose doorbell waits is loaded, in the place of the least
recently used entry where the cache is full; where none can be evicted the wait is counted once. -/
def execChannelEntryLoad (c : Nat) (s : State) : Out :=
  let x := s.channel c
  if x.ringing = false ∨ x.entry.isSome ∨ s.hostPowered = false then .next s
  else if s.cachedChannels.length < 512 then .next (s.loadEntry c)
  else
    match s.evictionChoice with
    | some v => .next ((s.dropEntry v).loadEntry c)
    | none => if x.counted then .next s else .next ((s.setChannel c { x with counted := true }).count Ix.dmaCacheFull 0 1)

/-- CH_INVALIDATE (R333). -/
def execChInvalidate (value : Nat) (s : State) : Out := (s.writeChInvalidate value).out

/-- MOVE_COPY (R335, R338, R340, R341): the next move of channel `c`, a copy, starts. -/
def execMoveCopy (c : Nat) (s : State) : Out := .next (s.startMove c 3)

/-- INDEX_GATHER (R339): the next move of channel `c`, an index gather, starts. -/
def execIndexGather (c : Nat) (s : State) : Out := .next (s.startMove c 4)

/-- INDEX_SCATTER (R339): the next move of channel `c`, an index scatter, starts. -/
def execIndexScatter (c : Nat) (s : State) : Out := .next (s.startMove c 5)

/-- PLANE_SPLIT (R346 to R348): the next move of channel `c`, a plane split, starts. -/
def execPlaneSplit (c : Nat) (s : State) : Out := .next (s.startMove c 6)

/-- PLANE_MERGE (R346 to R348): the next move of channel `c`, a plane merge, starts. -/
def execPlaneMerge (c : Nat) (s : State) : Out := .next (s.startMove c 7)

/-- CHUNK_BEGIN (R342, R345): the next chunk of channel `c` begins, within its pacing, its in-flight limit and the staging
buffer; ring gathers go first (R259). -/
def execChunkBegin (c : Nat) (s : State) : Out :=
  match (s.channel c).entry, (s.channel c).units.find? fun u => u.stage == .started && !u.todo.isEmpty with
  | some e, some u =>
    if s.hostPowered ∧ s.ringsAhead = false ∧ s.paceAllows c e ∧ s.chanChunks c < entInflight e ∧ s.stageUsed < 2048 then .next (s.beginChunk c e u)
    else .next s
  | _, _ => .next s

/-- CHUNK_DONE (R342, R346): the oldest chunk in flight of the unit of channel `c` whose first descriptor is `first`
completes; `corrected` are codewords corrected on the way, by LPDDR4X channel. -/
def execChunkDone (c first : Nat) (corrected : List (Nat × Nat)) (s : State) : Out :=
  match (s.channel c).entry, s.unit? c first with
  | some e, some u =>
    match u.stage, u.flying with
    | .started, x :: _ => .next ((s.noteCorrected corrected).endChunk c e u x)
    | _, _ => .next s
  | _, _ => .next s

/-- BUS_ERROR (R349 to R351): an access of channel `c` fails; it is repeated up to the entry's retry count, then handled. -/
def execBusError (c : Nat) (x : BusFault) (s : State) : Out :=
  let ch := s.channel c
  match ch.entry with
  | none => .next s
  | some e =>
    let again (u : HUnit) : State := (s.modUnit c u.first fun v => { v with retries := v.retries + 1 }).count Ix.chRetries (c + 1) 1
    match x with
    | .data first =>
      match s.unit? c first with
      | some u =>
        if u.stage ≠ .started ∨ u.flying = [] then .next s
        else if u.retries < entRetries e then .next (again u)
        else .next (s.failData c u)
      | none => .next s
    | .fetch =>
      if ch.reading = false ∧ ch.more = false then .next s
      else if ch.retries < entRetries e then
        .next ((s.setChannel c { ch with retries := ch.retries + 1 }).count Ix.chRetries (c + 1) 1)
      else .next (s.haltChannel c 3 ch.accepted)
    | .flush =>
      match ch.units with
      | u :: _ =>
        if u.stage ≠ .finished ∨ u.outcome ≠ 1 ∨ (bit (dCtl u.last.2) 4 = false ∧ isLpddr (entRingBase e) = false) then .next s
        else if u.retries < entRetries e then .next (again u)
        else .next ((s.finishUnit c u.first 3 5).haltChannel c 1 u.last.1)
      | [] => .next s
    | .writeBack =>
      match ch.units with
      | u :: _ =>
        if u.stage ≠ .finished ∨ s.hostPowered = false then .next s
        else if u.retries < entRetries e then .next (again u)
        else .next (s.loseWriteBack c e u)
      | [] => .next s

/-- CH_RESTART (R352). -/
def execChRestart (c value : Nat) (s : State) : Out := (s.writeChRestart c value).out

/-- CH_ABORT (R353, R354). -/
def execChAbort (value : Nat) (s : State) : Out := (s.writeChAbort value).out

/-- CH_SHADOW_ARM (R355, R356). -/
def execChShadowArm (c value : Nat) (s : State) : Out := (s.writeChShadowArm c value).out

/-- DMA_MODE_SWITCH (R344): the started units have finished their transfers after an apply of DMA_MODE. -/
def execDmaModeSwitch (s : State) : Out :=
  match s.ho.dmaNext with
  | some v =>
    if s.ho.channels.any fun e => e.2.units.any HUnit.transferring then .next s
    else .next { s with ho := { s.ho with dmaOper := some v, dmaNext := none } }
  | none => .next s

end Sys2Proof.Machine
end

