-- ==== Sys2Proof/Machine/Host.lean ====
section
/-! DEFINITION. Commands of the host island: its resets, doorbells, frames in both directions, write-back, completion rings,
interrupts, link and power states (chapter 10). -/

namespace Sys2Proof.Machine
open State

/-- FUNCTION_LEVEL_RESET (R299). -/
def execFunctionLevelReset (s : State) : Out := .next (if s.ho.perst ∨ s.hostOn = false then s else s.resetHost)

/-- PERSTN (R299, R467): PERSTn falls; with the host island strapped off it is ignored. -/
def execPerstn (s : State) : Out :=
  if s.ho.perst ∨ s.hostOn = false then .next s
  else
    let s1 := s.resetHost
    .next (({ s1 with ho := { s1.ho with perst := true, link := 0, width := 0, rate := 0 } }).setIslandState hostIsland 1)

/-- PERSTN_RELEASE (R469): PERSTn rises, and the island leaves reset; before the start-up apply it reads INIT. -/
def execPerstnRelease (s : State) : Out :=
  if s.ho.perst = false then .next s
  else
    let phase := s.reg Ix.startPhase 0
    .next (({ s with ho := { s.ho with perst := false } }).setIslandState hostIsland
      (if phase = 3 then 3 else if phase = 0 then 1 else 2))

/-- CHANNEL_DOORBELL (R297, R304, R332, R469, R474): a write to the channel doorbell, `whole` where it is a single 4-byte
write. -/
def execChannelDoorbell (value : Nat) (whole : Bool) (s : State) : Out :=
  if s.sy.retaining then .next (s.holdWrite (.channelDoorbell value whole))
  else if whole = false ∨ 4096 ≤ value ∨ s.reg Ix.startPhase 0 < 3 then .next (s.count Ix.doorbellIgnored 0 1)
  else
    let x := s.channel value
    if x.entry.isNone then .next (s.setChannel value { x with ringing := true })
    else .next (s.serveDoorbell value)

/-- DESCRIPTOR_FETCH_DONE (R304 to R307): the arbiter's next turn: index block and descriptors return. -/
def execDescriptorFetchDone (s : State) : Out :=
  if s.hostPowered = false then .next s
  else
    match s.arbiterPick with
    | none => .next s
    | some (c, left) =>
      match s.chanReady c with
      | some e => .next (({ s with ho := { s.ho with visit := some (c, left) } }).fetchTurn c e)
      | none => .next s

/-- COMPLETION_DOORBELL (R297, R317): a write to the completion doorbell; the ring's consumer index is read. -/
def execCompletionDoorbell (value : Nat) (whole : Bool) (s : State) : Out :=
  if s.sy.retaining then .next (s.holdWrite (.completionDoorbell value whole))
  else if whole = false ∨ 1024 ≤ value ∨ s.reg Ix.startPhase 0 < 3 ∨ s.regB Ix.cringEnable (value + 1) = false then
    .next (s.count Ix.doorbellIgnored 0 1)
  else if s.hostPowered then .next (s.readConsumer value)
  else .next s

/-- TRANSMIT_FRAME (R41, R308, R310): the next accepted chain of channel `c` is judged, and asks for its reservation. -/
def execTransmitFrame (c : Nat) (s : State) : Out :=
  match s.chanEntry c, (s.channel c).units.find? fun u => u.stage == .accepted with
  | some e, some u => if u.kind = 0 ∧ s.hostPowered ∧ s.inTurn u then .next (s.judgeTransmit c e u) else .next s
  | _, _ => .next s

/-- RECEIVE_BUFFER (R313): the next accepted receive descriptor of channel `c` becomes usable, or errors if shorter than B. -/
def execReceiveBuffer (c : Nat) (s : State) : Out :=
  match s.chanEntry c, (s.channel c).units.find? fun u => u.stage == .accepted with
  | some e, some u =>
    if u.kind ≠ 1 then .next s
    else if u.room < entRxSize e then .next (s.finishUnit c u.first 3 6)
    else if s.memExists (dAddr u.last.2) u.room = false then .next (s.finishUnit c u.first 3 12)
    else .next (s.modUnit c u.first fun v => { v with stage := .usable })
  | _, _ => .next s

/-- HOST_RX_DELIVERY (R138, R311 to R314): the highest eligible class of host port `h` starts its delivery; `found` is
what is met in the codewords read as the copy is fetched (R51, R53). -/
def execHostRxDelivery (h : Nat) (found : List CellFinding) (s : State) : Out :=
  if 4 ≤ h then .next s
  else if s.hostPowered = false then .next s
  else
    let qs := ([7, 6, 5, 4, 3, 2, 1, 0] : List Nat).map fun c => 4096 + 8 * h + c
    match qs.findSome? fun q => (s.rxReady q).map fun r => (q, r) with
    | none => .next s
    | some (q, d, k, us) =>
      if s.mayStart d.chan = false then .next s
      else
        let s1 := (found.filter fun f => k.cells.contains f.cell).foldl (fun t f => t.readWord f true) s
        .next (s1.startDelivery q d ((s1.pkt? d.pkt).getD k) us)

/-- LAUNCH_TIME_REACHED (R208, R310): the raw target of the frame of handle `h` falls due. -/
def execLaunchTimeReached (h : Nat) (s : State) : Out :=
  match s.pkt? h with
  | some k =>
    match k.launch with
    | some (target, d, _) => if s.rawDelta d target ≤ 0 then .next (s.setPkt h { k with launchDue := true }) else .next s
    | none => .next s
  | none => .next s

/-- UNIT_WRITEBACK (R316, R323): the finished unit at the head of channel `c` is written back; a link in L1 returns to L0
first. -/
def execUnitWriteback (c : Nat) (s : State) : Out :=
  match s.mayWriteBack c with
  | some (e, u) =>
    if s.ho.link ≠ 0 then .next { s with ho := { s.ho with l0Wanted := true } } else .next (s.writeBack c e u)
  | none => .next s

/-- BACKLOG_DRAIN (R319): records of ring `r` leave the backlog as far as there is room. -/
def execBacklogDrain (r : Nat) (s : State) : Out :=
  if s.hostPowered ∧ s.regB Ix.cringEnable (r + 1) then .next (drain 64 s r) else .next s

/-- CRING_POLL (R317): 10 µs have passed while the backlog holds records. -/
def execCringPoll (r : Nat) (s : State) : Out :=
  let x := s.cring r
  if s.hostPowered ∧ s.regB Ix.cringEnable (r + 1) ∧ x.backlog ≠ [] ∧ ns 10000 ≤ s.since x.lastPoll then
    .next (s.readConsumer r)
  else .next s

/-- VECTOR_MESSAGE (R321 to R324): vector `v`'s count or timer makes its message due. -/
def execVectorMessage (v : Nat) (s : State) : Out :=
  if 2048 ≤ v then .next s
  else if s.messageDue v then .next (s.dueMessage v) else .next s

/-- VECTOR_UNMASK (R322): the mask bit of vector `v` is written. -/
def execVectorUnmask (v : Nat) (masked : Bool) (s : State) : Out :=
  if 2048 ≤ v then .next s else .next (s.maskVector v masked)

/-- POWER_STATE_CHANGE (R322, R324, R325): D3hot, Bus Master Enable, MSI-X Enable, the function mask and PME_En as written. -/
def execPowerStateChange (d3 bme msix fmask pmeEn : Bool) (s : State) : Out :=
  if s.ho.perst then .next s
  else
    let before := s.hostPowered
    let s1 := { s with ho := { s.ho with
      d3hot := d3, busMaster := bme, msixEnable := msix, functionMask := fmask, pmeEnable := pmeEn } }
    .next (if !before && s1.hostPowered && msix then s1.releaseVectors else s1.sendPending)

/-- PME_SEND (R296, R324): the pending age has reached PME_AGE_THRESHOLD, in D3hot or in D0; in D0 with Bus Master Enable clear
the function issues no request at all. -/
def execPmeSend (s : State) : Out :=
  if (s.ho.d3hot ∨ s.ho.busMaster) ∧ s.sy.retaining = false ∧ s.ho.pmeEnable ∧ s.ho.pmeStatus = false ∧ s.ho.perst = false ∧
      ns (s.reg Ix.pmeAgeThreshold 0 * 1000) ≤ s.pendingAge then
    .next (({ s with ho := { s.ho with pmeStatus := true } }).countSat Ix.pmeSent 0 1)
  else .next s

/-- PME_STATUS_CLEAR (R324). -/
def execPmeStatusClear (s : State) : Out := .next { s with ho := { s.ho with pmeStatus := false } }

/-- PCIE_LINK_TRAINING (R296, R345, R466): the link trains at ×1 to ×16 and 2.5 to 32 GT/s; R_bus follows. -/
def execPcieLinkTraining (width rate : Nat) (s : State) : Out :=
  if s.ho.perst ∨ s.hostOn = false ∨ ([1, 2, 4, 8, 16] : List Nat).contains width = false ∨
      ([2500, 5000, 8000, 16000, 32000] : List Nat).contains rate = false then .next s
  else
    let s1 := s.settleAllPaces
    .next { s1 with ho := { s1.ho with width := width, rate := rate, link := 0 } }

/-- ASPM_L1_ENTRY (R296): the trained, idle link enters L1 (1), L1.1 (2) or L1.2 (3). -/
def execAspmL1Entry (l : Nat) (s : State) : Out :=
  if l = 0 ∨ 4 ≤ l ∨ s.ho.width = 0 ∨ s.ho.link ≠ 0 ∨ s.ho.l0Wanted then .next s
  else .next { s with ho := { s.ho with link := l } }

/-- L0_RETURN (R323): the link is in L0; held messages are sent in its first clock, and the exit they asked for is counted. -/
def execL0Return (s : State) : Out :=
  if s.ho.link = 0 then .next s
  else
    let s1 := { s with ho := { s.ho with link := 0, l0Wanted := false } }
    let held := s.liveVectors.filter fun v => (s.vec v).held
    if held = [] ∨ s.hostPowered = false then .next s1
    else .next ((held.foldl dueMessage s1).count Ix.l1ExitForInterrupt 0 1)

end Sys2Proof.Machine
end

