-- ==== Sys2Proof/Machine/Fixed.lean ====
section
/-! DEFINITION. Fixed-point arithmetic for the ageing formulas (R449 to R452): square roots, and the exponential, brought down
to units of 2^-40 (the spec gives the functions and no resolution; DESIGN CHOICE). -/

namespace Sys2Proof.Machine

/-- The square root of `n` rounded down, bit by bit from bit `k`. -/
def isqrtFrom (n : Nat) : Nat → Nat → Nat
  | 0, a => if (a + 1) * (a + 1) ≤ n then a + 1 else a
  | k + 1, a => isqrtFrom n k (if (a + 2 ^ (k + 1)) * (a + 2 ^ (k + 1)) ≤ n then a + 2 ^ (k + 1) else a)

/-- The square root of `n`, below 2^256, rounded down. -/
def isqrt (n : Nat) : Nat := isqrtFrom n 127 0

/-- Bits of fraction the exponential is computed with. -/
def expBits : Nat := 96

/-- The Taylor sum of exp(y) from term `i` on, `term` the term before it; y and the terms in units of 2^-96. -/
def expTerms (y : Int) : Nat → Nat → Int → Int
  | 0, _, _ => 0
  | k + 1, i, term =>
    let next := term * y / (i * 2 ^ expBits : Nat)
    next + expTerms y k (i + 1) next

/-- `v` squared `k` times, in units of 2^-96. -/
def squared : Nat → Int → Int
  | 0, v => v
  | k + 1, v => squared k (v * v / (2 ^ expBits : Nat))

/-- exp(num / den) in units of 2^-40. -/
def expUnits (num : Int) (den : Nat) : Nat :=
  let y := num * (2 ^ (expBits - 8) : Nat) / (den : Int)
  let one : Int := (2 ^ expBits : Nat)
  (squared 8 (one + expTerms y 24 1 one)).toNat / 2 ^ (expBits - 40)

end Sys2Proof.Machine
end

