-- ==== Sys2Proof/Machine/View.lean ====
section
/-! DEFINITION. The memory view in BAR0: slots, mailbox, indirect pair, guarded writes, and writes that wait (R381 to R386). -/

namespace Sys2Proof.Machine

/-- Addresses of BAR0 (R381). -/
def slotsEnd : Nat := 0xE0000
def indAddrAt : Nat := 0x100000
def indDataAt : Nat := 0x100008
def mbxAt : Nat := 0x100020

/-- Size of BAR0. The commands of the memory view take an offset from here on as one into BAR2, for which the spec's steps have
no row (DESIGN CHOICE, notes/assumptions/55.md). -/
def bar2At : Nat := 0x4000000

/-- Bits of MV_STATUS (R381). -/
def mvRefused : Nat := 0
def mvLocked : Nat := 1
def mvGuard : Nat := 2
def mvTorn : Nat := 3
def mvMalformed : Nat := 5
def mvDiscarded : Nat := 6

/-- Index of the slot at a byte of BAR0. -/
def slotIx (off : Nat) : Nat := 0x1000 + off / 16

/-- An access of R382: 4 or 8 bytes, naturally aligned. -/
def wellShaped (off n : Nat) : Bool := (n == 4 || n == 8) && off % n == 0

/-- `n` bytes of a byte list from `i`, zeros beyond its end. -/
def bytesAt (b : List Byte) (i n : Nat) : List Byte := (List.range n).map fun k => b.getD (i + k) 0#8

namespace State

/-- Objects the memory view serves (R433). -/
def viewServes (s : State) (idx : Nat) : Bool :=
  !s.sy.recovery || idx == Ix.fwStage || idx == Ix.fwCommand || idx == Ix.fwStatus || idx == Ix.fwFailCause

/-- An access of the memory view waits (R386, R469). -/
def viewWaits (s : State) : Bool := s.trafficWaits && !s.sy.recovery

/-- A bit of MV_STATUS is set. -/
def mvFlag (s : State) (b : Nat) : State := { s with mv := { s.mv with status := setBit s.mv.status b } }

/-- An access is refused with a code (R364, R382). -/
def mvRefuse (s : State) (code idx sub : Nat) (write : Bool) : State :=
  let s1 := { s with mv := { s.mv with lastAbort := code + 65536 * sub + 4294967296 * idx } }
  if write ∧ code = Abort.locked then
    ((s1.mvFlag mvLocked).count Ix.mvLockedWrites 0 1).event Ix.mvLockedWrites 2 55 [(2, idx), (2, sub)]
  else if write then (s1.mvFlag mvRefused).count Ix.mvDroppedWrites 0 1
  else s1.mvFlag mvRefused

/-- A write of the view has had its outcome. -/
def mvDone (idx sub : Nat) (w : Wr) : State := if w.2 = 0 then w.1 else w.1.mvRefuse w.2 idx sub true

/-- A guarded write of object `idx` fails (R385). -/
def guardFail (s : State) (idx : Nat) : State :=
  ((s.mvFlag mvGuard).count Ix.guardFailures 0 1).event Ix.guardFailures 2 55 [(2, idx)]

/-! ### Slots and the mailbox (R381, R383, R385) -/

/-- The object a slot shows: an assigned scalar, no TABLE, of at most 32 bytes. -/
def slotObj (s : State) (idx : Nat) : Option ObjDesc :=
  match objAt idx with
  | none => none
  | some o => if o.cnt = .scalar ∧ o.ty.isTable = false ∧ o.ty.width ≤ 32 ∧ s.viewServes idx then some o else none

/-- Bytes written to mailbox bytes from `i` on are staged; this ends a latch (R383). -/
def stageBytes (s : State) (i : Nat) (b : List Byte) (idx : Nat) : State :=
  let old := if s.mv.staging then s.mv.mailbox else List.replicate 32 0#8
  { s with mv := { s.mv with mailbox := patch old i b, valid := true, staging := true, object := idx } }

/-- Four bytes of a slot are read. A counter that reading clears is cleared where the value is latched, not by a torn read. -/
def slotRead (s : State) (off : Nat) : State × List Byte :=
  let idx := slotIx off
  let b := off % 16
  let none_ : List Byte := [0#8, 0#8, 0#8, 0#8]
  match s.slotObj idx with
  | none => (if s.sy.recovery then s.mvRefuse Abort.noSuch idx 0 false else s, none_)
  | some o =>
    if (o.acc = .rwg ∧ 8 ≤ b) ∨ (b ≠ 0 ∧ o.ty.width ≤ 4) then (s, none_)
    else if b ≠ 0 ∧ s.mv.valid ∧ s.mv.staging = false ∧ s.mv.object = idx then (s, bytesAt s.mv.mailbox b 4)
    else
      let r := s.readElement idx 0
      if r.2.1 ≠ 0 then (s.mvRefuse r.2.1 idx 0 false, none_)
      else if b ≠ 0 then (s.mvFlag mvTorn, bytesAt r.2.2 b 4)
      else if o.ty.width ≤ 4 then (r.1, bytesAt r.2.2 0 4)
      else
        ({ r.1 with mv := { r.1.mv with mailbox := bytesAt r.2.2 0 32, valid := true, staging := false, object := idx } },
          bytesAt r.2.2 0 4)

/-- A guarded value is held (R385); one that was held before fails. -/
def holdGuarded (s : State) (idx v : Nat) : State :=
  let s1 := match s.mv.guarded with
    | some g => s.guardFail g.1
    | none => s
  { s1 with mv := { s1.mv with guarded := some (idx, v, s.rawTotal) } }

/-- A complement arrives (R385). -/
def takeComplement (s : State) (idx c : Nat) : State :=
  let s1 := { s with mv := { s.mv with guarded := none } }
  match s.mv.guarded with
  | none => s.guardFail idx
  | some (held, v, t) =>
    if held ≠ idx ∨ second / 1000 < s.since t ∨ complementOk v c = false then s1.guardFail held
    else mvDone idx 0 (s1.runGuarded idx v)

/-- Four bytes of a slot are written. -/
def slotWrite (s : State) (off : Nat) (v : List Byte) : State :=
  let idx := slotIx off
  let b := off % 16
  match s.slotObj idx with
  | none => s.mvRefuse Abort.noSuch idx 0 true
  | some o =>
    if o.acc = .rwg then
      if b = 0 then s.holdGuarded idx (leField v 0 1) else if b = 8 then s.takeComplement idx (leField v 0 1) else s
    else if o.ty.width ≤ 4 then
      if b = 0 then mvDone idx 0 (s.writeObject idx 0 (v.take o.ty.width)) else s
    else if b ≠ 0 then s.stageBytes b v idx
    else
      let staged := if s.mv.staging then s.mv.mailbox else []
      let s1 := if s.mv.staging then { s with mv := { s.mv with mailbox := List.replicate 32 0#8, valid := false } } else s
      mvDone idx 0 (s1.writeObject idx 0 (v ++ bytesAt staged 4 (o.ty.width - 4)))

/-- A write of 8 bytes to a slot: its upper part first (R383); of an object of 4 bytes or less only the low bytes count. -/
def slotWrite8 (s : State) (off : Nat) (v : List Byte) : State :=
  match s.slotObj (slotIx off) with
  | none => s.mvRefuse Abort.noSuch (slotIx off) 0 true
  | some o =>
    let s1 := if o.acc = .rwg ∨ o.ty.width ≤ 4 then s else s.slotWrite (off + 4) (slice v 4 4)
    s1.slotWrite off (v.take 4)

/-! ### The indirect pair (R384) -/

/-- Fields of MV_IND_ADDR. -/
def indIdx (s : State) : Nat := s.mv.indAddr % 65536
def indSub (s : State) : Nat := s.mv.indAddr / 65536 % 65536
def indOff (s : State) : Nat := s.mv.indAddr / 4294967296

/-- The indirect address moves on. -/
def indGo (s : State) (idx sub off : Nat) : State :=
  { s with mv := { s.mv with indAddr := idx + 65536 * (sub % 65536) + 4294967296 * (off % 4294967296) } }

/-- The status of an access through the pair. -/
def indStatus (s : State) (v : Nat) : State := { s with mv := { s.mv with indStatus := v } }

/-- An access through the pair is refused. -/
def indRefuse (s : State) (code : Nat) (write : Bool) : State :=
  (s.mvRefuse code s.indIdx s.indSub write).indStatus (2 + 65536 * code)

/-- Bytes of the part addressed: an element's width, the count's at subindex 0 of an array. -/
def indWidth (o : ObjDesc) (sub : Nat) : Nat := if o.cnt ≠ .scalar ∧ sub = 0 then 2 else o.ty.width

/-- The element lies past the last one. -/
def indPast (s : State) (o : ObjDesc) (sub : Nat) : Bool := decide (s.elementCount o < sub)

/-- An element is read through the pair: whole where its width is at most 8, else as many bytes as the access has. -/
def indReadElement (s : State) (o : ObjDesc) (n : Nat) : State × List Byte :=
  let sub := s.indSub
  let off := s.indOff
  let w := indWidth o sub
  if w ≤ 8 then
    let r := s.readElement o.idx sub
    if r.2.1 = 0 then (r.1.indGo o.idx (sub + 1) 0, bytesAt r.2.2 0 n)
    else ((s.indRefuse r.2.1 false).indGo o.idx (sub + 1) 0, List.replicate n 0#8)
  else
    let last := decide (w ≤ off + n)
    let r := s.readElement o.idx sub
    if r.2.1 ≠ 0 then ((s.indRefuse r.2.1 false).indGo o.idx (sub + 1) 0, List.replicate n 0#8)
    else ((if last then r.1 else s).indGo o.idx (if last then sub + 1 else sub) (if last then 0 else off + n), bytesAt r.2.2 off n)

/-- Bytes staged for an element or record of `w` bytes at byte `at_` of it: none where those before them have not come. -/
def indStaged (s : State) (at_ : Nat) (b : List Byte) : List Byte :=
  if at_ = 0 then b else if s.mv.indStage.length = at_ then s.mv.indStage ++ b else []

/-- The staged bytes. -/
def setIndStage (s : State) (b : List Byte) : State := { s with mv := { s.mv with indStage := b } }

/-- An element is written through the pair. -/
def indWriteElement (s : State) (o : ObjDesc) (v : List Byte) : State :=
  let sub := s.indSub
  let off := s.indOff
  let w := indWidth o sub
  let finish (r : Wr) : State :=
    (if r.2 = 0 then r.1 else r.1.indRefuse r.2 true).indGo o.idx (sub + 1) 0
  if w ≤ 8 then finish (s.writeObject o.idx sub (bytesAt v 0 w))
  else if s.elementWritable o sub = false then finish (s, Abort.noSuch)
  else
    let all := s.indStaged off v
    if off + v.length < w then (s.setIndStage all).indGo o.idx sub (off + v.length)
    else
      let s1 := s.setIndStage []
      finish (if all.length < w then (s1, Abort.malformed) else s1.writeObject o.idx sub (all.take w))

/-- Bytes of a TABLE arrive one after another; each record takes effect with its last byte (R384). The code is that of the
first record refused. -/
def indTableBytes (idx sub size : Nat) : State → Nat → List Byte → Wr
  | s, _, [] => (s, 0)
  | s, off, b :: rest =>
    let all := s.indStaged (off % size) [b]
    if off % size + 1 < size then indTableBytes idx sub size (s.setIndStage all) (off + 1) rest
    else
      let s1 := s.setIndStage []
      let w := if all.length < size then (s1, Abort.malformed) else s1.writeRecord idx sub (off / size) all
      let r := indTableBytes idx sub size w.1 (off + 1) rest
      (r.1, if w.2 = 0 then r.2 else w.2)

/-- A TABLE's bytes are read or written through the pair. -/
def indTable (s : State) (o : ObjDesc) (size count : Nat) (v : Option (List Byte)) (n : Nat) : State × List Byte :=
  let sub := s.indSub
  let off := s.indOff
  let zeros : List Byte := List.replicate n 0#8
  let total := if v.isSome ∧ (o.acc = .rw ∨ o.acc = .rwb) then
      (if o.idx = Ix.xmEntry then 4294967296 else size * (if o.idx = Ix.tcEntry then s.reg Ix.tcPartSize sub else count))
    else size * s.tableCount o.idx sub count
  match v with
  | none =>
    if total ≤ off then (s.indStatus 1, zeros)
    else if s.recordAbsent o.idx (off / size) then ((s.indRefuse Abort.noSuch false).indGo o.idx sub (off + n), zeros)
    else ((s.indStatus 0).indGo o.idx sub (off + n), bytesAt (s.tableBytesAt o.idx sub size off (min n (total - off))) 0 n)
  | some b =>
    if total ≤ off then (s.indRefuse Abort.noSuch true, [])
    else if o.acc ≠ .rw ∧ o.acc ≠ .rwb then ((s.indRefuse Abort.readOnly true).indGo o.idx sub (off + n), [])
    else
      let w := indTableBytes o.idx sub size (s.indStatus 0) off (b.take (total - off))
      ((if w.2 = 0 then w.1 else w.1.indRefuse w.2 true).indGo o.idx sub (off + n), [])

/-- An access of `n` bytes to MV_IND_DATA: a read, or a write of bytes (R384). -/
def indAccess (s : State) (n : Nat) (v : Option (List Byte)) : State × List Byte :=
  let zeros : List Byte := List.replicate n 0#8
  match objAt s.indIdx with
  | none => (s.indRefuse Abort.noSuch v.isSome, zeros)
  | some o =>
    let sub := s.indSub
    if s.viewServes o.idx = false then (s.indRefuse Abort.noSuch v.isSome, zeros)
    else if s.indPast o sub then (if v.isSome then s.indRefuse Abort.noSuch true else s.indStatus 1, zeros)
    else if v.isSome ∧ o.acc = .rwg then ((s.indRefuse Abort.guardFailed true).indGo o.idx (sub + 1) 0, zeros)
    else
      match o.ty with
      | .table size count =>
        if o.cnt ≠ .scalar ∧ sub = 0 then
          (match v with
           | none => (s.indStatus 0).indReadElement o n
           | some b => ((s.indStatus 0).indWriteElement o b, []))
        else s.indTable o size count v n
      | _ =>
        match v with
        | none => (s.indStatus 0).indReadElement o n
        | some b => ((s.indStatus 0).indWriteElement o b, [])

/-- MV_IND_ADDR is written, whole or by half; staged bytes are discarded. -/
def writeIndAddr (s : State) (off : Nat) (v : List Byte) : State :=
  let now := patch (leBytes 8 s.mv.indAddr) (off - indAddrAt) v
  let s1 := if s.mv.indStage = [] then s else s.mvFlag mvDiscarded
  { s1 with mv := { s1.mv with indAddr := leNat now, indStage := [], indStatus := s1.mv.indStatus / 2 * 2 } }

/-! ### BAR0 (R381, R382) -/

/-- The register block's bytes. -/
def mvRegs (s : State) : List Byte :=
  leBytes 8 s.mv.indAddr ++ List.replicate 8 0#8 ++ leBytes 4 s.mv.indStatus ++ List.replicate 12 0#8 ++ s.mv.mailbox ++
    leBytes 4 (ofBool s.mv.valid + 2 * ofBool s.mv.staging + 65536 * s.mv.object) ++ List.replicate 4 0#8 ++
    leBytes 4 s.mv.status ++ List.replicate 4 0#8 ++ leBytes 8 s.mv.lastAbort

/-- A read of `n` bytes of BAR0. -/
def barRead (s : State) (off n : Nat) : State × List Byte :=
  if wellShaped off n = false then (s.mvFlag mvMalformed, List.replicate n 0#8)
  else if off < slotsEnd then
    if n = 4 then s.slotRead off
    else
      let a := s.slotRead off
      let b := a.1.slotRead (off + 4)
      (b.1, a.2 ++ b.2)
  else if off = indDataAt then s.indAccess n none
  else if indAddrAt ≤ off then (s, bytesAt s.mvRegs (off - indAddrAt) n)
  else (s, List.replicate n 0#8)

/-- A write of bytes to BAR0. -/
def barWrite (s : State) (off : Nat) (v : List Byte) : State :=
  let n := v.length
  if wellShaped off n = false then s.mvFlag mvMalformed
  else if off < slotsEnd then (if n = 4 then s.slotWrite off v else s.slotWrite8 off v)
  else if off = indDataAt then (s.indAccess n (some v)).1
  else if indAddrAt ≤ off ∧ off < indDataAt then s.writeIndAddr off v
  else if mbxAt + 16 ≤ off ∧ off < mbxAt + 32 then s.stageBytes (off - mbxAt) v s.mv.object
  else if off = 0x100048 then
    { s with mv := { s.mv with status := (List.range 7).foldl (fun t b => if bit (leNat v) b then clearBit t b else t) s.mv.status } }
  else s.mvFlag mvMalformed

/-- The slot at a byte of BAR0 is a guarded object's. -/
def guardedSlot (s : State) (off : Nat) : Bool :=
  decide (off < slotsEnd) && match s.slotObj (slotIx off) with
    | some o => o.acc == .rwg
    | none => false

/-! ### Accesses that wait (R386, R474) -/

/-- A queued BAR write is carried out; one that must go on waiting is queued again. -/
def runQueued (s : State) (i : Instr) : State :=
  let put (off : Nat) (v : List Byte) : State := if s.viewWaits then s.holdWrite i else s.barWrite off v
  let ran (o : Out) : State := match o with
    | .next t => t
    | _ => s
  match i with
  | .mvSlotLowWrite off v => put off v
  | .mvStageWrite off v => put off v
  | .mvIndAddr off v => put off v
  | .mvIndDataWrite v => put indDataAt v
  | .guardedValueWrite off v => put off v
  | .guardedComplementWrite off v => put off v
  | .channelDoorbell v whole => ran (execChannelDoorbell v whole s)
  | .completionDoorbell v whole => ran (execCompletionDoorbell v whole s)
  | _ => s

/-- A read of the memory view is carried out, and answered. -/
def readNow (s : State) (off n : Nat) : State :=
  let r := s.barRead off n
  r.1.reply { data := r.2 }

/-- A held read is carried out; one that must go on waiting is held again. -/
def runRead (s : State) (i : Instr) (came : Stamp) : State :=
  if s.viewWaits then { s with sy := { s.sy with heldReads := s.sy.heldReads ++ [(s.sy.held.length, i, came)] } }
  else match i with
  | .mvSlotLowRead off n => s.readNow off n
  | .mvIndDataRead n => s.readNow indDataAt n
  | _ => s

/-- The reads that `k` queued writes came before are carried out. -/
def runReads (s : State) (reads : List (Nat × Instr × Stamp)) (k : Nat) : State :=
  reads.foldl (fun t e => if e.1 = k then t.runRead e.2.1 e.2.2 else t) s

/-- Service resumes: queued writes and held reads run in the order they came, then waiting messages are served (R386, R474). -/
def serviceResumes (s : State) : State :=
  let s0 := { s with sy := { s.sy with held := [], heldReads := [] } }
  let s1 := s.sy.held.zipIdx.foldl (fun t e => (t.runReads s.sy.heldReads e.2).runQueued e.1) s0
  (s1.runReads s.sy.heldReads s.sy.held.length).serveWaiting

/-- BAR0 answers: the host island is on, out of PERSTn and in D0. -/
def viewOpen (s : State) : Bool := s.hostOn && !s.ho.perst && !s.ho.d3hot

/-- A BAR0 write as a command: queued where it must wait, else carried out where it is of the kind `mine` says. -/
def viewWrite (s : State) (i : Instr) (off : Nat) (v : List Byte) (mine : Bool) : Out :=
  if s.viewOpen = false then .next s
  else if s.viewWaits then .next (s.holdWrite i)
  else if mine then .next (s.barWrite off v)
  else .next s

/-- A BAR0 read as a command; one that comes while the view waits is held (R386). -/
def viewRead (s : State) (i : Instr) (off n : Nat) : Out :=
  if s.viewOpen = false then .next s
  else if s.viewWaits then
    .next { s with sy := { s.sy with heldReads := s.sy.heldReads ++ [(s.sy.held.length, i, s.rawTotal)] } }
  else .next (s.readNow off n)

end State

/-! ### The commands -/

/-- MV_SLOT_LOW_READ (R297, R381 to R383): a read of `n` bytes of BAR0 at byte `off`, MV_IND_DATA apart; an offset from
`bar2At` on is one of BAR2. -/
def execMvSlotLowRead (off n : Nat) (s : State) : Out :=
  if bar2At ≤ off then (if s.viewOpen then .next (s.reply { data := s.bar2Read (off - bar2At) n }) else .next s)
  else if off = indDataAt then .next s
  else s.viewRead (.mvSlotLowRead off n) off n

/-- MV_SLOT_LOW_WRITE (R383): a write from byte 0 of an ordinary slot. -/
def execMvSlotLowWrite (off : Nat) (data : List Byte) (s : State) : Out :=
  s.viewWrite (.mvSlotLowWrite off data) off data (decide (off < slotsEnd) && off % 16 == 0 && !s.guardedSlot off)

/-- MV_STAGE_WRITE (R297, R381 to R383): a write to the upper bytes of an ordinary slot or of the mailbox, to MV_STATUS, or to an
address that takes none. -/
def execMvStageWrite (off : Nat) (data : List Byte) (s : State) : Out :=
  if bar2At ≤ off then .next (if s.viewOpen then s.bar2Write (off - bar2At) data else s)
  else s.viewWrite (.mvStageWrite off data) off data
    (!(decide (off < slotsEnd) && off % 16 == 0) && !s.guardedSlot off && !(decide (indAddrAt ≤ off) && decide (off ≤ indDataAt)))

/-- MV_IND_ADDR (R384): a write to the indirect address, whole or by half. -/
def execMvIndAddr (off : Nat) (data : List Byte) (s : State) : Out :=
  s.viewWrite (.mvIndAddr off data) off data (decide (indAddrAt ≤ off) && decide (off < indDataAt))

/-- MV_IND_DATA_READ (R384): a read of `n` bytes of MV_IND_DATA. -/
def execMvIndDataRead (n : Nat) (s : State) : Out := s.viewRead (.mvIndDataRead n) indDataAt n

/-- MV_IND_DATA_WRITE (R384). -/
def execMvIndDataWrite (data : List Byte) (s : State) : Out := s.viewWrite (.mvIndDataWrite data) indDataAt data true

/-- GUARDED_VALUE_WRITE (R385): a write to bytes 0 to 7 of a guarded object's slot. -/
def execGuardedValueWrite (off : Nat) (data : List Byte) (s : State) : Out :=
  s.viewWrite (.guardedValueWrite off data) off data (s.guardedSlot off && decide (off % 16 < 8))

/-- GUARDED_COMPLEMENT_WRITE (R385): a write to bytes 8 to 15 of a guarded object's slot. -/
def execGuardedComplementWrite (off : Nat) (data : List Byte) (s : State) : Out :=
  s.viewWrite (.guardedComplementWrite off data) off data (s.guardedSlot off && decide (8 ≤ off % 16))

/-- GUARD_TIMEOUT (R385): 1 ms has passed since a guarded value, and no complement has come. -/
def execGuardTimeout (s : State) : Out :=
  match s.mv.guarded with
  | none => .next s
  | some (idx, _, t) =>
    if State.second / 1000 ≤ s.since t then .next (({ s with mv := { s.mv with guarded := none } }).guardFail idx) else .next s

end Sys2Proof.Machine
end

