-- ==== Sys2Proof/Machine/Supply.lean ====
section
/-! DEFINITION. Ageing, rails, adaptive voltage and temperature (R448 to R457, R487), and what a supply warning holds (R424). -/

namespace Sys2Proof.Machine

/-- The design budget B of R449, in 2^-40 s. -/
def wearBudget : Nat := 131490 * 3600 * 2 ^ 40

/-- Islands whose temperature sensor `n` reads, in the order of R448. -/
def sensorIslands (n : Nat) : List Nat :=
  if n < 16 then [n]
  else if n < 32 then [n + 16]
  else if n < 40 then [16 + 2 * (n - 32), 17 + 2 * (n - 32)]
  else ([[48], [49], [50], [52], [51], [53], [54], [55]].getD (n - 40) [])

/-- The rail that ages island `i`, with its reference in mV (R449). -/
def wearRail (i : Nat) : Nat × Nat :=
  if i < 16 then (2, 900) else if i = 48 ∨ i = 49 ∨ i = 50 then (1, 800) else (0, 760)

/-- The exponents of A_T at `t` sixteenths of a degree, as a fraction, and of A_V at `mv` against `ref` (R449). -/
def heatExponent (t : Int) : Int × Nat := (162460 * (5 * t - 7600), 7363 * (5 * t + 21852).toNat)
def voltExponent (mv ref : Nat) : Int × Nat := (3 * ((mv : Int) - (ref : Int)), 250)

/-- A_T, and A_T × A_V, in units of 2^-40 (R449). -/
def heatFactor (t : Int) : Nat := expUnits (heatExponent t).1 (heatExponent t).2
def wearFactor (t : Int) (mv ref : Nat) : Nat :=
  let a := heatExponent t
  let b := voltExponent mv ref
  expUnits (a.1 * b.2 + b.1 * a.2) (a.2 * b.2)

/-- The fourth root of W hours in units of 2^-32, W in 2^-40 s. -/
def rootHours (w : Nat) : Nat := isqrt (isqrt (w * 2 ^ 88 / 3600))

/-- The benchmark fit of R451 over points of W and δ (ppm): the sums of x², xδ and δ². -/
def fitSums (points : List (Nat × Int)) : Nat × Int × Nat :=
  points.foldl (fun t (e : Nat × Int) =>
    let x := rootHours e.1
    (t.1 + x * x, t.2.1 + x * e.2, t.2.2 + e.2.natAbs * e.2.natAbs)) (0, 0, 0)

/-- W_end and W_low of the fit (R451), none where no slope rises; `few` says that fewer than 90 daily records exist. -/
def fitEnds (points : List (Nat × Int)) (few : Bool) : Option (Nat × Nat) :=
  let x := fitSums points
  let sxd := x.2.1.toNat
  if x.2.1 ≤ 0 ∨ x.1 = 0 then none
  else
    let fin := 3600 * 2 ^ 40 * (80000 * x.1) ^ 4 / (2 ^ 128 * sxd ^ 4)
    let u := if few then 2 ^ 30
      else isqrt (2 ^ 64 * (x.2.2 * x.1 - sxd * sxd) / ((points.length - 1) * sxd * sxd))
    some (fin, fin * 2 ^ 128 / (2 ^ 32 + 2 * u) ^ 4)

/-- Days to a wear of `e` from `w` where the last hour brought `hour` units in `seconds` seconds (R451). -/
def daysTo (e w hour seconds : Nat) : Nat := min 0xFFFFFFFF ((e - w) * seconds / (86400 * hour))

/-- LANE_EYE_DAYS from hourly margins, newest first (R452). -/
def eyeDays (points : List (Nat × Nat)) (floor_ : Nat) : Nat :=
  match points.head?, points.getLast? with
  | some a, some z =>
    if a.1 - z.1 < 168 then 0xFFFFFFFF
    else
      let n : Int := points.length
      let xs : List (Int × Int) := points.map fun (e : Nat × Nat) => ((e.1 : Int) - (a.1 : Int), (e.2 : Int))
      let sx := (xs.map fun (e : Int × Int) => e.1).sum
      let sm := (xs.map fun (e : Int × Int) => e.2).sum
      let d := n * (xs.map fun (e : Int × Int) => e.1 * e.1).sum - sx * sx
      let b := n * (xs.map fun (e : Int × Int) => e.1 * e.2).sum - sx * sm
      if 0 ≤ b then 0xFFFFFFFF
      else min 0xFFFFFFFF ((sm * d - b * sx - (floor_ : Int) * n * d) / (24 * n * (-b))).toNat
  | _, _ => 0xFFFFFFFF

namespace State

/-! ### Sensors (R448) -/

/-- Every sensor reads below the grade maximum less 10 °C (R457). -/
def sensorsCool (s : State) : Bool :=
  (List.range 48).all fun n => ((sensorIslands n).any s.islandPresent) == false ||
    decide (s.regI Ix.tempSensor (n + 1) 2 < 16 * ((s.gradeMax : Int) - 10))

/-- In the reset of a thermal trip the time for which every sensor has read cool goes on, or ends (R457). -/
def noteCool (s : State) : State :=
  if s.sy.hold = some .thermal then
    { s with sy := { s.sy with coolFrom := if s.sensorsCool then some (s.sy.coolFrom.getD s.rawTotal) else none } }
  else s

/-- Sensor `n` reads `t` sixteenths of a degree: it, its islands' temperatures and the hottest reading follow. R4 specifies the
rest of the device inside the grade's junction range only; outside it everything goes on as inside (DESIGN CHOICE,
notes/assumptions/56.md). -/
def setSensor (s : State) (n : Nat) (t : Int) : State :=
  if ((sensorIslands n).any s.islandPresent) = false ∨ 48 ≤ n then s
  else
    let v := clampInt (-32768) 32767 t
    let s1 := (sensorIslands n).foldl (fun u i => if u.islandPresent i then u.setRegI Ix.islandTemp (i + 1) 2 v else u)
      (s.setRegI Ix.tempSensor (n + 1) 2 v)
    let here := (List.range 48).filter fun k => (sensorIslands k).any s1.islandPresent
    (s1.setRegI Ix.tempMax 0 2 (here.foldl (fun m k => max m (s1.regI Ix.tempSensor (k + 1) 2)) v)).noteCool

/-- All sensors read, in order. -/
def setSensors (s : State) (ts : List Int) : State := ts.zipIdx.foldl (fun u (e : Int × Nat) => u.setSensor e.2 e.1) s

/-- Rail `r` reads `mv` (R454, R464). -/
def setRail (s : State) (r mv : Nat) : State :=
  (s.setReg Ix.railVoltage (r + 1) mv).setReg Ix.railMinVoltage (r + 1) (min mv (s.reg Ix.railMinVoltage (r + 1)))

def setRails (s : State) (vs : List Nat) : State :=
  (vs.take 7).zipIdx.foldl (fun u (e : Nat × Nat) => u.setRail e.2 (e.1 % 65536)) s

/-- The hottest reading. -/
def hottest (s : State) : Int := s.regI Ix.tempMax 0 2

/-! ### Wear (R449 to R453) -/

/-- One second of wear of island `i`. -/
def wearIsland (s : State) (i : Nat) : State :=
  let t := s.regI Ix.islandTemp (i + 1) 2
  let r := wearRail i
  let w := wearFactor t (s.reg Ix.railVoltage (r.1 + 1)) r.2
  { s with
    ag := { s.ag with
      wear := tput 0 s.ag.wear i (tgetD s.ag.wear i 0 + w)
      heat := tput 0 s.ag.heat i (tgetD s.ag.heat i 0 + heatFactor t)
      hour := tput 0 s.ag.hour i (tgetD s.ag.hour i 0 + w) } }

/-- The wear history as it stands. -/
def wearNow (s : State) : WearDay :=
  { wear := s.ag.wear, heat := s.ag.heat
    delta := s.islandsPresent.foldl (fun t i => tput 0 t i (s.regI Ix.islandBenchDelta (i + 1) 4)) [] }

/-- The integrals and δ are written to one copy of the wear history (R450); while writes are held none begins (R424). -/
def writeWear (s : State) : State :=
  if s.nvHeld then s
  else ({ s with nv := { s.nv with wear := s.wearNow } }).count Ix.nvBytesWritten 0 (32 * Config.wearCopyUnits)

/-- Every 24th hourly write adds a daily record (R450). -/
def writeDay (s : State) : State :=
  if s.ag.hours % 24 = 0 then
    ({ s with nv := { s.nv with days := (s.wearNow :: s.nv.days).take 1020 } }).count Ix.nvBytesWritten 0 1024
  else s

/-- The hour's margins of UP lanes join their trends (R452). -/
def noteEyes (s : State) : State :=
  let h := s.ag.hours
  let up := (List.range 512).filter fun l => s.reg Ix.laneState (l + 1) == 4
  let eye := up.foldl (fun (t : Tbl (List (Nat × Nat))) l =>
    tset t l ((h, s.reg Ix.laneEyeMargin (l + 1) % 65536) :: tgetD t l [])) s.ag.eye
  let kept := eye.map fun (e : Nat × List (Nat × Nat)) => (e.1, e.2.filter fun p => decide (h - p.1 < 720))
  let s1 := { s with ag := { s.ag with eye := kept } }
  kept.foldl (fun t (e : Nat × List (Nat × Nat)) =>
    t.setReg Ix.laneEyeDays (e.1 + 1) (eyeDays e.2 (t.reg Ix.eyeMarginFloor 0))) s1

/-- A value no hour has measured is open (R451): it replaces a life. -/
def openLife (s : State) (i : Nat) : State :=
  let v := Config.freeNat s.draws % 4294967296
  ({ s with draws := s.draws + 1 }.setReg Ix.islandLifeDays (i + 1) v).setReg Ix.islandLifeLower (i + 1) v

/-- The least LANE_EYE_DAYS of a lane island's UP lanes, where R452 caps by it. -/
def eyeCap (s : State) (i : Nat) : Nat :=
  if 16 ≤ i ∨ s.regB Ix.lifeIncludeEye 0 = false then 0xFFFFFFFF
  else ((sectorLanes i).filter fun l => s.reg Ix.laneState (l + 1) == 4).foldl (fun m l => min m (s.reg Ix.laneEyeDays (l + 1)))
    0xFFFFFFFF

/-- Remaining life of island `i` (R451, R452). -/
def islandLife (s : State) (i : Nat) : State :=
  let w := tgetD s.ag.wear i 0
  let hour := tgetD s.ag.hour i 0
  if hour = 0 then s.openLife i
  else
    let model := daysTo wearBudget w hour s.ag.seconds
    let d := s.regI Ix.islandBenchDelta (i + 1) 4
    let points := (w, d) :: s.nv.days.map fun r => (tgetD r.wear i 0, tgetD r.delta i 0)
    let ends := if 5000 ≤ d then fitEnds points (decide (s.nv.days.length < 90)) else none
    let life := match ends with
      | some e => (min model (daysTo e.1 w hour s.ag.seconds), min model (daysTo e.2 w hour s.ag.seconds))
      | none => (model, model)
    let set := match ends with
      | some e => if daysTo e.1 w hour s.ag.seconds < model then some e.1 else none
      | none => none
    let s1 := { s with
      ag := { s.ag with ends := match set with
        | some e => tset s.ag.ends i e
        | none => terase s.ag.ends i } }
    (s1.setReg Ix.islandLifeDays (i + 1) (min life.1 (s.eyeCap i))).setReg Ix.islandLifeLower (i + 1) (min life.2 (s.eyeCap i))

/-- WEAR_GRADE (R453). -/
def gradeNow (s : State) : Nat :=
  min 100 (s.islandsPresent.foldl (fun m i =>
    let e := tgetD s.ag.ends i wearBudget
    max m (if e = 0 then 100 else 100 * tgetD s.ag.wear i 0 / e)) 0)

/-- The device's minima, its grade, and the warnings of R453. -/
def deviceLife (s : State) : State :=
  let least (idx : Nat) : Nat := s.islandsPresent.foldl (fun m i => min m (s.reg idx (i + 1))) 0xFFFFFFFF
  let g := s.gradeNow
  let low := least Ix.islandLifeLower
  let s1 := ((s.setReg Ix.deviceLifeDays 0 (least Ix.islandLifeDays)).setReg Ix.deviceLifeLower 0 low).setReg Ix.wearGrade 0 g
  let aboveGrade := decide (s.reg Ix.wearWarnGrade 0 ≤ g)
  let under := decide (low ≤ s.reg Ix.lifeWarnDays 0)
  let warn (t : State) (fresh : Bool) : State := if fresh then t.event Ix.wearGrade 2 55 [(1, g), (4, low)] else t
  let s2 := warn (warn s1 (aboveGrade && !s.ag.gradeOver)) (under && !s.ag.lifeUnder)
  { s2 with ag := { s2.ag with gradeOver := aboveGrade, lifeUnder := under } }

/-- What follows the hourly write (R451 to R453). -/
def computeLife (s : State) : State :=
  let s1 := (s.islandsPresent.foldl islandLife s.noteEyes).deviceLife
  { s1 with ag := { s1.ag with hour := [], seconds := 0 } }

/-- One hour of raw time, in ru. -/
def hour : Nat := 3600 * second

/-- Bytes of the hourly write under way, the daily record among them (R450). -/
def wearBytes (s : State) : Nat := 32 * Config.wearCopyUnits + (if s.ag.hours % 24 = 0 then 1024 else 0)

/-- The hourly write waits in supervisor memory, or is lost where no room is left (R424). -/
def holdWear (s : State) : State :=
  if 65536 < s.reg Ix.nvWritesHeld 0 + s.wearBytes then s.count Ix.nvHoldOverflow 0 1
  else ({ s with nv := { s.nv with wearHeld := true } }).setReg Ix.nvWritesHeld 0 (s.reg Ix.nvWritesHeld 0 + s.wearBytes)

/-- The hourly write and what follows it; it waits while writes are held (R450). -/
def hourlyWear (s : State) : State :=
  let s1 := { s with ag := { s.ag with hours := s.ag.hours + 1, hourAt := s.rawTotal } }
  if s.nvHeld then s1.holdWear else s1.writeWear.writeDay.computeLife

/-! ### Rails (R454 to R456) -/

/-- Reference of rail `r` in mV: for the core rail the setpoint, the lower one while a step settles (R455, R487). -/
def railRef (s : State) (r : Nat) : Nat :=
  if r ≠ 0 then railNominal r
  else if s.su.loopOff then 780
  else
    match s.su.settling with
    | some old => min old (s.reg Ix.avsSetpoint 0)
    | none => s.reg Ix.avsSetpoint 0

/-- `mv` lies below the warning level; at or below the reset level; above the warning level with its hysteresis. -/
def railLow (s : State) (r mv : Nat) : Bool := decide (100 * mv < s.railRef r * (100 - s.reg Ix.railWarnPercent (r + 1)))
def railDown (s : State) (r mv : Nat) : Bool := decide (100 * mv ≤ s.railRef r * (100 - s.reg Ix.railResetPercent (r + 1)))
def railGood (s : State) (r mv : Nat) : Bool :=
  decide (s.railRef r * (100 - s.reg Ix.railWarnPercent (r + 1) + s.reg Ix.supplyHysteresis 0) < 100 * mv)

/-- A rail is below its warning level: its dip begins or goes on, and NV writes are held (R424, R456). -/
def warnRail (s : State) (r mv : Nat) : State :=
  let fresh := (tget s.su.dips r).isNone
  let x := tgetD s.su.dips r { start := s.rawTotal }
  let s1 := { s with su := { s.su with dips := tset s.su.dips r { x with least := min x.least mv, last := s.rawTotal } } }
  let s2 := if fresh then s1.countSat Ix.supplyDipCount (r + 1) 1 else s1
  (((s2.setReg Ix.supplyState 0 1).setReg Ix.nvState 0 1).showFw).showImg

/-- Held events are written in the order they were raised (R424, R460). -/
def writeHeldEvents (s : State) : State :=
  let l := s.nv.heldEvents
  let s1 := ({ s with nv := { s.nv with heldEvents := [] } }).setReg Ix.nvWritesHeld 0 0
  l.foldl logEntry s1

/-- The supply warning clears: held writes run in order, and what waited goes on (R371, R378, R424, R440, R456). -/
def releaseHeld (s : State) : State :=
  let s1 := ((s.setReg Ix.supplyState 0 0).setReg Ix.nvState 0 0).writeHeldEvents
  let s2 := (s1.showFw).showImg
  let s3 := if s2.reg Ix.quoteStatus 0 = 4 then s2.setReg Ix.quoteStatus 0 2 else s2
  let s4 := if s3.nv.wearHeld then ({ s3 with nv := { s3.nv with wearHeld := false } }).writeWear.writeDay.computeLife else s3
  if s4.trafficWaits then s4 else s4.serveWaiting

/-- A dip ends, with its event (R456). -/
def endDip (s : State) (r : Nat) (d : Dip) : State :=
  let s1 := ({ s with su := { s.su with dips := terase s.su.dips r } }).event Ix.supplyDipCount 1 55
    [(1, r), (2, d.least), (8, s.since d.start)]
  if s1.su.dips = [] then s1.releaseHeld else s1

/-- A rail reaches its reset level (R456, R458): the on-package reserve writes the cause unless a unit is in progress. -/
def resetRail (s : State) (r : Nat) (busy : Bool) : State :=
  ((if busy then s else (s.putCause 3 r).count Ix.nvBytesWritten 0 32).enterReset .rail)

/-! ### The voltage loop (R455) -/

/-- The setpoint moves to `v`, unless the regulator leaves the command and its three repetitions unacknowledged. -/
def moveSetpoint (s : State) (v naks : Nat) : State :=
  let s1 := if naks = 0 then s else s.countSat Ix.pmbusErrors 0 1
  if 4 ≤ naks then s1.event Ix.pmbusErrors 1 55 []
  else ({ s1 with su := { s1.su with settling := some (s.reg Ix.avsSetpoint 0), moved := some s.rawTotal } }).setReg Ix.avsSetpoint 0 v

/-- A step of the setpoint has settled: the core rail has stayed within 1 % of it for 1 ms since the step (R455). -/
def stepSettled (s : State) : Bool :=
  let v := s.reg Ix.avsSetpoint 0
  decide (100 * ((s.reg Ix.railVoltage 1 : Int) - (v : Int)).natAbs ≤ v) &&
    (match s.su.moved with | some t => decide (second / 1000 ≤ s.since t) | none => true)

/-- The loop's decision on the slowest margin, in hundredths of a percent. -/
def runLoop (s : State) (least : Int) (naks : Nat) : State :=
  let target : Int := 100 * s.reg Ix.avsMarginTarget 0
  let v := s.reg Ix.avsSetpoint 0
  let may := match s.su.moved with
    | some t => decide (10 * second ≤ s.since t)
    | none => true
  if least < target then
    if 820 < v + 5 then
      if s.su.limitLogged then s
      else ({ s with su := { s.su with limitLogged := true } }).event Ix.pmbusAddress 3 55 []
    else if may then s.moveSetpoint (v + 5) naks else s
  else
    let s1 := { s with su := { s.su with limitLogged := false } }
    if target + 200 < least ∧ 700 ≤ v - 5 ∧ may = true then s1.moveSetpoint (v - 5) naks else s1

/-! ### Temperature (R457) -/

/-- The trip level in sixteenths of a degree. -/
def tripLevel (s : State) : Int := 16 * (s.gradeMax + 10)

/-- The hottest reading has reached THERMAL_WARN (R457, R488). -/
def thermalWarning (s : State) : State :=
  if 16 * s.regI Ix.thermalWarn 0 1 ≤ s.hottest ∧ s.su.hot = false then
    ({ s with su := { s.su with hot := true, alert := true } }).event Ix.thermalWarn 2 55 []
  else s

end State

/-! ### The commands -/

/-- BENCHMARK_MEASURE (R448): every hour, the degradation of each pair in ppm, with its island; an island's δ is the largest of
its pairs. -/
def execBenchmarkMeasure (deltas : List (Nat × Int)) (s : State) : Out :=
  if s.sy.hold.isSome ∨ s.since s.ag.benchAt < State.hour then .next s
  else
    let of (i : Nat) : Option Int := ((deltas.filter fun (e : Nat × Int) => e.1 == i).map Prod.snd).max?
    let s0 : State := { s with ag := { s.ag with benchAt := s.rawTotal } }
    .next (s.islandsPresent.foldl (fun t i =>
      match of i with
      | some d => t.setRegI Ix.islandBenchDelta (i + 1) 4 (clampInt (-2147483648) 2147483647 d)
      | none => t) s0)

/-- WEAR_INTEGRATE (R448, R449): the sensors and the rails are read, and once a second has passed it adds to the wear; a device
held in reset integrates nothing. -/
def execWearIntegrate (temps : List Int) (rails : List Nat) (s : State) : Out :=
  let s0 := (s.setSensors temps).setRails rails
  if s.sy.hold.isSome ∨ s.since s.ag.secondAt < State.second then .next s0
  else
    let s1 := s0.islandsPresent.foldl State.wearIsland s0
    .next { s1 with ag := { s1.ag with seconds := s1.ag.seconds + 1, secondAt := s.rawTotal } }

/-- WEAR_HISTORY_WRITE (R450 to R453): an hour of raw time has passed. -/
def execWearHistoryWrite (s : State) : Out :=
  if s.sy.hold.isSome ∨ s.since s.ag.hourAt < State.hour then .next s else .next s.hourlyWear

/-- AVS_MEASURE (R455): every second, the margins of the rigs in hundredths of a percent; `naks` commands in a row are not
acknowledged. -/
def execAvsMeasure (margins : List Int) (naks : Nat) (s : State) : Out :=
  if s.sy.hold.isSome ∨ s.sy.superDown ∨ s.since s.su.measuredAt < State.second then .next s
  else
    match (margins.take s.sectors).min? with
    | none => .next s
    | some m =>
      let s0 : State := { s with su := { s.su with measuredAt := s.rawTotal } }
      let s1 := s0.setRegI Ix.avsMargin 0 2 (clampInt (-32768) 32767 m)
      .next (if s.su.loopOff then s1 else s1.runLoop m naks)

/-- AVS_STEP_SETTLED (R455). -/
def execAvsStepSettled (s : State) : Out :=
  .next (if s.stepSettled then { s with su := { s.su with settling := none } } else s)

/-- RAIL_WARNING (R456): a sample of rail `r` lies below its warning level; one at its reset level acts as a reset. -/
def execRailWarning (r mv : Nat) (s : State) : Out :=
  if 7 ≤ r then .next s
  else
    let s1 := s.setRail r mv
    if s.sy.hold.isSome ∨ s.railLow r mv = false then .next s1
    else if s.railDown r mv then .next (s1.resetRail r false)
    else .next (s1.warnRail r mv)

/-- RAIL_DIP_END (R456): rail `r` has been above its warning level with hysteresis for 1 ms. -/
def execRailDipEnd (r mv : Nat) (s : State) : Out :=
  if 7 ≤ r then .next s
  else
    let s1 := s.setRail r mv
    match tget s.su.dips r with
    | some d => if s.railGood r mv ∧ State.second / 1000 ≤ s.since d.last then .next (s1.endDip r d) else .next s1
    | none => .next s1

/-- RAIL_RESET_LEVEL (R456, R458): rail `r` is at or below its reset level; `busy` says that an NV unit is in progress. -/
def execRailResetLevel (r mv : Nat) (busy : Bool) (s : State) : Out :=
  if 7 ≤ r then .next s
  else
    let s1 := s.setRail r mv
    if s.railDown r mv ∧ s.sy.hold.isNone then .next (s1.resetRail r busy) else .next s1

/-- THERMAL_WARN (R457): sensor `n` reads `t` sixteenths of a degree. -/
def execThermalWarn (n : Nat) (t : Int) (s : State) : Out :=
  if 48 ≤ n then .next s
  else
    let s1 := s.setSensor n t
    .next (if s.sy.hold.isSome then s1 else s1.thermalWarning)

/-- THERMAL_ALERT_RELEASE (R457): the readings of the sensors, the hottest 3 °C below THERMAL_WARN. -/
def execThermalAlertRelease (temps : List Int) (s : State) : Out :=
  let s1 := s.setSensors temps
  if s1.hottest ≤ 16 * (s1.regI Ix.thermalWarn 0 1 - 3) then
    .next { s1 with su := { s1.su with hot := false, alert := false } }
  else .next s1

/-- THERMAL_TRIP (R450, R457, R458): sensor `n` reads the trip level: the wear history is written, and the device resets. -/
def execThermalTrip (n : Nat) (t : Int) (s : State) : Out :=
  if 48 ≤ n then .next s
  else
    let s1 := s.setSensor n t
    if s1.hottest < s1.tripLevel ∨ s.sy.hold.isSome then .next s1
    else .next ((((s1.writeWear).countSat Ix.thermalTrips 0 1).writeCause 4 n).enterReset .thermal)

/-- PMBUS_ALERT (R487): PMB_ALERTn falls; STATUS_WORD is read and logged. -/
def execPmbusAlert (status : Nat) (s : State) : Out :=
  if s.sy.hold.isSome ∨ s.sy.superDown then .next s else .next (s.event Ix.avsSetpoint 1 55 [(2, status)])

end Sys2Proof.Machine
end

