-- ==== Sys2Proof/Machine/Tap.lean ====
section
/-! DEFINITION. The test access port (R409, R496). The boundary register itself is left out: the spec gives none of its cells. -/

namespace Sys2Proof.Machine

/-- Codes of the instruction register (R496). -/
def tapBypass : Nat := 0xFF
def tapIdcode : Nat := 0x01
def tapSample : Nat := 0x02

/-- The instruction a code selects: BYPASS where it is not listed. -/
def tapDecode (code : Nat) : Nat := if [0x00, 0x01, 0x02, 0x08, 0x09, 0x0A, 0x0B].contains code then code else tapBypass

/-- A test instruction takes the pins away from the device: EXTEST, EXTEST_PULSE, EXTEST_TRAIN, HIGHZ, CLAMP. -/
def tapTests (ir : Nat) : Bool := ir != tapBypass && ir != tapIdcode && ir != tapSample

namespace State

/-- The identity code (R496). -/
def tapIdentity (s : State) : Nat := (Config.siliconRevision % 16) * 2 ^ 28 + s.variant.code * 2 ^ 12 + 0x3D1 * 2 + 1

/-- Strap TEST_EN (R467). -/
def testEn (s : State) : Bool := bit (s.reg Ix.strapValues 0) 3

/-- The TAP is offered an instruction: one that leaves test-logic reset while TEST_EN is 0 takes only IDCODE, SAMPLE/PRELOAD and
BYPASS from then on (R496). Under a test instruction the lanes do not work (R409). -/
def tapTakes (s : State) (code : Nat) : State :=
  let x := s.sy.tap
  let ir := tapDecode code
  let limited := x.limited || (x.inReset && !s.testEn)
  if limited && tapTests ir then { s with sy := { s.sy with tap := { x with inReset := false, limited := true } } }
  else
    let captured := if ir = tapIdcode then some s.tapIdentity else if ir = tapBypass then some 0 else none
    let s1 := { s with
      sy := { s.sy with
        tap := { ir := ir, inReset := false, limited := limited, tested := x.tested || tapTests ir, captured := captured } } }
    if s1.sy.tap.tested && !x.tested then
      (List.range s1.sectors).foldl (fun t k => t.settleLanes (sectorLanes k) (sectorPorts k)) s1
    else s1

end State

/-- EXTEST (R496). -/
def execExtest (s : State) : Out := .next (s.tapTakes 0x00)

/-- IDCODE (R496). -/
def execIdcode (s : State) : Out := .next (s.tapTakes 0x01)

/-- SAMPLE/PRELOAD (R496). -/
def execSamplePreload (s : State) : Out := .next (s.tapTakes 0x02)

/-- EXTEST_PULSE (R409, R496). -/
def execExtestPulse (s : State) : Out := .next (s.tapTakes 0x08)

/-- EXTEST_TRAIN (R409, R496). -/
def execExtestTrain (s : State) : Out := .next (s.tapTakes 0x09)

/-- HIGHZ (R496). -/
def execHighz (s : State) : Out := .next (s.tapTakes 0x0A)

/-- CLAMP (R496). -/
def execClamp (s : State) : Out := .next (s.tapTakes 0x0B)

/-- BYPASS (R496): its code, or any code that is not listed. -/
def execBypass (code : Nat) (s : State) : Out := if tapDecode code = tapBypass then .next (s.tapTakes code) else .next s

/-- TEST_LOGIC_RESET (R496): IDCODE is selected. -/
def execTestLogicReset (s : State) : Out :=
  .next { s with sy := { s.sy with tap := { s.sy.tap with ir := tapIdcode, inReset := true, captured := some s.tapIdentity } } }

end Sys2Proof.Machine
end

