-- ==== Sys2Proof/Machine/Resets.lean ====
section
/-! DEFINITION. Start-up, the resets that hold the device, and the supervisor restart (R458, R465 to R473, R479, R480). -/

namespace Sys2Proof.Machine
namespace State

/-! ### The boot ROM (R425, R433, R458, R467, R468) -/

/-- BOOTMODE as sampled (R467). -/
def bootMode (s : State) : Nat := s.reg Ix.strapValues 0 % 4

/-- The reset cause as this start reads it, with its rail or sensor (R458). -/
def causeRead (s : State) (h : Hold) : Nat × Nat :=
  if s.nv.cause ≠ 0 then (s.nv.cause, s.nv.causeRail)
  else if h = .porn ∧ s.sy.porGood then (1, 0xFF)
  else (5, 0xFF)

/-- Severity of the reset cause's event (R507). -/
def causeSeverity (cause : Nat) : Nat := if cause = 3 ∨ cause = 4 then 3 else if cause = 5 then 2 else 1

/-- The cause is read, shown and logged as the first event; "running" is written; causes 3 and 5 leave the guarantee (R198,
R458). -/
def logCause (s : State) (h : Hold) : State :=
  let c := s.causeRead h
  let s1 := (s.setReg Ix.resetCauseLast 0 c.1).setReg Ix.resetCauseRail 0 c.2
  let s2 := ((s1.putCause 0 0xFF).count Ix.nvBytesWritten 0 32).event Ix.resetCauseLast (causeSeverity c.1) 0xFF [(1, c.1)]
  if c.1 = 3 ∨ c.1 = 5 then (s2.leaveGuarantee 6).event Ix.guaranteeLeftCount 3 0xFF [(1, c.2)] else s2

/-- A scalar's value from the active image slot, its factory value where the image holds none that may be written (R202, R411,
R468). -/
def bootValue (s : State) (idx : Nat) : Nat :=
  let recs := match s.activeImage with
    | some i => imageList (s.imgSlot i)
    | none => []
  match objAt idx with
  | none => 0
  | some o =>
    ((recs.filter fun r => r.kind == 0 && r.idx == idx && r.sub == 0 && decide (r.value.length = o.ty.width) &&
      rangeOk o (leNat r.value)).getLast?.map fun r => leNat r.value).getD (factory s.variant s.gradeI idx 0)

/-- The memory configuration takes effect and its training begins (R411, R412). -/
def startMemory (s : State) : State :=
  let d := dataBytes (densityBytes (s.bootValue Ix.memChDensity))
  let s1 := { s with mm := { s.mm with
    mirror := min (s.bootValue Ix.memMirrorSize * 1048576) (4 * d), chanData := d, rate := s.bootValue Ix.memRate } }
  s1.setReg Ix.memState 0 (s.bootValue Ix.memEnable)

/-- The firmware of slot `i` starts: islands enter INIT, the memory trains, codes that take effect at a reset are in force, and
every domain's roll number takes a random start (R52, R284, R425, R468). -/
def startFirmware (s : State) (i : Nat) : State :=
  let fell := s.bootOrder.head? != some i
  let s1 := (s.setReg Ix.fwActiveSlot 0 i).setReg Ix.fwFallback 0 (ofBool fell)
  let s2 := if fell then s1.event Ix.fwFallback 1 55 [] else s1
  let s3 := (s2.islandsPresent.filter (fun k => !(k == hostIsland && s2.ho.perst))).foldl (fun t k => t.setIslandState k 2) s2
  let s4 : State := { s3.startMemory with fr := { s3.startMemory.fr with eccInForce := s3.bootValue Ix.bufferEccMode } }
  let s5 := (List.range 4).foldl (fun t d =>
    let x := t.dom d
    { t.setDom d { x with quorum := { x.quorum with roll := 1 + Config.freeNat t.draws % 65535 } } with draws := t.draws + 1 }) s4
  ({ s5 with sy := { s5.sy with upSince := s5.rawTotal } }).setReg Ix.startPhase 0 1

/-- The boot ROM runs once the meridian reference is there and no production test holds the device (R425, R433, R466 to R468). -/
def boot (s : State) : State :=
  if s.testEn ∨ s.tm.refPresent = false then s
  else
    let slot := if s.bootMode = 2 then none else s.chooseImage
    let s1 : State := { s.setReg Ix.imageActiveSlot 0 (slot.getD 0xFF) with raw := 0 }
    let s2 : State := { s1 with tm := { s1.tm with turns := 0, refFreq := s1.bootValue Ix.meridianRefFreq } }
    let s3 := if s2.bootMode = 3 then s2.event Ix.strapValues 1 55 [] else s2
    match (if s3.bootMode = 1 ∨ s3.bootMode = 3 then none else s3.bootSlot) with
    | some i => s3.startFirmware i
    | none => { s3 with sy := { s3.sy with recovery := true } }

/-- A reset ends (R458, R467, R468, R487): straps are sampled, the start is counted, its cause read, and the boot ROM runs. -/
def leaveReset (s : State) (h : Hold) (straps : Nat) (linear : Bool) : State :=
  let boots := (s.nv.boots + 1) % 65536
  let s0 : State := { s with
    raw := 0
    sy := { s.sy with hold := none }
    su := { s.su with alert := false, loopOff := !linear }
    nv := { s.nv with boots := boots } }
  let s1 := (s0.setReg Ix.strapValues 0 (straps % 16)).setReg Ix.bootNumber 0 boots
  let s2 := s1.logCause h
  let s3 := if linear then s2 else s2.event Ix.avsSetpoint 1 55 []
  let s4 : State := if s3.testEn ∧ h = .porn then { s3 with sy := { s3.sy with tap := { s3.sy.tap with limited := false } } } else s3
  s4.boot

/-- Every rail is above its warning level with its hysteresis (R456, R465). -/
def railsGood (s : State) : Bool := (List.range 7).all fun r => s.railGood r (s.reg Ix.railVoltage (r + 1))

/-- Every rail is above its reset level (R458). -/
def railsUp (s : State) : Bool := (List.range 7).all fun r => !s.railDown r (s.reg Ix.railVoltage (r + 1))

/-- Every sensor has read below the grade maximum less 10 °C for 1 s (R457). -/
def cooledDown (s : State) : Bool := (s.sy.coolFrom.map fun t => decide (second ≤ s.since t)).getD false

/-! ### The start-up apply (R366, R367, R412, R470) -/

/-- Training ends: the channels in `failed` have failed it (R412). -/
def endTraining (s : State) (failed : List Nat) : State :=
  if s.reg Ix.memState 0 = 0 then s
  else (failed.filter fun c => decide (c < 8)).foldl memFails (s.setReg Ix.memState 0 2)

/-- The saved program image is loaded and switched to; a rejected one leaves the default bridge (R367). -/
def startProgram (s : State) : State :=
  match s.savedProgram with
  | none => s
  | some im =>
    match s.imageFault im with
    | none => (s.loaded (programOfImage im)).applySwitch
    | some (cause, off) => (s.rejected cause off).event Ix.firmwareVersion 1 55 []

/-- The immediate strobe of group `g` as APPLY_COUNT and APPLY_LAST show it (R27). -/
def countStrobe (s : State) (g : Nat) : State :=
  (s.setReg Ix.applyLast (g + 1) (time80 (s.syncNow (s.reg Ix.applyDomain (g + 1))))).count32 Ix.applyCount (g + 1) 1

/-- The start-up apply: every island applies its pending writes, reaches RUN, and acts. -/
def startUpApply (s : State) (failed : List Nat) : State :=
  let s1 := ((s.endTraining failed).setReg Ix.startPhase 0 2).loadImage false
  let s2 := s1.setProgs { active := bridgeProgram 0 }
  let run := s2.islandsPresent.filter fun k => !(k == hostIsland && s2.ho.perst)
  let s3 := run.foldl (fun t k => (t.setIslandState k 3).setIsland k { t.island k with beacon := t.raw, heard := t.rawTotal, lost := none }) s2
  let s4 := s3.islandsPresent.foldl (fun t k => t.applyIsland k none) s3
  let s5 := ((List.range (32 * s4.sectors)).foldl showFec s4).startProgram
  let s6 := (List.range s5.sectors).foldl (fun t k => t.settleLanes (sectorLanes k) (sectorPorts k)) s5
  let s7 := (List.range 64).foldl (fun t k => if t.reg Ix.xmAgeTime (k + 1) = 0 then t else t.startAgeing k) s6
  let s8 := (List.range 16).foldl countStrobe s7
  (({ s8 with mp := { s8.mp with beacon := s8.rawTotal } }).showT1s).setReg Ix.startPhase 0 3

/-! ### The supervisor restart (R479, R480) -/

/-- The supervisor core restarts: the commands that write the NV store, a quote and a program check are abandoned (R128, R479). -/
def restartSupervisor (s : State) : State :=
  let s0 := s.abandonNv.restProgram
  let s1 : State := { s0 with
    tm := { s0.tm with waiting := [] }
    sy := { s0.sy with superDown := true, restarts := (s.rawTotal :: s.sy.restarts).take 3 } }
  ((s1.countSat Ix.supervisorRestartCount 0 1).event Ix.supervisorRestartCount 1 55 []).partFaults partSupervisor

/-- The watchdog expires: a restart, or after three within 60 s a retaining reset. -/
def watchdogExpires (s : State) : State :=
  match s.sy.restarts[2]? with
  | some first =>
    if s.since first < 60 * second then
      (({ s with sy := { s.sy with restarts := [] } }).event Ix.startPhase 4 55 []).requestRetaining
    else s.restartSupervisor
  | none => s.restartSupervisor

end State

/-! ### The commands -/

/-- RECOVERY_WALK (R196, R197, R474, R476): the walk of a retaining reset, and service resumes. `links` are queues with the
position from which their chain cannot be followed, `handles` the handle records that do not decode. -/
def execRecoveryWalk (links : List (Nat × Nat)) (handles : List Nat) (s : State) : Out :=
  if s.sy.retaining ∧ s.sy.rstLow = false then .next (s.recoveryWalk links handles).serviceResumes else .next s

/-- POWER_ON_RESET (R471): PORn goes low. -/
def execPowerOnReset (s : State) : Out :=
  let s1 := s.enterReset .porn
  .next { s1 with sy := { s1.sy with porGood := s.railsUp } }

/-- POR_RELEASE (R465 to R468): PORn rises at the present rail voltages, with the straps and whether VOUT_MODE is linear; while a
rail is not good the device holds itself in reset. -/
def execPorRelease (straps : Nat) (linear : Bool) (rails : List Nat) (s : State) : Out :=
  let s1 := s.setRails rails
  if s.sy.hold ≠ some .porn then .next s1
  else if s1.railsGood then .next (s1.leaveReset .porn straps linear)
  else .next { s1 with sy := { s1.sy with hold := some .rail, porGood := false } }

/-- START_UP_APPLY (R366, R470): the images are read and the start-up apply reaches every island; `failed` are the memory channels
that failed their training. -/
def execStartUpApply (failed : List Nat) (s : State) : Out :=
  if s.sy.hold.isNone ∧ s.reg Ix.startPhase 0 = 1 then .next (s.startUpApply failed) else .next s

/-- DEVICE_RESET (R450, R458, R471): RSTn goes low with RMODE low; a deeper reset under way absorbs it. -/
def execDeviceReset (s : State) : Out :=
  match s.sy.hold with
  | some .porn => .next s
  | some .rail => .next s
  | some .thermal => .next s
  | _ => .next ((s.writeWear.writeCause 2 0xFF).enterReset .rstn)

/-- DEVICE_RESET_RELEASE (R456, R457, R467, R468, R472): RSTn rises, or the hold of a rail or of the temperature ends; straps are
sampled again, but for a retaining reset, whose logic then leaves its reset. -/
def execDeviceResetRelease (straps : Nat) (linear : Bool) (rails : List Nat) (temps : List Int) (s : State) : Out :=
  let s1 := (s.setRails rails).setSensors temps
  match s.sy.hold with
  | some .rail => if s1.railsGood then .next (s1.leaveReset .rail straps linear) else .next s1
  | some .thermal => if s1.cooledDown then .next (s1.leaveReset .thermal straps linear) else .next s1
  | some .rstn => .next (s1.leaveReset .rstn straps linear)
  | some .request => .next (s1.leaveReset .request straps linear)
  | _ => .next (if s1.sy.rstLow then { s1 with sy := { s1.sy with rstLow := false, resetFrom := s1.rawTotal } } else s1)

/-- RSTN_RETAINING (R472): RSTn goes low with RMODE high; a retaining reset lasts as long as it is low. -/
def execRstnRetaining (s : State) : Out :=
  let t := s.requestRetaining
  .next (if t.sy.retaining then { t with sy := { t.sy with rstLow := true } } else t)

/-- RESET_REQUEST_RETAINING (R472): the guarded write of 1. -/
def execResetRequestRetaining (s : State) : Out := (s.writeResetRequest 1).out

/-- RESET_REQUEST_DEVICE (R472): the guarded write of 2. -/
def execResetRequestDevice (s : State) : Out := (s.writeResetRequest 2).out

/-- SUPERVISOR_RESTART (R473, R479, R480): the supervisor watchdog expires, the core having run for SUPERVISOR_WATCHDOG_TIME at
least; a deeper reset absorbs it. -/
def execSupervisorRestart (s : State) : Out :=
  if s.sy.hold.isSome ∨ s.sy.retaining ∨ s.sy.superDown ∨ s.reg Ix.startPhase 0 = 0 ∨
      s.since s.sy.upSince < State.ns (s.reg Ix.supervisorWatchdogTime 0 * 1000000) then .next s
  else .next s.watchdogExpires

/-- SUPERVISOR_RESTART_END (R386, R479): the server is back, what waited is served, and the part's fault ends. -/
def execSupervisorRestartEnd (s : State) : Out :=
  if s.sy.superDown = false then .next s
  else
    let s1 := ({ s with sy := { s.sy with superDown := false, upSince := s.rawTotal } }).partRecovers State.partSupervisor
    .next (if s1.trafficWaits then s1 else s1.serviceResumes)

/-- MERIDIAN_REFERENCE_LOSS (R466): the meridian reference goes, or comes; a start that waits for it goes on. -/
def execMeridianReferenceLoss (present : Bool) (s : State) : Out :=
  let s1 := { s with tm := { s.tm with refPresent := present } }
  if present ∧ s.tm.refPresent = false ∧ s.sy.hold.isNone ∧ s.reg Ix.startPhase 0 = 0 ∧ s.sy.recovery = false then .next s1.boot
  else .next s1

end Sys2Proof.Machine
end

