-- ==== Sys2Proof/Machine/T1s.lean ====
section
/-! DEFINITION. The 10BASE-T1S management port (R387, R388). -/

namespace Sys2Proof.Machine

/-- 4,000 bit times at 10 Mbit/s (R387). -/
def plcaSilence : Nat := State.ns 400000

namespace State

/-- The port works under PLCA, whether or not it has fallen back. -/
def plcaOn (s : State) : Bool := s.regB Ix.t1sEnable 0 && s.regB Ix.t1sPlcaEnable 0

/-- A frame with a good FCS is passed on: a Cormus message or address resolution is served, any other frame ends here (R374,
R375, R388). -/
def mgmtFrame (s : State) (w : List Byte) : State :=
  if (s.cormusOf mgmtPort w).isSome then
    let s1 := s.count Ix.cormusRx 0 1
    if s.trafficWaits then s1.queueMessage s.cormusIds mgmtPort w else s1.takeMessage s.cormusIds mgmtPort w
  else if s.trafficWaits then s
  else match s.resolution w with
    | some f => s.sendReply mgmtPort f
    | none => s

end State

/-- PLCA_FALLBACK (R387): a node other than the coordinator has heard no BEACON for 400 µs. -/
def execPlcaFallback (s : State) : Out :=
  if s.plcaOn ∧ s.reg Ix.t1sPlcaNodeId 0 ≠ 0 ∧ s.mp.fellBack = false ∧ plcaSilence ≤ s.since s.mp.beacon then
    .next ((({ s with mp := { s.mp with fellBack := true } }).showT1s).countSat Ix.t1sPlcaFallbacks 0 1)
  else .next s

/-- PLCA_BEACON (R387): a BEACON is heard. -/
def execPlcaBeacon (s : State) : Out :=
  if s.plcaOn ∧ s.reg Ix.t1sPlcaNodeId 0 ≠ 0 then
    .next ({ s with mp := { s.mp with fellBack := false, beacon := s.rawTotal } }).showT1s
  else .next s

/-- PLCA_COORDINATOR_BEACON (R387): the coordinator sends a BEACON, and a cycle of transmit opportunities begins. -/
def execPlcaCoordinatorBeacon (s : State) : Out :=
  if s.plcaOn ∧ s.reg Ix.t1sPlcaNodeId 0 = 0 then
    .next { s with mp := { s.mp with beacon := s.rawTotal, cycle := s.reg Ix.t1sPlcaNodeCount 0 } }
  else .next s

/-- T1S_FRAME_SEND (R387): the oldest waiting frame is sent after `collisions` attempts have collided; the 16th ends it. -/
def execT1sFrameSend (collisions : Nat) (s : State) : Out :=
  match s.mp.out with
  | [] => .next s
  | w :: rest =>
    if s.regB Ix.t1sEnable 0 = false then .next s
    else
      let n := min collisions 16
      let s1 := ({ s with mp := { s.mp with out := rest } }).count Ix.t1sCollisions 0 n
      if n = 16 then .next (s1.count Ix.t1sExcessCollisions 0 1)
      else
        let padded := w ++ List.replicate (60 - w.length) 0#8
        .next { s1 with mp := { s1.mp with sent := padded ++ fcsOf padded } }

/-- T1S_FRAME_RECEIVE (R388): a frame, its FCS included, arrives; one with a good FCS meets the wake patterns and is passed on. -/
def execT1sFrameReceive (frame : List Byte) (s : State) : Out :=
  if s.regB Ix.t1sEnable 0 = false ∨ s.sy.hold.isSome ∨ s.sy.recovery ∨ fcsGood frame = false then .next s
  else .next ((s.wakePatterns none frame).mgmtFrame (frame.take (frame.length - 4)))

end Sys2Proof.Machine
end

