-- ==== Sys2Proof/Machine/Dispatch.lean ====
section
/-! DEFINITION. Dispatch: one arm per command, each a direct call of its meaning. -/

namespace Sys2Proof.Machine

def exec (i : Instr) (s : State) : Host.Outcome State Fault Refusal :=
  match i with
  | .timeBeacon j => Sys2Proof.Machine.execTimeBeacon j s
  | .correctionSwitch d => Sys2Proof.Machine.execCorrectionSwitch d s
  | .timeLost island => Sys2Proof.Machine.execTimeLost island s
  | .applyNow mask => Sys2Proof.Machine.execApplyNow mask s
  | .strobeArrival island g => Sys2Proof.Machine.execStrobeArrival island g s
  | .applyArm g => Sys2Proof.Machine.execApplyArm g s
  | .applyCancel g => Sys2Proof.Machine.execApplyCancel g s
  | .applyTargetReceipt island g => Sys2Proof.Machine.execApplyTargetReceipt island g s
  | .scheduledApply island g => Sys2Proof.Machine.execScheduledApply island g s
  | .applyFireMessage island g => Sys2Proof.Machine.execApplyFireMessage island g s
  | .applyComplete g => Sys2Proof.Machine.execApplyComplete g s
  | .islandReset value complement => Sys2Proof.Machine.execIslandReset value complement s
  | .islandResetDone island => Sys2Proof.Machine.execIslandResetDone island s
  | .rxFrameStart p capture pipe => Sys2Proof.Machine.execRxFrameStart p capture pipe s
  | .firstCell p pre data ended cells => Sys2Proof.Machine.execFirstCell p pre data ended cells s
  | .oversizeTruncation p pre rest => Sys2Proof.Machine.execOversizeTruncation p pre rest s
  | .pcsCodeError p pre rest fec => Sys2Proof.Machine.execPcsCodeError p pre rest fec s
  | .frameEnd p pre rest corrected => Sys2Proof.Machine.execFrameEnd p pre rest corrected s
  | .mpacketReceive p m => Sys2Proof.Machine.execMpacketReceive p m s
  | .pmacVerifySend p => Sys2Proof.Machine.execPmacVerifySend p s
  | .bufferScrub findings => Sys2Proof.Machine.execBufferScrub findings s
  | .hostIntakeGrant c cells => Sys2Proof.Machine.execHostIntakeGrant c cells s
  | .enqueueRetry k => Sys2Proof.Machine.execEnqueueRetry k s
  | .holdLimitExpiry p => Sys2Proof.Machine.execHoldLimitExpiry p s
  | .dispatch k rest => Sys2Proof.Machine.execDispatch k rest s
  | .awlTakeHandle w => Sys2Proof.Machine.execAwlTakeHandle w s
  | .loadMapReport => Sys2Proof.Machine.execLoadMapReport s
  | .stealRequest thief => Sys2Proof.Machine.execStealRequest thief s
  | .nop w o => Sys2Proof.Machine.execNop w o s
  | .add w o => Sys2Proof.Machine.execAdd w o s
  | .sub w o => Sys2Proof.Machine.execSub w o s
  | .and w o => Sys2Proof.Machine.execAnd w o s
  | .or w o => Sys2Proof.Machine.execOr w o s
  | .xor w o => Sys2Proof.Machine.execXor w o s
  | .shl w o => Sys2Proof.Machine.execShl w o s
  | .shr w o => Sys2Proof.Machine.execShr w o s
  | .sar w o => Sys2Proof.Machine.execSar w o s
  | .mul w o => Sys2Proof.Machine.execMul w o s
  | .movi w o => Sys2Proof.Machine.execMovi w o s
  | .movh w o => Sys2Proof.Machine.execMovh w o s
  | .cmp w o => Sys2Proof.Machine.execCmp w o s
  | .cka w o => Sys2Proof.Machine.execCka w o s
  | .hsh w o => Sys2Proof.Machine.execHsh w o s
  | .hex w o => Sys2Proof.Machine.execHex w o s
  | .hin w o => Sys2Proof.Machine.execHin w o s
  | .mld w o => Sys2Proof.Machine.execMld w o s
  | .mst w o => Sys2Proof.Machine.execMst w o s
  | .hins w o => Sys2Proof.Machine.execHins w o s
  | .hdel w o => Sys2Proof.Machine.execHdel w o s
  | .sld w o => Sys2Proof.Machine.execSld w o s
  | .sst w o => Sys2Proof.Machine.execSst w o s
  | .sadd w o => Sys2Proof.Machine.execSadd w o s
  | .xlk w o => Sys2Proof.Machine.execXlk w o s
  | .tlk w o => Sys2Proof.Machine.execTlk w o s
  | .crd w o => Sys2Proof.Machine.execCrd w o s
  | .xwrInsert w o => Sys2Proof.Machine.execXwrInsert w o s
  | .xwrDelete w o => Sys2Proof.Machine.execXwrDelete w o s
  | .cntAdd w o => Sys2Proof.Machine.execCntAdd w o s
  | .cntFrame w o => Sys2Proof.Machine.execCntFrame w o s
  | .mtr w o => Sys2Proof.Machine.execMtr w o s
  | .fwd w o => Sys2Proof.Machine.execFwd w o s
  | .rep w o => Sys2Proof.Machine.execRep w o s
  | .mir w o => Sys2Proof.Machine.execMir w o s
  | .drop w o => Sys2Proof.Machine.execDrop w o s
  | .spl w o => Sys2Proof.Machine.execSpl w o s
  | .rcv w o => Sys2Proof.Machine.execRcv w o s
  | .pcd w o => Sys2Proof.Machine.execPcd w o s
  | .svi w o => Sys2Proof.Machine.execSvi w o s
  | .tsr w o => Sys2Proof.Machine.execTsr w o s
  | .br w o => Sys2Proof.Machine.execBr w o s
  | .bz w o => Sys2Proof.Machine.execBz w o s
  | .bnz w o => Sys2Proof.Machine.execBnz w o s
  | .bf w o => Sys2Proof.Machine.execBf w o s
  | .bnf w o => Sys2Proof.Machine.execBnf w o s
  | .call w o => Sys2Proof.Machine.execCall w o s
  | .jr w o => Sys2Proof.Machine.execJr w o s
  | .yld w o => Sys2Proof.Machine.execYld w o s
  | .retire k => Sys2Proof.Machine.execRetire k s
  | .commit k => Sys2Proof.Machine.execCommit k s
  | .postcardFlush k => Sys2Proof.Machine.execPostcardFlush k s
  | .awlWatchdogExpiry w => Sys2Proof.Machine.execAwlWatchdogExpiry w s
  | .awlParityError w => Sys2Proof.Machine.execAwlParityError w s
  | .programStoreError r => Sys2Proof.Machine.execProgramStoreError r s
  | .xmAgeSweep t => Sys2Proof.Machine.execXmAgeSweep t s
  | .xmInsert t record => Sys2Proof.Machine.execXmInsert t record s
  | .xmDelete t record => Sys2Proof.Machine.execXmDelete t record s
  | .programLoad => Sys2Proof.Machine.execProgramLoad s
  | .programDefault => Sys2Proof.Machine.execProgramDefault s
  | .programCheckDone => Sys2Proof.Machine.execProgramCheckDone s
  | .txSelect p launch pipe bad => Sys2Proof.Machine.execTxSelect p launch pipe bad s
  | .copyTxEnd p pre => Sys2Proof.Machine.execCopyTxEnd p pre s
  | .gateEntryChange p => Sys2Proof.Machine.execGateEntryChange p s
  | .gateChangeTime p => Sys2Proof.Machine.execGateChangeTime p s
  | .pmacHoldAssert p => Sys2Proof.Machine.execPmacHoldAssert p s
  | .streamGateEntryChange g => Sys2Proof.Machine.execStreamGateEntryChange g s
  | .streamGateReopen g => Sys2Proof.Machine.execStreamGateReopen g s
  | .queueSample => Sys2Proof.Machine.execQueueSample s
  | .queueSampleConfigWrite which value => Sys2Proof.Machine.execQueueSampleConfigWrite which value s
  | .gateWake p => Sys2Proof.Machine.execGateWake p s
  | .recoveryTimerExpiry f => Sys2Proof.Machine.execRecoveryTimerExpiry f s
  | .recoveryReset f => Sys2Proof.Machine.execRecoveryReset f s
  | .recoveryFuncWrite f record => Sys2Proof.Machine.execRecoveryFuncWrite f record s
  | .seqGenWrite f record => Sys2Proof.Machine.execSeqGenWrite f record s
  | .latentTest f => Sys2Proof.Machine.execLatentTest f s
  | .latentReset f => Sys2Proof.Machine.execLatentReset f s
  | .guaranteeClear => Sys2Proof.Machine.execGuaranteeClear s
  | .retainingReset => Sys2Proof.Machine.execRetainingReset s
  | .recoveryWalk links handles => Sys2Proof.Machine.execRecoveryWalk links handles s
  | .pivotRetake d => Sys2Proof.Machine.execPivotRetake d s
  | .timeSet d value => Sys2Proof.Machine.execTimeSet d value s
  | .timeAdjust d value => Sys2Proof.Machine.execTimeAdjust d value s
  | .timeSlew d value => Sys2Proof.Machine.execTimeSlew d value s
  | .timeRateSet d value => Sys2Proof.Machine.execTimeRateSet d value s
  | .slewEnd d => Sys2Proof.Machine.execSlewEnd d s
  | .servoSample d x => Sys2Proof.Machine.execServoSample d x s
  | .servoHoldoverTimeout d => Sys2Proof.Machine.execServoHoldoverTimeout d s
  | .holdoverLimit d => Sys2Proof.Machine.execHoldoverLimit d s
  | .tsCalibrate p => Sys2Proof.Machine.execTsCalibrate p s
  | .tsCalibrationDone p ok delays => Sys2Proof.Machine.execTsCalibrationDone p ok delays s
  | .timeMessageReceive p frame x delay => Sys2Proof.Machine.execTimeMessageReceive p frame x delay s
  | .ptpSyncSend p d launch pipe => Sys2Proof.Machine.execPtpSyncSend p d launch pipe s
  | .ptpAnnounceSend p d => Sys2Proof.Machine.execPtpAnnounceSend p d s
  | .ptpPdelaySend p d => Sys2Proof.Machine.execPtpPdelaySend p d s
  | .rollCallSignaling p d => Sys2Proof.Machine.execRollCallSignaling p d s
  | .announceReceiptTimeout p d => Sys2Proof.Machine.execAnnounceReceiptTimeout p d s
  | .tioEdge n instant => Sys2Proof.Machine.execTioEdge n instant s
  | .tioTrailingEdge n => Sys2Proof.Machine.execTioTrailingEdge n s
  | .tioCaptureEdge n t rising => Sys2Proof.Machine.execTioCaptureEdge n t rising s
  | .tioCaptureRead n => Sys2Proof.Machine.execTioCaptureRead n s
  | .timeSnapshot => Sys2Proof.Machine.execTimeSnapshot s
  | .ringGatherStart m => Sys2Proof.Machine.execRingGatherStart m s
  | .ringGatherDone m error => Sys2Proof.Machine.execRingGatherDone m error s
  | .ringCycleSend m first twin => Sys2Proof.Machine.execRingCycleSend m first twin s
  | .ringFrameReturn m onOut frame stop capture pipe => Sys2Proof.Machine.execRingFrameReturn m onOut frame stop capture pipe s
  | .ringCycleClose m => Sys2Proof.Machine.execRingCycleClose m s
  | .cycleFramePass k fromA frame stop capture rxPipe launch txPipe => Sys2Proof.Machine.execCycleFramePass k fromA frame stop capture rxPipe launch txPipe s
  | .ptInputSample k => Sys2Proof.Machine.execPtInputSample k s
  | .ptGatherDone k => Sys2Proof.Machine.execPtGatherDone k s
  | .ptOutputLatch k => Sys2Proof.Machine.execPtOutputLatch k s
  | .listenTimeout m => Sys2Proof.Machine.execListenTimeout m s
  | .claimSlot m => Sys2Proof.Machine.execClaimSlot m s
  | .startClaimReturn m onOut frame stop => Sys2Proof.Machine.execStartClaimReturn m onOut frame stop s
  | .startClaimReceived m frame => Sys2Proof.Machine.execStartClaimReceived m frame s
  | .yieldTimeout m => Sys2Proof.Machine.execYieldTimeout m s
  | .backoffEnd m => Sys2Proof.Machine.execBackoffEnd m s
  | .referenceWatch m => Sys2Proof.Machine.execReferenceWatch m s
  | .duelFrameReceived m frame => Sys2Proof.Machine.execDuelFrameReceived m frame s
  | .rollAdvance d => Sys2Proof.Machine.execRollAdvance d s
  | .rollCallReceive d body => Sys2Proof.Machine.execRollCallReceive d body s
  | .memberAgeOut d m => Sys2Proof.Machine.execMemberAgeOut d m s
  | .silenceHoldoverTimeout d => Sys2Proof.Machine.execSilenceHoldoverTimeout d s
  | .functionLevelReset => Sys2Proof.Machine.execFunctionLevelReset s
  | .perstn => Sys2Proof.Machine.execPerstn s
  | .channelDoorbell value whole => Sys2Proof.Machine.execChannelDoorbell value whole s
  | .descriptorFetchDone => Sys2Proof.Machine.execDescriptorFetchDone s
  | .completionDoorbell value whole => Sys2Proof.Machine.execCompletionDoorbell value whole s
  | .transmitFrame c => Sys2Proof.Machine.execTransmitFrame c s
  | .receiveBuffer c => Sys2Proof.Machine.execReceiveBuffer c s
  | .hostRxDelivery h bad => Sys2Proof.Machine.execHostRxDelivery h bad s
  | .launchTimeReached h => Sys2Proof.Machine.execLaunchTimeReached h s
  | .unitWriteback c => Sys2Proof.Machine.execUnitWriteback c s
  | .backlogDrain r => Sys2Proof.Machine.execBacklogDrain r s
  | .cringPoll r => Sys2Proof.Machine.execCringPoll r s
  | .vectorMessage v => Sys2Proof.Machine.execVectorMessage v s
  | .vectorUnmask v masked => Sys2Proof.Machine.execVectorUnmask v masked s
  | .powerStateChange d3 bme msix fmask pmeEn => Sys2Proof.Machine.execPowerStateChange d3 bme msix fmask pmeEn s
  | .pmeSend => Sys2Proof.Machine.execPmeSend s
  | .channelEntryLoad c => Sys2Proof.Machine.execChannelEntryLoad c s
  | .chInvalidate value => Sys2Proof.Machine.execChInvalidate value s
  | .moveCopy c => Sys2Proof.Machine.execMoveCopy c s
  | .indexGather c => Sys2Proof.Machine.execIndexGather c s
  | .indexScatter c => Sys2Proof.Machine.execIndexScatter c s
  | .planeSplit c => Sys2Proof.Machine.execPlaneSplit c s
  | .planeMerge c => Sys2Proof.Machine.execPlaneMerge c s
  | .chunkDone c first corrected => Sys2Proof.Machine.execChunkDone c first corrected s
  | .busError c x => Sys2Proof.Machine.execBusError c x s
  | .chRestart c value => Sys2Proof.Machine.execChRestart c value s
  | .chAbort value => Sys2Proof.Machine.execChAbort value s
  | .chShadowArm c value => Sys2Proof.Machine.execChShadowArm c value s
  | .dmaModeSwitch => Sys2Proof.Machine.execDmaModeSwitch s
  | .cormusMessage port frame => Sys2Proof.Machine.execCormusMessage port frame s
  | .read idx subix tagged => Sys2Proof.Machine.execRead idx subix tagged s
  | .write idx subix data tagged => Sys2Proof.Machine.execWrite idx subix data tagged s
  | .writeGuarded idx subix data tagged => Sys2Proof.Machine.execWriteGuarded idx subix data tagged s
  | .readRange idx subix off len tagged => Sys2Proof.Machine.execReadRange idx subix off len tagged s
  | .writeRange idx subix off data tagged => Sys2Proof.Machine.execWriteRange idx subix off data tagged s
  | .describe idx subix off tagged => Sys2Proof.Machine.execDescribe idx subix off tagged s
  | .addressResolution port frame => Sys2Proof.Machine.execAddressResolution port frame s
  | .objectWrite idx subix data => Sys2Proof.Machine.execObjectWrite idx subix data s
  | .mvSlotLowRead off n => Sys2Proof.Machine.execMvSlotLowRead off n s
  | .mvSlotLowWrite off data => Sys2Proof.Machine.execMvSlotLowWrite off data s
  | .mvStageWrite off data => Sys2Proof.Machine.execMvStageWrite off data s
  | .mvIndAddr off data => Sys2Proof.Machine.execMvIndAddr off data s
  | .mvIndDataRead n => Sys2Proof.Machine.execMvIndDataRead n s
  | .mvIndDataWrite data => Sys2Proof.Machine.execMvIndDataWrite data s
  | .guardedValueWrite off data => Sys2Proof.Machine.execGuardedValueWrite off data s
  | .guardedComplementWrite off data => Sys2Proof.Machine.execGuardedComplementWrite off data s
  | .guardTimeout => Sys2Proof.Machine.execGuardTimeout s
  | .imageSave => Sys2Proof.Machine.execImageSave s
  | .imageSelect => Sys2Proof.Machine.execImageSelect s
  | .imageRestore => Sys2Proof.Machine.execImageRestore s
  | .imageFactory => Sys2Proof.Machine.execImageFactory s
  | .imageErase => Sys2Proof.Machine.execImageErase s
  | .imageCompare => Sys2Proof.Machine.execImageCompare s
  | .imageInstall => Sys2Proof.Machine.execImageInstall s
  | .imageCommandDone => Sys2Proof.Machine.execImageCommandDone s
  | .plcaFallback => Sys2Proof.Machine.execPlcaFallback s
  | .plcaBeacon => Sys2Proof.Machine.execPlcaBeacon s
  | .t1sFrameSend collisions => Sys2Proof.Machine.execT1sFrameSend collisions s
  | .laneRefFail k => Sys2Proof.Machine.execLaneRefFail k s
  | .laneRefGood k => Sys2Proof.Machine.execLaneRefGood k s
  | .laneSignalDetect l => Sys2Proof.Machine.execLaneSignalDetect l s
  | .laneSignalLoss l => Sys2Proof.Machine.execLaneSignalLoss l s
  | .laneAdaptConverged l coeffs => Sys2Proof.Machine.execLaneAdaptConverged l coeffs s
  | .laneAdaptTimeout l => Sys2Proof.Machine.execLaneAdaptTimeout l s
  | .laneLockTimeout l => Sys2Proof.Machine.execLaneLockTimeout l s
  | .laneReady p anDone => Sys2Proof.Machine.execLaneReady p anDone s
  | .laneBlockLockLoss l => Sys2Proof.Machine.execLaneBlockLockLoss l s
  | .laneBackoffEnd l => Sys2Proof.Machine.execLaneBackoffEnd l s
  | .laneLinkupTimeout l => Sys2Proof.Machine.execLaneLinkupTimeout l s
  | .idleGuard l => Sys2Proof.Machine.execIdleGuard l s
  | .laneAnchorRefresh l coeffs => Sys2Proof.Machine.execLaneAnchorRefresh l coeffs s
  | .laneAnchorRetake l => Sys2Proof.Machine.execLaneAnchorRetake l s
  | .portTxSleep p => Sys2Proof.Machine.execPortTxSleep p s
  | .portTxWake p => Sys2Proof.Machine.execPortTxWake p s
  | .quietRefresh p => Sys2Proof.Machine.execQuietRefresh p s
  | .quietReceive l tq refresh => Sys2Proof.Machine.execQuietReceive l tq refresh s
  | .eyeMarginUpdate l vertical horizontal coeffs => Sys2Proof.Machine.execEyeMarginUpdate l vertical horizontal coeffs s
  | .prbsCheck l errors => Sys2Proof.Machine.execPrbsCheck l errors s
  | .memRetrainCheck c drift ok => Sys2Proof.Machine.execMemRetrainCheck c drift ok s
  | .memTempPoll c code hot => Sys2Proof.Machine.execMemTempPoll c code hot s
  | .memChannelFail c why => Sys2Proof.Machine.execMemChannelFail c why s
  | .memChRestore c => Sys2Proof.Machine.execMemChRestore c s
  | .memRestoreDone c ok => Sys2Proof.Machine.execMemRestoreDone c ok s
  | .memScrub corrected bad => Sys2Proof.Machine.execMemScrub corrected bad s
  | .nvUnitWrite which ok => Sys2Proof.Machine.execNvUnitWrite which ok s
  | .fwInstall => Sys2Proof.Machine.execFwInstall s
  | .fwSelect => Sys2Proof.Machine.execFwSelect s
  | .fwErase => Sys2Proof.Machine.execFwErase s
  | .rootKeyRevoke value complement => Sys2Proof.Machine.execRootKeyRevoke value complement s
  | .fwMinSecurityRaise value complement => Sys2Proof.Machine.execFwMinSecurityRaise value complement s
  | .ownerKeyWrite key => Sys2Proof.Machine.execOwnerKeyWrite key s
  | .quoteRequest => Sys2Proof.Machine.execQuoteRequest s
  | .quoteSigned => Sys2Proof.Machine.execQuoteSigned s
  | .bottomTreeBuild => Sys2Proof.Machine.execBottomTreeBuild s
  | .benchmarkMeasure deltas => Sys2Proof.Machine.execBenchmarkMeasure deltas s
  | .wearIntegrate temps rails => Sys2Proof.Machine.execWearIntegrate temps rails s
  | .wearHistoryWrite => Sys2Proof.Machine.execWearHistoryWrite s
  | .avsMeasure margins naks => Sys2Proof.Machine.execAvsMeasure margins naks s
  | .railWarning r mv => Sys2Proof.Machine.execRailWarning r mv s
  | .railDipEnd r mv => Sys2Proof.Machine.execRailDipEnd r mv s
  | .railResetLevel r mv busy => Sys2Proof.Machine.execRailResetLevel r mv busy s
  | .thermalWarn n t => Sys2Proof.Machine.execThermalWarn n t s
  | .thermalTrip n t => Sys2Proof.Machine.execThermalTrip n t s
  | .pmbusAlert status => Sys2Proof.Machine.execPmbusAlert status s
  | .powerOnReset => Sys2Proof.Machine.execPowerOnReset s
  | .porRelease straps linear rails => Sys2Proof.Machine.execPorRelease straps linear rails s
  | .startUpApply failed => Sys2Proof.Machine.execStartUpApply failed s
  | .deviceReset => Sys2Proof.Machine.execDeviceReset s
  | .rstnRetaining => Sys2Proof.Machine.execRstnRetaining s
  | .resetRequestRetaining => Sys2Proof.Machine.execResetRequestRetaining s
  | .resetRequestDevice => Sys2Proof.Machine.execResetRequestDevice s
  | .supervisorRestart => Sys2Proof.Machine.execSupervisorRestart s
  | .extest => Sys2Proof.Machine.execExtest s
  | .idcode => Sys2Proof.Machine.execIdcode s
  | .samplePreload => Sys2Proof.Machine.execSamplePreload s
  | .extestPulse => Sys2Proof.Machine.execExtestPulse s
  | .extestTrain => Sys2Proof.Machine.execExtestTrain s
  | .highz => Sys2Proof.Machine.execHighz s
  | .clamp => Sys2Proof.Machine.execClamp s
  | .bypass code => Sys2Proof.Machine.execBypass code s
  | .supervisorRestartEnd => Sys2Proof.Machine.execSupervisorRestartEnd s
  | .deviceResetRelease straps linear rails temps => Sys2Proof.Machine.execDeviceResetRelease straps linear rails temps s
  | .perstnRelease => Sys2Proof.Machine.execPerstnRelease s
  | .pcieLinkTraining width rate => Sys2Proof.Machine.execPcieLinkTraining width rate s
  | .aspmL1Entry l => Sys2Proof.Machine.execAspmL1Entry l s
  | .l0Return => Sys2Proof.Machine.execL0Return s
  | .pmeStatusClear => Sys2Proof.Machine.execPmeStatusClear s
  | .fwCommandDone => Sys2Proof.Machine.execFwCommandDone s
  | .testLogicReset => Sys2Proof.Machine.execTestLogicReset s
  | .t1sFrameReceive frame => Sys2Proof.Machine.execT1sFrameReceive frame s
  | .plcaCoordinatorBeacon => Sys2Proof.Machine.execPlcaCoordinatorBeacon s
  | .receivedLpi p start => Sys2Proof.Machine.execReceivedLpi p start s
  | .wakeSetReceive l => Sys2Proof.Machine.execWakeSetReceive l s
  | .thermalAlertRelease temps => Sys2Proof.Machine.execThermalAlertRelease temps s
  | .avsStepSettled => Sys2Proof.Machine.execAvsStepSettled s
  | .memRefresh c => Sys2Proof.Machine.execMemRefresh c s
  | .chunkBegin c => Sys2Proof.Machine.execChunkBegin c s
  | .meridianReferenceLoss present => Sys2Proof.Machine.execMeridianReferenceLoss present s

end Sys2Proof.Machine
end

