-- ==== Sys2Proof/Machine/Tick.lean ====
section
/-! DEFINITION. The meridian clock: what passes where no command waits (R201, R202; DESIGN CHOICE: the spec's steps have no row
for the passing of time). -/

namespace Sys2Proof.Machine

/-- Raw units to the next meridian clock after `r`: the nominal period of the reference; at 156.25 MHz, 419,430.4 ru, each
block of five clocks takes 2,097,152 ru exactly. -/
def clockStep (code : Nat) (r : Raw) : Nat :=
  if code = 0 then 6553600
  else if code = 1 then 2621440
  else if code = 2 then 524288
  else
    let at_ := r.toNat % 2097152
    (([419430, 838860, 1258291, 1677721].find? fun e => decide (at_ < e)).getD 2097152) - at_

/-- The islands that begin a reset of their own go on from RESET to INIT (R31). -/
def State.initIslands (s : State) : State :=
  if s.sy.hold.isNone ∧ s.sy.retaining = false ∧ s.reg Ix.startPhase 0 = 3 then
    (s.islandsPresent.filter fun i => s.resettable i && s.islandState i == 1).foldl (fun t i => t.setIslandState i 2) s
  else s

/-- The raw counter goes on to the next meridian clock. -/
def State.countOn (s : State) : State :=
  let next := s.raw.toNat + clockStep s.tm.refFreq s.raw
  { s with raw := BitVec.ofNat 64 next, tm := { s.tm with turns := s.tm.turns + next / 18446744073709551616 } }

/-- One meridian clock: the raw counter advances while the reference is there, islands in reset go on to INIT, and reads of the
memory view that have waited 1 ms complete. -/
def State.tick (s : State) : State :=
  let t := s.initIslands
  if t.tm.refPresent then t.countOn.expireReads else t

end Sys2Proof.Machine
end

