-- ==== Sys2Proof/WellFormed.lean ====
section
/-! DEFINITION. Well-formed commands: every operand lies in the numbering the spec gives it (R8, R9, R56). -/

namespace Sys2Proof

/-- The numeric operands of a command lie in their ranges. -/
def Instr.wf : Instr → Bool
  | .timeBeacon j => decide (j < 56)
  | .correctionSwitch d => decide (d < 4)
  | .timeLost i => decide (i < 56)
  | .applyNow mask => decide (mask < 65536)
  | .strobeArrival i g => decide (i < 56) && decide (g < 16)
  | .applyArm g => decide (g < 16)
  | .applyCancel g => decide (g < 16)
  | .applyTargetReceipt i g => decide (i < 56) && decide (g < 16)
  | .scheduledApply i g => decide (i < 56) && decide (g < 16)
  | .applyFireMessage i g => decide (i < 56) && decide (g < 16)
  | .applyComplete g => decide (g < 16)
  | .islandReset value complement => decide (value < 256) && decide (complement < 256)
  | .islandResetDone i => decide (i < 56)
  | .rxFrameStart p _ _ => decide (p < 512)
  | .firstCell p _ _ _ _ => decide (p < 512)
  | .oversizeTruncation p _ _ => decide (p < 512)
  | .pcsCodeError p _ _ _ => decide (p < 512)
  | .frameEnd p _ _ _ => decide (p < 512)
  | .mpacketReceive p _ => decide (p < 512)
  | .pmacVerifySend p => decide (p < 512)
  | .bufferScrub _ => true
  | .hostIntakeGrant c _ => decide (c < 4096)
  | .enqueueRetry k => decide (k < 16)
  | .holdLimitExpiry p => decide (p < 512)
  | .dispatch k _ => decide (k < 16)
  | .awlTakeHandle w => decide (w < 4096)
  | .loadMapReport => true
  | .stealRequest thief => decide (thief < 16)
  | .nop w _ => decide (w < 4096)
  | .add w _ => decide (w < 4096)
  | .sub w _ => decide (w < 4096)
  | .and w _ => decide (w < 4096)
  | .or w _ => decide (w < 4096)
  | .xor w _ => decide (w < 4096)
  | .shl w _ => decide (w < 4096)
  | .shr w _ => decide (w < 4096)
  | .sar w _ => decide (w < 4096)
  | .mul w _ => decide (w < 4096)
  | .movi w _ => decide (w < 4096)
  | .movh w _ => decide (w < 4096)
  | .cmp w _ => decide (w < 4096)
  | .cka w _ => decide (w < 4096)
  | .hsh w _ => decide (w < 4096)
  | .hex w _ => decide (w < 4096)
  | .hin w _ => decide (w < 4096)
  | .mld w _ => decide (w < 4096)
  | .mst w _ => decide (w < 4096)
  | .hins w _ => decide (w < 4096)
  | .hdel w _ => decide (w < 4096)
  | .sld w _ => decide (w < 4096)
  | .sst w _ => decide (w < 4096)
  | .sadd w _ => decide (w < 4096)
  | .xlk w _ => decide (w < 4096)
  | .tlk w _ => decide (w < 4096)
  | .crd w _ => decide (w < 4096)
  | .xwrInsert w _ => decide (w < 4096)
  | .xwrDelete w _ => decide (w < 4096)
  | .cntAdd w _ => decide (w < 4096)
  | .cntFrame w _ => decide (w < 4096)
  | .mtr w _ => decide (w < 4096)
  | .fwd w _ => decide (w < 4096)
  | .rep w _ => decide (w < 4096)
  | .mir w _ => decide (w < 4096)
  | .drop w _ => decide (w < 4096)
  | .spl w _ => decide (w < 4096)
  | .rcv w _ => decide (w < 4096)
  | .pcd w _ => decide (w < 4096)
  | .svi w _ => decide (w < 4096)
  | .tsr w _ => decide (w < 4096)
  | .br w _ => decide (w < 4096)
  | .bz w _ => decide (w < 4096)
  | .bnz w _ => decide (w < 4096)
  | .bf w _ => decide (w < 4096)
  | .bnf w _ => decide (w < 4096)
  | .call w _ => decide (w < 4096)
  | .jr w _ => decide (w < 4096)
  | .yld w _ => decide (w < 4096)
  | .retire k => decide (k < 16)
  | .commit k => decide (k < 16)
  | .postcardFlush k => decide (k < 16)
  | .awlWatchdogExpiry w => decide (w < 4096)
  | .awlParityError w => decide (w < 4096)
  | .programStoreError r => decide (r < 16)
  | .xmAgeSweep t => decide (t < 64)
  | .xmInsert t _ => decide (t < 64)
  | .xmDelete t _ => decide (t < 64)
  | .programLoad => true
  | .programDefault => true
  | .programCheckDone => true
  | .txSelect p _ _ _ => decide (p < 512)
  | .copyTxEnd p _ => decide (p < 512)
  | .gateEntryChange p => decide (p < 512)
  | .gateChangeTime p => decide (p < 512)
  | .pmacHoldAssert p => decide (p < 512)
  | .streamGateEntryChange g => decide (g < 16384)
  | .streamGateReopen g => decide (g < 16384)
  | .queueSample => true
  | .queueSampleConfigWrite _ value => decide (value < 4294967296)
  | .gateWake p => decide (p < 512)
  | .recoveryTimerExpiry f => decide (f < 262144)
  | .recoveryReset f => decide (f < 4294967296)
  | .recoveryFuncWrite f _ => decide (f < 262144)
  | .seqGenWrite f _ => decide (f < 262144)
  | .latentTest f => decide (f < 262144)
  | .latentReset f => decide (f < 262144)
  | .guaranteeClear => true
  | .retainingReset => true
  | .recoveryWalk _ _ => true
  | .pivotRetake d => decide (d < 4)
  | .timeSet d value => decide (d < 4) && decide (value < 79228162514264337593543950336)
  | .timeAdjust d value => decide (d < 4) && decide (-9223372036854775808 ≤ value ∧ value < 9223372036854775808)
  | .timeSlew d value => decide (d < 4) && decide (-9223372036854775808 ≤ value ∧ value < 9223372036854775808)
  | .timeRateSet d value => decide (d < 4) && decide (-9223372036854775808 ≤ value ∧ value < 9223372036854775808)
  | .slewEnd d => decide (d < 4)
  | .servoSample d _ => decide (d < 4)
  | .servoHoldoverTimeout d => decide (d < 4)
  | .holdoverLimit d => decide (d < 4)
  | .tsCalibrate p => decide (p < 512)
  | .tsCalibrationDone p _ _ => decide (p < 512)
  | .timeMessageReceive p _ _ _ => decide (p < 512)
  | .ptpSyncSend p d _ _ => decide (p < 512) && decide (d < 4)
  | .ptpAnnounceSend p d => decide (p < 512) && decide (d < 4)
  | .ptpPdelaySend p d => decide (p < 512) && decide (d < 4)
  | .rollCallSignaling p d => decide (p < 512) && decide (d < 4)
  | .announceReceiptTimeout p d => decide (p < 512) && decide (d < 4)
  | .tioEdge n _ => decide (n < 32)
  | .tioTrailingEdge n => decide (n < 32)
  | .tioCaptureEdge n _ _ => decide (n < 32)
  | .tioCaptureRead n => decide (n < 32)
  | .timeSnapshot => true
  | .ringGatherStart m => decide (m < 16)
  | .ringGatherDone m _ => decide (m < 16)
  | .ringCycleSend m _ _ => decide (m < 16)
  | .ringFrameReturn m _ _ _ _ _ => decide (m < 16)
  | .ringCycleClose m => decide (m < 16)
  | .cycleFramePass k _ _ _ _ _ _ _ => decide (k < 256)
  | .ptInputSample k => decide (k < 256)
  | .ptGatherDone k => decide (k < 256)
  | .ptOutputLatch k => decide (k < 256)
  | .listenTimeout m => decide (m < 16)
  | .claimSlot m => decide (m < 16)
  | .startClaimReturn m _ _ _ => decide (m < 16)
  | .startClaimReceived m _ => decide (m < 16)
  | .yieldTimeout m => decide (m < 16)
  | .backoffEnd m => decide (m < 16)
  | .referenceWatch m => decide (m < 16)
  | .duelFrameReceived m _ => decide (m < 16)
  | .rollAdvance d => decide (d < 4)
  | .rollCallReceive d _ => decide (d < 4)
  | .memberAgeOut d _ => decide (d < 4)
  | .silenceHoldoverTimeout d => decide (d < 4)
  | .functionLevelReset => true
  | .perstn => true
  | .channelDoorbell value _ => decide (value < 4294967296)
  | .descriptorFetchDone => true
  | .completionDoorbell value _ => decide (value < 4294967296)
  | .transmitFrame c => decide (c < 4096)
  | .receiveBuffer c => decide (c < 4096)
  | .hostRxDelivery h _ => decide (h < 4)
  | .launchTimeReached _ => true
  | .unitWriteback c => decide (c < 4096)
  | .backlogDrain r => decide (r < 1024)
  | .cringPoll r => decide (r < 1024)
  | .vectorMessage v => decide (v < 2048)
  | .vectorUnmask v _ => decide (v < 2048)
  | .powerStateChange _ _ _ _ _ => true
  | .pmeSend => true
  | .channelEntryLoad c => decide (c < 4096)
  | .chInvalidate value => decide (value < 65536)
  | .moveCopy c => decide (c < 4096)
  | .indexGather c => decide (c < 4096)
  | .indexScatter c => decide (c < 4096)
  | .planeSplit c => decide (c < 4096)
  | .planeMerge c => decide (c < 4096)
  | .chunkDone c first _ => decide (c < 4096) && decide (first < 4294967296)
  | .busError c _ => decide (c < 4096)
  | .chRestart c value => decide (c < 4096) && decide (value < 256)
  | .chAbort value => decide (value < 18446744073709551616)
  | .chShadowArm c value => decide (c < 4096) && decide (value < 256)
  | .dmaModeSwitch => true
  | .cormusMessage port _ => decide (port ≤ 512)
  | .read idx subix _ => decide (idx < 65536) && decide (subix < 65536)
  | .write idx subix _ _ => decide (idx < 65536) && decide (subix < 65536)
  | .writeGuarded idx subix _ _ => decide (idx < 65536) && decide (subix < 65536)
  | .readRange idx subix off len _ => decide (idx < 65536) && decide (subix < 65536) && decide (off < 4294967296) && decide (len < 65536)
  | .writeRange idx subix off _ _ => decide (idx < 65536) && decide (subix < 65536) && decide (off < 4294967296)
  | .describe idx subix off _ => decide (idx < 65536) && decide (subix < 65536) && decide (off < 4294967296)
  | .addressResolution port _ => decide (port ≤ 512)
  | .objectWrite idx subix _ => decide (idx < 65536) && decide (subix < 65536)
  | .mvSlotLowRead off n => decide (off < 4294967296) && decide (n < 256)
  | .mvSlotLowWrite off _ => decide (off < 4294967296)
  | .mvStageWrite off _ => decide (off < 4294967296)
  | .mvIndAddr off _ => decide (off < 4294967296)
  | .mvIndDataRead n => decide (n < 256)
  | .mvIndDataWrite _ => true
  | .guardedValueWrite off _ => decide (off < 4294967296)
  | .guardedComplementWrite off _ => decide (off < 4294967296)
  | .guardTimeout => true
  | .imageSave => true
  | .imageSelect => true
  | .imageRestore => true
  | .imageFactory => true
  | .imageErase => true
  | .imageCompare => true
  | .imageInstall => true
  | .imageCommandDone => true
  | .plcaFallback => true
  | .plcaBeacon => true
  | .t1sFrameSend _ => true
  | .laneRefFail k => decide (k < 16)
  | .laneRefGood k => decide (k < 16)
  | .laneSignalDetect l => decide (l < 512)
  | .laneSignalLoss l => decide (l < 512)
  | .laneAdaptConverged l _ => decide (l < 512)
  | .laneAdaptTimeout l => decide (l < 512)
  | .laneLockTimeout l => decide (l < 512)
  | .laneReady p _ => decide (p < 512)
  | .laneBlockLockLoss l => decide (l < 512)
  | .laneBackoffEnd l => decide (l < 512)
  | .laneLinkupTimeout l => decide (l < 512)
  | .idleGuard l => decide (l < 512)
  | .laneAnchorRefresh l _ => decide (l < 512)
  | .laneAnchorRetake l => decide (l < 512)
  | .portTxSleep p => decide (p < 512)
  | .portTxWake p => decide (p < 512)
  | .quietRefresh p => decide (p < 512)
  | .quietReceive l tq _ => decide (l < 512) && decide (tq < 65536)
  | .eyeMarginUpdate l vertical horizontal _ => decide (l < 512) && decide (vertical < 65536) && decide (horizontal < 65536)
  | .prbsCheck l _ => decide (l < 512)
  | .memRetrainCheck c _ _ => decide (c < 8)
  | .memTempPoll c code _ => decide (c < 8) && decide (code < 256)
  | .memChannelFail c _ => decide (c < 8)
  | .memChRestore c => decide (c < 8)
  | .memRestoreDone c _ => decide (c < 8)
  | .memScrub _ _ => true
  | .nvUnitWrite _ _ => true
  | .fwInstall => true
  | .fwSelect => true
  | .fwErase => true
  | .rootKeyRevoke value complement => decide (value < 256) && decide (complement < 256)
  | .fwMinSecurityRaise value complement => decide (value < 256) && decide (complement < 256)
  | .ownerKeyWrite _ => true
  | .quoteRequest => true
  | .quoteSigned => true
  | .bottomTreeBuild => true
  | .benchmarkMeasure _ => true
  | .wearIntegrate _ _ => true
  | .wearHistoryWrite => true
  | .avsMeasure _ _ => true
  | .railWarning r mv => decide (r < 7) && decide (mv < 65536)
  | .railDipEnd r mv => decide (r < 7) && decide (mv < 65536)
  | .railResetLevel r mv _ => decide (r < 7) && decide (mv < 65536)
  | .thermalWarn n _ => decide (n < 48)
  | .thermalTrip n _ => decide (n < 48)
  | .pmbusAlert status => decide (status < 65536)
  | .powerOnReset => true
  | .porRelease straps _ _ => decide (straps < 256)
  | .startUpApply _ => true
  | .deviceReset => true
  | .rstnRetaining => true
  | .resetRequestRetaining => true
  | .resetRequestDevice => true
  | .supervisorRestart => true
  | .extest => true
  | .idcode => true
  | .samplePreload => true
  | .extestPulse => true
  | .extestTrain => true
  | .highz => true
  | .clamp => true
  | .bypass code => decide (code < 256)
  | .supervisorRestartEnd => true
  | .deviceResetRelease straps _ _ _ => decide (straps < 256)
  | .perstnRelease => true
  | .pcieLinkTraining _ _ => true
  | .aspmL1Entry _ => true
  | .l0Return => true
  | .pmeStatusClear => true
  | .fwCommandDone => true
  | .testLogicReset => true
  | .t1sFrameReceive _ => true
  | .plcaCoordinatorBeacon => true
  | .receivedLpi p _ => decide (p < 512)
  | .wakeSetReceive l => decide (l < 512)
  | .thermalAlertRelease _ => true
  | .avsStepSettled => true
  | .memRefresh c => decide (c < 8)
  | .chunkBegin c => decide (c < 4096)
  | .meridianReferenceLoss _ => true

/-- A command is well formed. -/
abbrev Instr.WellFormed (c : Instr) : Prop := c.wf = true

end Sys2Proof
end

