-- ==== Sys2Proof/Safety.lean ====
section
/-! DEFINITION. What the claims mean by a well-kept state: canonical memories and tables, and pending stores within their size. -/

namespace Sys2Proof.Machine

/-- A table lists its keys in rising order, and no key at its default. -/
def Tbl.canonical {α : Type} [DecidableEq α] (d : α) (t : Tbl α) : Bool := tsorted t && t.all fun e => decide (e.2 ≠ d)

/-- One island's pending store (R19): at most 256 writes, no parameter twice. -/
def Island.storeOk (x : Island) : Bool :=
  decide (x.pend.length ≤ 256) && decide ((x.pend.map fun w => (w.idx, w.sub)).Nodup)

/-- Register `d` of an awl takes `v`, g0 apart, and every other register stays (R104). -/
def Awl.takes (a b : Awl) (d : BitVec 5) (v : Word) : Prop :=
  b.g d = (if d = 0 then 0 else v) ∧ ∀ r, r ≠ d → b.g r = a.g r

/-- A running awl within the limits of R83, R105 and R106: a window of at most 256 bytes, 64 metadata bytes, at most 64 copies
and at most 64 effects. -/
def Awl.withinLimits (a : Awl) : Bool :=
  a.pkt.isNone || (decide (a.window.length ≤ 256) && decide (a.md.length = 64) && decide (a.copies.length ≤ 64) &&
    decide (a.effects.length ≤ 64))

namespace State

/-- Every awl is within its limits. -/
def awlsOk (s : State) : Bool := s.rg.awls.all fun e => e.2.withinLimits

/-- Every element of the dictionary but those with the listed keys holds in `t` what it held in `s`. -/
def regsBut (s t : State) (keys : List Nat) : Prop := ∀ ix sub, dictKey ix sub ∉ keys → t.reg ix sub = s.reg ix sub

/-- Every TABLE record but those with the listed keys holds in `t` what it held in `s`. -/
def recsBut (s t : State) (keys : List Nat) : Prop := ∀ ix sub r, recKey ix sub r ∉ keys → t.record ix sub r = s.record ix sub r

/-- Awl `w`, of a sector that is present, runs packet `p` under handle `h`, the word at its program counter is opcode `op`
with operands `o`, every field it does not use 0 (R109, R112), and `k` more rig clocks stay within its watchdog's limit (R85). -/
def awlReady (s : State) (w : Nat) (op : BitVec 8) (o : AwlOp) (u : Uses) (k h : Nat) (p : Packet) : Prop :=
  s.sectorPresent (w / 256) = true ∧ s.awlAt w (awlWord op o) = some (h, p) ∧ usesOk u o = true ∧
    (s.awl w).cycles + k ≤ s.watchdogLimit w

/-- Awl `w` with its program counter moved on and `k` rig clocks counted. -/
def awlNext (s : State) (w k : Nat) : Awl := { s.awl w with pc := (s.awl w).pc + 1, cycles := (s.awl w).cycles + k }

/-- `t` differs from `s` in awl `w` at most. -/
def onlyAwl (s t : State) (w : Nat) : Prop :=
  (∀ v, v ≠ w → t.awl v = s.awl v) ∧ t = { s with rg := { s.rg with awls := t.rg.awls } }

/-- Frame `w`, padded to 60 bytes and with its FCS, is what port `p` last put on the wire, stamped `ts`, and `n` frames more than
in `s` are counted as sent there. -/
def sentOn (s t : State) (p : Nat) (w : List Byte) (ts : Raw) (n : Nat) : Prop :=
  tgetD t.fr.wire p {} = { frame := (w ++ List.replicate (60 - w.length) 0#8) ++ fcsOf (w ++ List.replicate (60 - w.length) 0#8),
                           stomped := false, ts := ts } ∧
    t.reg Ix.txFrames (p + 1) = (s.reg Ix.txFrames (p + 1) + n) % 18446744073709551616

/-- The correction of domain `d` that stands at a raw time, the changes sent and effective by then counted (R16). -/
def standing (s : State) (d : Nat) (r : Raw) : Correction :=
  ((((s.dom d).queue.filter fun e => decide ((e.1 - r).toInt ≤ 0)).getLast?).map Prod.snd).getD (s.dom d).corr

/-- Both memories are in canonical form. -/
def memoriesOk (s : State) : Bool := Memory.wf s.mm.host && Memory.wf s.mm.lpddr

/-- Every island's pending store is within R19. -/
def storesOk (s : State) : Bool := s.isl.islands.all fun e => e.2.storeOk

/-- The commands waiting are well formed. -/
def commandsOk (s : State) : Prop := ∀ c ∈ s.pending, c.wf = true

end State
end Sys2Proof.Machine
end

