-- ==== Sys2Proof/Certificates/Slice0/Obligations.lean ====
section
/-! DEFINITION. The statements for the provers, by chapter of the spec. Where a clause names the code or the parameters of an event, an
open value or another choice of the model, the choice is the model's own and stands in notes/assumptions (4 and 6 above all). -/

set_option linter.unusedVariables false

open Sys2Proof Sys2Proof.Machine

/-! ### Chapter 1: islands, pending stores and strobes -/

/-- R15, R17, R145: the beacon sent at the last whole multiple of 1,024 ns brings its island that raw time and the rate and ends
time-lost; where no gate waits for the island's time nothing else changes. An island that has run 4,096 ns without a beacon becomes
time-lost, is counted and logged. -/
def Obligations.TimeBusBeaconAndLoss : Prop :=
  (∀ (s : State) (j : Nat) (sent : Raw), s.islandPresent j = true → sent.toNat = s.raw.toNat / 67108864 * 67108864 →
      s.islandState j = 4 ∨ (s.island j).beacon ≠ sent →
    ∃ t, exec (.timeBeacon j) s = .next t ∧
      (t.island j).beacon = sent ∧ (t.island j).heard = s.rawTotal ∧ (t.island j).beaconRate = refPeriod5 s.tm.refFreq ∧
      (s.islandState j ≠ 4 ∨ (∀ k ∈ tkeys s.eg.gates, gateIsland k ≠ j) →
        t.islandState j = (if s.islandState j = 4 then 3 else s.islandState j) ∧
        (t.island j).pend = (s.island j).pend ∧
        (t.island j).lost = (s.island j).lost.map (fun e => (e.1, some s.raw)) ∧
        (∀ k, k ≠ j → t.island k = s.island k) ∧
        s.regsBut t [dictKey Ix.islandState (j + 1)] ∧
        t = { s with dict := t.dict, isl := { s.isl with islands := t.isl.islands } })) ∧
  (∀ (s : State) (i : Nat), s.islandPresent i = true → s.islandState i = 3 → i ≠ 51 →
      268435456 ≤ s.since (s.island i).heard →
    ∃ u : State, exec (.timeLost i) s = .next (u.event Ix.timeBusLostCount 1 i []) ∧
      u.islandState i = 4 ∧ u.island i = { s.island i with lost := some (s.raw, none) } ∧
      (∀ k, k ≠ i → u.island k = s.island k) ∧
      u.reg Ix.timeBusLostCount (i + 1) = min (s.reg Ix.timeBusLostCount (i + 1) + 1) 0xFFFFFFFF ∧
      s.regsBut u [dictKey Ix.islandState (i + 1), dictKey Ix.timeBusLostCount (i + 1)] ∧
      u = { s with dict := u.dict, isl := { s.isl with islands := u.isl.islands } })

/-- R20, R21, R27: an immediate strobe is requested for every masked group, reaches each island once in the order requested,
makes an island of the group that is not in reset apply, and is counted once it has reached them all. -/
def Obligations.ImmediateStrobe : Prop :=
  (∀ (s : State) (mask : Nat),
    ∃ t, exec (.applyNow mask) s = .next t ∧
      (∀ g, g < 16 → t.group g =
        if bit mask g then
          { s.group g with strobes := (s.group g).strobes ++
              [⟨s.islandsPresent, time80 (s.syncNow (s.reg Ix.applyDomain (g + 1)))⟩] }
        else s.group g) ∧
      t = { s with isl := { s.isl with groups := t.isl.groups }, answer := {} }) ∧
  (∀ (s : State) (i g : Nat) (before after : List Strobe) (b : Strobe), s.islandPresent i = true → g < 16 →
      (s.group g).strobes = before ++ b :: after → (∀ c ∈ before, i ∉ c.waiting) → i ∈ b.waiting →
    let u := s.setGroup g { s.group g with
      strobes := before ++ { b with waiting := b.waiting.filter (· != i) } :: after }
    exec (.strobeArrival i g) s =
      .next (if s.resetting i = false ∧ s.reg Ix.applyGroup (i + 1) = g then u.applyIsland i none else u)) ∧
  (∀ (s : State) (g : Nat) (b : Strobe) (rest : List Strobe), g < 16 → (s.group g).strobes = b :: rest → b.waiting = [] →
    ∃ t, exec (.applyComplete g) s = .next t ∧
      t.group g = { s.group g with strobes := rest } ∧
      t.reg Ix.applyLast (g + 1) = b.arrival ∧
      t.reg Ix.applyCount (g + 1) = (s.reg Ix.applyCount (g + 1) + 1) % 4294967296 ∧
      s.regsBut t [dictKey Ix.applyLast (g + 1), dictKey Ix.applyCount (g + 1)] ∧
      t = { s with dict := t.dict, isl := { s.isl with groups := t.isl.groups } })

/-- R22, R23, R25, R26: arming converts the target to raw time and arms the group; islands receive and hold it, apply when it
falls due, late where it has passed already, and an island that was time-lost then on the meridian's message; a cancel before it falls due ends
it. -/
def Obligations.ScheduledStrobe : Prop :=
  (∀ (s : State) (g d : Nat) (target : Int), g < 16 → (s.group g).armed = none →
      d = s.reg Ix.applyDomain (g + 1) → target = ofTime80 (s.reg Ix.applyTime (g + 1)) →
      0 ≤ s.rawDelta d target → s.rawDelta d target ≤ 9223372036854775807 → target - s.syncNow d ≤ 39 * 3600 * 65536000000000 →
    ∃ t, exec (.applyArm g) s = .next t ∧
      t.reg Ix.applyArm (g + 1) = 1 ∧ t.reg Ix.applyStatus (g + 1) = 1 ∧
      t.group g = { s.group g with armed := some ⟨s.reg Ix.applyTime (g + 1), d,
        s.raw + BitVec.ofInt 64 (s.rawDelta d target), [], s.islandsPresent, false⟩ } ∧
      s.regsBut t [dictKey Ix.applyArm (g + 1), dictKey Ix.applyStatus (g + 1)] ∧
      t = { s with dict := t.dict, isl := { s.isl with groups := t.isl.groups }, answer := {} }) ∧
  (∀ (s : State) (g : Nat) (a : Armed), g < 16 → (s.group g).armed = some a → (s.raw - a.raw).toInt < 0 →
    ∃ t, exec (.applyCancel g) s = .next t ∧
      t.reg Ix.applyArm (g + 1) = 0 ∧ t.reg Ix.applyStatus (g + 1) = 0 ∧
      t.group g = { s.group g with armed := none } ∧
      s.regsBut t [dictKey Ix.applyArm (g + 1), dictKey Ix.applyStatus (g + 1)] ∧
      t = { s with dict := t.dict, isl := { s.isl with groups := t.isl.groups }, answer := {} }) ∧
  (∀ (s : State) (i g : Nat) (a : Armed), s.islandPresent i = true → g < 16 → (s.group g).armed = some a → i ∈ a.unsent →
      (s.raw - a.raw).toInt ≤ 0 ∨ s.islandState i = 4 ∨ s.lostWhen i a.raw = true →
    exec (.applyTargetReceipt i g) s = .next (s.setGroup g { s.group g with
      armed := some { a with held := a.held ++ [i], unsent := a.unsent.filter (· != i) } })) ∧
  (∀ (s : State) (i g : Nat) (a : Armed), s.islandPresent i = true → g < 16 → (s.group g).armed = some a → i ∈ a.unsent →
      0 < (s.raw - a.raw).toInt → s.lostWhen i a.raw = false → s.islandState i = 3 → s.reg Ix.applyGroup (i + 1) = g →
    exec (.applyTargetReceipt i g) s = .next ((s.setGroup g { s.group g with
      armed := some { a with held := a.held.filter (· != i), unsent := a.unsent.filter (· != i), late := true } }).applyIsland i
        (some a.raw))) ∧
  (∀ (s : State) (i g : Nat) (a : Armed), s.islandPresent i = true → g < 16 → (s.group g).armed = some a → i ∈ a.held →
      0 ≤ (s.raw - a.raw).toInt → s.lostWhen i a.raw = false → s.islandState i ≠ 1 → s.islandState i ≠ 2 → s.reg Ix.applyGroup (i + 1) = g →
    exec (.scheduledApply i g) s = .next ((s.setGroup g { s.group g with
      armed := some { a with held := a.held.filter (· != i), unsent := a.unsent.filter (· != i) } }).applyIsland i (some a.raw))) ∧
  (∀ (s : State) (i g : Nat) (a : Armed), s.islandPresent i = true → g < 16 → (s.group g).armed = some a → i ∈ a.held ∨ i ∈ a.unsent →
      0 ≤ (s.raw - a.raw).toInt → s.islandState i = 4 ∨ (s.lostWhen i a.raw = true ∧ s.islandState i = 3) → s.reg Ix.applyGroup (i + 1) = g →
    exec (.applyFireMessage i g) s = .next ((s.setGroup g { s.group g with
      armed := some { a with held := a.held.filter (· != i), unsent := a.unsent.filter (· != i), late := true } }).applyIsland i
        (some a.raw)))

/-- R22, R27: a scheduled strobe that every island has applied clears APPLY_ARM, reads APPLIED, or APPLIED_LATE where an island
was late, keeps its target in APPLY_LAST and is counted. -/
def Obligations.ScheduledStrobeCompletes : Prop :=
  ∀ (s : State) (g : Nat) (a : Armed), g < 16 → (s.group g).strobes = [] → (s.group g).armed = some a →
      0 ≤ (s.raw - a.raw).toInt → a.held = [] → a.unsent = [] →
    ∃ t, exec (.applyComplete g) s = .next t ∧
      t.group g = {} ∧
      t.reg Ix.applyArm (g + 1) = 0 ∧ t.reg Ix.applyStatus (g + 1) = (if a.late then 3 else 2) ∧
      t.reg Ix.applyLast (g + 1) = a.target ∧
      t.reg Ix.applyCount (g + 1) = (s.reg Ix.applyCount (g + 1) + 1) % 4294967296 ∧
      s.regsBut t [dictKey Ix.applyArm (g + 1), dictKey Ix.applyStatus (g + 1), dictKey Ix.applyLast (g + 1),
        dictKey Ix.applyCount (g + 1)] ∧
      t = { s with dict := t.dict, isl := { s.isl with groups := t.isl.groups } }

/-- R19: a buffered write goes into its island's pending store, in place where the parameter is pending already, and a 257th
parameter aborts with "apply buffer full"; the store stays within R19 either way. -/
def Obligations.PendingStoreStaysWithinBounds : Prop :=
  ∀ (s : State) (i idx sub r v : Nat), (s.island i).storeOk = true →
    ((s.pendWrite i idx sub r v).1.island i).storeOk = true ∧
      (∀ k, k ≠ i → (s.pendWrite i idx sub r v).1.island k = s.island k) ∧
      (∀ ix b, (s.pendWrite i idx sub r v).1.reg ix b = s.reg ix b) ∧
      ((s.pendWrite i idx sub r v).2 = Abort.applyFull ↔
        256 ≤ (s.island i).pend.length ∧ ∀ w ∈ (s.island i).pend, w.idx ≠ idx ∨ w.sub ≠ sub) ∧
      ((s.pendWrite i idx sub r v).2 = 0 ∨ (s.pendWrite i idx sub r v).1 = s) ∧
      ((s.pendWrite i idx sub r v).2 = 0 →
        ∃ w ∈ ((s.pendWrite i idx sub r v).1.island i).pend, w.idx = idx ∧ w.sub = sub ∧ tget w.recs r = some v)

/-- R18, R19: an apply at a rig's island gives every pending buffered scalar its value in one clock and empties the store. -/
def Obligations.RigApplyTakesPendingValue : Prop :=
  ∀ (s : State) (i g idx sub v : Nat) (o : ObjDesc) (b : Strobe) (rest : List Strobe), s.islandPresent i = true → 32 ≤ i → i < 48 → g < 16 →
      s.islandState i = 3 → s.reg Ix.applyGroup (i + 1) = g → (s.group g).strobes = b :: rest → i ∈ b.waiting →
      objAt idx = some o → o.acc = .rwb → o.ty.isTable = false → (s.island i).pend = [⟨idx, sub, [(0, v)]⟩] →
    ∃ t, exec (.strobeArrival i g) s = .next t ∧
      t.reg idx sub = v ∧ (t.island i).pend = [] ∧
      s.regsBut t [dictKey idx sub] ∧ t = { s with dict := t.dict, isl := t.isl }

/-- R28 to R31: a guarded write of a resettable island's number names it in ISLAND_RESET_LAST and begins the reset of its kind,
with its pending writes discarded and counted; one for an island in reset already has no effect, and a number of another island and
a wrong complement change nothing. A rig in reset holds no packet on an awl. A finished reset counts, and the island runs: a rig
with no awl fenced. -/
def Obligations.IslandReset : Prop :=
  (∀ (s : State) (v c : Nat), v < 256 → c = 255 - v → s.resettable v = true → s.islandState v ≠ 1 → s.islandState v ≠ 2 →
    let u := ((if 32 ≤ v ∧ v < 48 then s else s.discardPending v).setReg Ix.islandResetLast 0 v)
    exec (.islandReset v c) s = .next ((if v < 16 then u.resetLanes v else if v < 32 then u.resetPorts (v - 16)
      else if v < 48 then u.startRigReset (v - 32) else u.resetRings).reply {})) ∧
  (∀ (s : State) (v c : Nat), v < 256 → c = 255 - v → s.resettable v = true → 32 ≤ v → v < 48 → s.islandState v ≠ 1 → s.islandState v ≠ 2 →
    ∃ t, exec (.islandReset v c) s = .next t ∧ t.answer = {} ∧
      t.islandState v = 1 ∧ t.reg Ix.islandResetLast 0 = v ∧ (t.island v).pend = [] ∧
      t.reg Ix.applyDiscardCount (v + 1) = min (s.reg Ix.applyDiscardCount (v + 1) + (s.island v).pend.length) 0xFFFFFFFF ∧
      (∀ e ∈ t.rg.awls, e.1 / 256 = v - 32 → e.2.pkt = none) ∧
      (∀ k, k ≠ v → t.island k = s.island k) ∧
      s.regsBut t [dictKey Ix.islandState (v + 1), dictKey Ix.islandResetLast 0, dictKey Ix.applyDiscardCount (v + 1),
        dictKey Ix.handlesRedispatched (v - 32 + 1)]) ∧
  (∀ (s : State) (v c : Nat), v < 256 → c = 255 - v → s.resettable v = true → s.islandState v = 1 ∨ s.islandState v = 2 →
    exec (.islandReset v c) s = .next (s.reply {})) ∧
  (∀ (s : State) (v c : Nat), v < 256 → c = 255 - v → s.resettable v = false →
    exec (.islandReset v c) s = .next (s.reply { abort := 0x0403 })) ∧
  (∀ (s : State) (v c : Nat), v < 256 → c < 256 → c ≠ 255 - v →
    exec (.islandReset v c) s = .next (s.reply { abort := 0x0204 })) ∧
  (∀ (s : State) (i : Nat), s.resettable i = true → s.sy.hold = none → s.sy.retaining = false → s.reg Ix.startPhase 0 = 3 →
      s.islandState i = 1 ∨ s.islandState i = 2 →
    exec (.islandResetDone i) s = .next ((s.islandRuns i).countSat Ix.islandResetCount (i + 1) 1)) ∧
  (∀ (s : State) (i : Nat), s.resettable i = true → 32 ≤ i → i < 48 → s.sy.hold = none → s.sy.retaining = false →
      s.reg Ix.startPhase 0 = 3 → s.islandState i = 1 ∨ s.islandState i = 2 →
    ∃ t, exec (.islandResetDone i) s = .next t ∧
      t.islandState i = 3 ∧ t.reg Ix.islandResetCount (i + 1) = min (s.reg Ix.islandResetCount (i + 1) + 1) 0xFFFFFFFF ∧
      t.island i = { s.island i with beacon := s.raw, heard := s.rawTotal, lost := none } ∧
      t.reg Ix.awlsFenced (i - 32 + 1) = 0 ∧ t.reg Ix.awlFenceMap (i - 32 + 1) = 0 ∧
      (∀ e ∈ t.rg.awls, e.1 / 256 ≠ i - 32) ∧ State.partRig (i - 32) ∉ t.isl.faultParts ∧
      s.regsBut t [dictKey Ix.islandState (i + 1), dictKey Ix.islandResetCount (i + 1), dictKey Ix.awlsFenced (i - 32 + 1),
        dictKey Ix.awlFenceMap (i - 32 + 1), dictKey Ix.guaranteeFaultPart 0, dictKey Ix.guaranteeState 0])

/-! ### Chapter 2: ports, frames and acceptance -/

/-- R36, R37, R55, R57, R68, R72, R73: a frame that begins is timestamped, and counted where its port island is in reset; its first
cell gets it a handle at the end of its sector's dispatch list, with the next number of its order domain, or, where the intake
grants no cells, fails it in RX_NO_INTAKE without one. -/
def Obligations.FrameReception : Prop :=
  (∀ (s : State) (p : Nat) (capture : Raw) (pipe : Int), s.portPresent p = true → s.linkUp p = true → s.rxFrame? p = none →
    ∃ t : State, exec (.rxFrameStart p capture pipe) s = .next t ∧
      t.rxFrame? p = some
        { ts := s.rxTimestamp p capture pipe, tsInvalid := s.islandState (p / 32) == 4,
          duringReset := !s.running (16 + p / 32), bytes := [], pkt := none, failed := false, complete := false,
          cormusIds := (s.reg Ix.cormusEthertype 0, s.reg Ix.cormusUdpPort 0) } ∧
      tgetD t.fr.rxDuringReset p 0 = tgetD s.fr.rxDuringReset p 0 + (if s.running (16 + p / 32) then 0 else 1) ∧
      (∀ k, k ≠ p → t.rxFrame? k = s.rxFrame? k) ∧
      s.regsBut t ((s.portLanes p).map fun l => dictKey Ix.laneStatus (l + 1)) ∧
      t = { s with dict := t.dict, ln := t.ln, fr := { s.fr with rx := t.fr.rx, rxDuringReset := t.fr.rxDuringReset } }) ∧
  (∀ (s : State) (p : Nat) (pre ended : Bool) (data bytes : List Byte) (cells : List Nat) (r : RxFrame), s.portPresent p = true →
      s.rxFrame? (State.macKey p pre) = some r → r.pkt = none → r.diverted = false → r.failed = false → r.duringReset = false →
      s.running (16 + p / 32) = true → bytes = r.bytes ++ data → bytes.length ≤ s.reg Ix.portMaxFrame (p + 1) →
      (pre = true → data = []) →
      (ended = false ∧ pre = false ∧ bytes.length = 256) ∨ (ended = false ∧ pre = true ∧ 256 ≤ bytes.length) ∨
        (ended = true ∧ (pre = true → r.complete = true) ∧ 64 ≤ bytes.length ∧ bytes.length ≤ 256) →
      s.isCycleFrame p bytes = false → s.diverted r.cormusIds p bytes = false →
      s.intakeGrants (8 * p + classOf (s.reg Ix.portPcpToTc (p + 1)) (s.reg Ix.portDefaultTc (p + 1)) bytes) (s.rxCells p) = true →
      s.freeChoice cells (s.rxCells p) = true → p < 512 →
    ∃ (t : State) (k : Packet), exec (.firstCell p pre data ended cells) s = .next t ∧
      t.pkt? s.fr.nextPkt = some k ∧ t.fr.nextPkt = s.fr.nextPkt + 1 ∧
      k.src = p ∧ k.cls = classOf (s.reg Ix.portPcpToTc (p + 1)) (s.reg Ix.portDefaultTc (p + 1)) bytes ∧
      k.bytes = bytes ∧ k.ended = ended ∧ k.ts = r.ts ∧ k.cells = cells ∧ k.reserved = cells.length ∧
      k.home = p / 32 ∧ k.stage = .dispatchList ∧ k.epoch = s.reg Ix.programEpoch 0 ∧
      k.domSeq = (s.orderDomain k.domain).nextSeq ∧
      (t.orderDomain k.domain).nextSeq = ((s.orderDomain k.domain).nextSeq + 1) % 4294967296 ∧
      tgetD t.fr.dispatchQ (p / 32) [] = tgetD s.fr.dispatchQ (p / 32) [] ++ [s.fr.nextPkt] ∧
      (∀ h, h ≠ s.fr.nextPkt → t.pkt? h = s.pkt? h) ∧
      t = { s with fr := t.fr }) ∧
  (∀ (s : State) (p : Nat) (pre ended : Bool) (data bytes : List Byte) (cells : List Nat) (r : RxFrame), s.portPresent p = true →
      s.rxFrame? (State.macKey p pre) = some r → r.pkt = none → r.diverted = false → r.failed = false → r.duringReset = false →
      s.running (16 + p / 32) = true → bytes = r.bytes ++ data → bytes.length ≤ s.reg Ix.portMaxFrame (p + 1) →
      (pre = true → data = []) →
      (ended = false ∧ pre = false ∧ bytes.length = 256) ∨ (ended = false ∧ pre = true ∧ 256 ≤ bytes.length) ∨
        (ended = true ∧ (pre = true → r.complete = true) ∧ 64 ≤ bytes.length ∧ bytes.length ≤ 256) →
      s.isCycleFrame p bytes = false → s.diverted r.cormusIds p bytes = false →
      s.intakeGrants (8 * p + classOf (s.reg Ix.portPcpToTc (p + 1)) (s.reg Ix.portDefaultTc (p + 1)) bytes) (s.rxCells p) = false →
      p < 512 →
    ∃ t : State, exec (.firstCell p pre data ended cells) s = .next t ∧
      t.rxFrame? (State.macKey p pre) = some { r with bytes := bytes, failed := true } ∧
      t.reg Ix.rxNoIntake (p + 1) = (s.reg Ix.rxNoIntake (p + 1) + 1) % 18446744073709551616 ∧
      s.regsBut t [dictKey Ix.rxNoIntake (p + 1)] ∧
      t = { s with dict := t.dict, fr := { s.fr with rx := t.fr.rx } })

/-- R36, R38, R39, R49, R58, R66: a frame that grows past its maximum, meets a code error, ends short or ends with a bad FCS is
counted in the one counter of its failure and marked failed, and the packet it has, not yet retired, fails with it; one that ends
well is counted in RX_ACCEPTED_FRAMES and RX_ACCEPTED_OCTETS and accepted with its full length. A frame begun in a reset, or failed
already, counts nothing at its end. -/
def Obligations.FrameEndings : Prop :=
  (∀ (s : State) (p : Nat) (pre : Bool) (rest bytes : List Byte) (r : RxFrame), s.portPresent p = true → p < 512 →
      s.rxFrame? (State.macKey p pre) = some r → r.failed = false → r.duringReset = false → bytes = s.rxBytes r ++ rest →
      s.reg Ix.portMaxFrame (p + 1) < bytes.length →
      (pre = false → bytes.length = s.reg Ix.portMaxFrame (p + 1) + 1) → (pre = true → rest = []) →
      r.pkt = none ∨ (∃ h q, r.pkt = some h ∧ s.pkt? h = some q ∧ q.stage ≠ .retired) →
    ∃ t : State, exec (.oversizeTruncation p pre rest) s = .next t ∧
      t.rxFrame? (State.macKey p pre) = some { r with failed := true } ∧
      t.reg Ix.rxOversize (p + 1) = (s.reg Ix.rxOversize (p + 1) + 1) % 18446744073709551616 ∧
      (∀ h q, r.pkt = some h → s.pkt? h = some q → ∃ k, t.pkt? h = some k ∧
        k.failed = true ∧ k.ended = true ∧ k.accepted = q.accepted ∧ k.toEnqueue = [] ∧ k.stage = q.stage ∧
        k.bytes = bytes.take (s.reg Ix.portMaxFrame (p + 1)) ∧ k.len = s.reg Ix.portMaxFrame (p + 1) + 4) ∧
      (r.pkt = none → s.regsBut t [dictKey Ix.rxOversize (p + 1)] ∧
        t = { s with dict := t.dict, fr := { s.fr with rx := t.fr.rx } })) ∧
  (∀ (s : State) (p : Nat) (pre fec : Bool) (rest bytes : List Byte) (r : RxFrame), s.portPresent p = true → p < 512 →
      s.rxFrame? (State.macKey p pre) = some r → r.failed = false → r.duringReset = false → bytes = s.rxBytes r ++ rest →
      bytes.length ≤ s.reg Ix.portMaxFrame (p + 1) → (pre = true → rest = []) →
      r.pkt = none ∨ (∃ h q, r.pkt = some h ∧ s.pkt? h = some q ∧ q.stage ≠ .retired) →
    ∃ t : State, exec (.pcsCodeError p pre rest fec) s = .next t ∧
      (∃ bs, t.rxFrame? (State.macKey p pre) = some { r with bytes := bs, failed := true }) ∧
      t.reg Ix.rxCodeError (p + 1) = (s.reg Ix.rxCodeError (p + 1) + 1) % 18446744073709551616 ∧
      t.reg Ix.fecUncorrectedCw (p + 1) =
        (if fec then (s.reg Ix.fecUncorrectedCw (p + 1) + 1) % 18446744073709551616 else s.reg Ix.fecUncorrectedCw (p + 1)) ∧
      (∀ h q, r.pkt = some h → s.pkt? h = some q → ∃ k, t.pkt? h = some k ∧
        k.failed = true ∧ k.ended = true ∧ k.accepted = q.accepted ∧ k.toEnqueue = [] ∧ k.stage = q.stage ∧
        k.bytes = bytes ∧ k.len = bytes.length + 4) ∧
      (r.pkt = none → s.regsBut t [dictKey Ix.rxCodeError (p + 1), dictKey Ix.fecUncorrectedCw (p + 1)] ∧
        t = { s with dict := t.dict, fr := { s.fr with rx := t.fr.rx } })) ∧
  (∀ (s : State) (p : Nat) (pre : Bool) (rest : List Byte) (corrected : Nat) (r : RxFrame), s.portPresent p = true → p < 512 →
      s.rxFrame? (State.macKey p pre) = some r → r.failed = false → r.duringReset = false →
      (r.pkt = none → s.isCycleFrame p (s.rxBytes r ++ rest) = false) → (pre = true → rest = [] ∧ r.complete = true) →
      (s.rxBytes r ++ rest).length < 64 →
    ∃ t : State, exec (.frameEnd p pre rest corrected) s = .next t ∧
      t.rxFrame? (State.macKey p pre) = none ∧
      t.reg Ix.rxRunt (p + 1) = (s.reg Ix.rxRunt (p + 1) + 1) % 18446744073709551616 ∧
      t.reg Ix.fecCorrectedCw (p + 1) = (s.reg Ix.fecCorrectedCw (p + 1) + corrected) % 18446744073709551616 ∧
      t = { s with dict := t.dict, ln := t.ln, fr := { s.fr with rx := t.fr.rx } }) ∧
  (∀ (s : State) (p : Nat) (pre : Bool) (rest : List Byte) (corrected : Nat) (r : RxFrame), s.portPresent p = true → p < 512 →
      s.rxFrame? (State.macKey p pre) = some r → r.failed = true ∨ r.duringReset = true → (pre = true → rest = []) →
    ∃ t : State, exec (.frameEnd p pre rest corrected) s = .next t ∧
      t.rxFrame? (State.macKey p pre) = none ∧
      t.reg Ix.fecCorrectedCw (p + 1) = (s.reg Ix.fecCorrectedCw (p + 1) + corrected) % 18446744073709551616 ∧
      t = { s with dict := t.dict, ln := t.ln, fr := { s.fr with rx := t.fr.rx } }) ∧
  (∀ (s : State) (p h : Nat) (pre : Bool) (rest bytes : List Byte) (corrected : Nat) (r : RxFrame) (q : Packet),
      s.portPresent p = true → p < 512 →
      s.rxFrame? (State.macKey p pre) = some r → r.failed = false → r.duringReset = false → (pre = true → rest = [] ∧ r.complete = true) →
      bytes = s.rxBytes r ++ rest → 64 ≤ bytes.length → bytes.length ≤ s.reg Ix.portMaxFrame (p + 1) → r.pkt = some h →
      s.pkt? h = some q → q.src = p → q.stage = .dispatchList → q.admitted = [] → q.failed = false → s.queuesOf h = [] →
      (s.portLink p).asleep = false →
    ∃ t : State, exec (.frameEnd p pre rest corrected) s = .next t ∧
      (fcsGood bytes = true →
        t.rxFrame? (State.macKey p pre) = none ∧
        t.pkt? h = some { q with
          bytes := bytes, len := bytes.length, ended := true, windowDone := true, accepted := true, acceptedAt := s.raw
          cells := q.cells.take ((bytes.length + 255) / 256), reserved := min q.reserved ((bytes.length + 255) / 256) } ∧
        t.reg Ix.rxAcceptedFrames (p + 1) = (s.reg Ix.rxAcceptedFrames (p + 1) + 1) % 18446744073709551616 ∧
        t.reg Ix.rxAcceptedOctets (p + 1) = (s.reg Ix.rxAcceptedOctets (p + 1) + bytes.length) % 18446744073709551616) ∧
      (fcsGood bytes = false →
        t.rxFrame? (State.macKey p pre) = none ∧
        (∃ k, t.pkt? h = some k ∧ k.failed = true ∧ k.accepted = q.accepted ∧ k.bytes = bytes ∧ k.len = bytes.length) ∧
        t.reg Ix.rxFcsError (p + 1) = (s.reg Ix.rxFcsError (p + 1) + 1) % 18446744073709551616 ∧
        t.reg Ix.rxAcceptedFrames (p + 1) = s.reg Ix.rxAcceptedFrames (p + 1)) ∧
      t.reg Ix.fecCorrectedCw (p + 1) = (s.reg Ix.fecCorrectedCw (p + 1) + corrected) % 18446744073709551616)

/-- R45, R46: mPackets of an enabled preemptable MAC: a verify is answered, a respond verifies, a first fragment starts a frame
and a fragment with the expected numbers continues it; one with the wrong frame number ends it as a reassembly error. Verify
mPackets are sent up to three times and then verification has failed. -/
def Obligations.PreemptableMac : Prop :=
  (∀ (s : State) (p : Nat) (m : MPacket), s.portPresent p = true → s.regB Ix.pmacEnable (p + 1) = true → s.linkUp p = true →
      s.islandState (16 + p / 32) ≠ 1 → s.islandState (16 + p / 32) ≠ 2 →
    (m.kind = .verify → exec (.mpacketReceive p m) s = .next (s.setPmac p { s.pmac p with responds := (s.pmac p).responds + 1 })) ∧
    (m.kind = .respond → s.reg Ix.pmacVerifyStatus (p + 1) = 2 →
      exec (.mpacketReceive p m) s = .next (s.setReg Ix.pmacVerifyStatus (p + 1) 3)) ∧
    (∀ f, m.kind = .start f → (s.pmac p).reassembling = false → s.rxFrame? (512 + p) = none → m.longEnough = true →
        (m.final = true ∨ m.mcrcOk = true) →
      let u := (s.count Ix.pmacFragmentsRx (p + 1) 1).startRx (512 + p) p m.capture m.pipe []
      exec (.mpacketReceive p m) s =
        .next ((u.setPmac p { u.pmac p with smd := f % 4, nextFrag := 3, reassembling := true }).takeFragment p m)) ∧
    (∀ f n, m.kind = .cont f n → (s.pmac p).reassembling = true → f % 4 = (s.pmac p).smd → n % 4 = (s.pmac p).nextFrag →
        m.longEnough = true → (m.final = true ∨ m.mcrcOk = true) →
      exec (.mpacketReceive p m) s = .next (((s.laneData p).count Ix.pmacFragmentsRx (p + 1) 1).takeFragment p m)) ∧
    (∀ f n, m.kind = .cont f n → (s.pmac p).reassembling = true → f % 4 ≠ (s.pmac p).smd →
      exec (.mpacketReceive p m) s = .next (((s.laneData p).count Ix.pmacFragmentsRx (p + 1) 1).reassemblyError p true))) ∧
  (∀ (s : State) (p : Nat), s.portPresent p = true → s.regB Ix.pmacEnable (p + 1) = true →
      s.regB Ix.pmacVerifyDisable (p + 1) = false → s.portUp p = true →
      s.reg Ix.pmacVerifyStatus (p + 1) = 1 ∨ s.reg Ix.pmacVerifyStatus (p + 1) = 2 →
      (s.pmac p).attempts = 0 ∨ s.reg Ix.pmacVerifyTime (p + 1) * 65536000000 ≤ s.since (s.pmac p).lastVerify →
    ((s.pmac p).attempts < 3 → exec (.pmacVerifySend p) s = .next
      ((s.setPmac p { s.pmac p with attempts := (s.pmac p).attempts + 1, lastVerify := s.rawTotal }).setReg Ix.pmacVerifyStatus (p + 1) 2)) ∧
    (3 ≤ (s.pmac p).attempts → exec (.pmacVerifySend p) s = .next (s.setReg Ix.pmacVerifyStatus (p + 1) 4)))

/-- R53, R54, R57, R59, R62, R63: a scrubber's pass, no sooner than its period after the last, counts each codeword it corrects, and
a cell corrected in three passes in a row is condemned; a granted host frame gets its cells and a handle and begins its fetch; a
keeper's waiting enqueue is tried again, and waits on while its queue does not admit it; a down port whose hold limit has run out expires, and with empty queues releases nothing. -/
def Obligations.BufferEvents : Prop :=
  (∀ (s : State) (findings : List CellFinding), s.running 48 = true →
      s.reg Ix.bufferScrubPeriod 0 * 65536000000 ≤ s.since s.fr.scrubbed →
      (∀ f ∈ findings, f.cell < 655360 ∧ f.word < 4 ∧ 1 ≤ f.errors ∧ f.errors ≤ 4 ∧ (s.fr.eccInForce = 1 → f.errors ≤ 3)) →
    ∃ t : State, exec (.bufferScrub findings) s = .next t ∧
      t.reg Ix.bufferCorrectedCount 0 % 18446744073709551616 =
        (s.reg Ix.bufferCorrectedCount 0 + findings.length) % 18446744073709551616 ∧
      t.fr.scrubbed = s.rawTotal ∧
      (∀ f m, findings = [f] → s.fr.cells = [(f.cell, m)] →
        t.fr.cells = [(f.cell, { m with runs := m.runs + 1, condemned := m.condemned || decide (3 ≤ m.runs + 1) })]) ∧
      (∀ c m, findings = [] → s.fr.cells = [(c, m)] → t.cellMark c = { m with runs := 0 }) ∧
      s.regsBut t [dictKey Ix.bufferCorrectedCount 0] ∧
      t = { s with dict := t.dict, fr := { s.fr with cells := t.fr.cells, scrubbed := s.rawTotal } }) ∧
  (∀ (s u : State) (c : Nat) (cells : List Nat) (e : List Byte) (x : HUnit), s.chanEntry c = some e →
      (s.channel c).units.find? (fun y => y.stage == .waiting) = some x → s.mayStart c = true →
      s.intakeGrants (4096 + 8 * entHostPort e + x.cls) (hostCells x.length) = true →
      s.freeChoice cells (hostCells x.length) = true → u = s.handOver c x.first → u.chanEntry c = some e → u.fr = s.fr →
    ∃ (t : State) (k : Packet), exec (.hostIntakeGrant c cells) s = .next t ∧
      t.pkt? s.fr.nextPkt = some k ∧ k.src = 512 + entHostPort e ∧ k.cls = x.cls ∧ k.cells = cells ∧ k.stage = .reserved ∧
      k.chan = c ∧ k.reserved = cells.length ∧ t.fr.nextPkt = s.fr.nextPkt + 1) ∧
  (∀ (s : State) (k h : Nat) (p : Packet), s.sectorPresent k = true → s.running 48 = true →
      (s.keeperPkts k).filter (fun e => e.2.stage == .enqueuing && !e.2.failed) = [(h, p)] → s.pkt? h = some p →
    exec (.enqueueRetry k) s = .next (s.pushCopies h) ∧
    (∀ i c rest, p.toEnqueue = (i, c) :: rest → s.enqueueDrop p c = none →
        s.admits c.queue p.cells.length (p.guarded && !p.returned) = false →
      ∃ t, exec (.enqueueRetry k) s = .next t ∧ t.pkt? h = some p ∧
        (∀ h', h' ≠ h → t.pkt? h' = s.pkt? h') ∧ t = { s with fr := { s.fr with pkts := t.fr.pkts } })) ∧
  (∀ (s : State) (p : Nat), s.portPresent p = true → s.portUp p = false → s.running 48 = true →
      (s.holdTimer p).running = true → s.reg Ix.portHoldLimit (p + 1) * 65536000 ≤ s.holdElapsed p →
    exec (.holdLimitExpiry p) s = .next (s.expireHold p) ∧
    ((∀ c, c < 8 → s.queue (8 * p + c) = []) → exec (.holdLimitExpiry p) s = .next
      (s.setHoldTimer p { s.holdTimer p with expired := true, running := false, elapsed := s.holdElapsed p })))

/-! ### Chapter 4, R104 to R125: the awl's instructions -/

/-- R104, R109, R110: the arithmetic and logic instructions write D, take g[B] or the sign-extended immediate as their second
operand, move the program counter on, and change nothing else; a write to g0 is ignored. -/
def Obligations.AwlArithmetic : Prop :=
  ∀ (s : State) (w h : Nat) (o : AwlOp) (p : Packet) (c : Instr) (op : BitVec 8) (k : Nat) (f : Word → Word → Word),
    (c, op, k, f) ∈ ([
      (Instr.add w o, 0x01, 1, fun x y => x + y),
      (Instr.sub w o, 0x02, 1, fun x y => x - y),
      (Instr.and w o, 0x03, 1, fun x y => x &&& y),
      (Instr.or w o, 0x04, 1, fun x y => x ||| y),
      (Instr.xor w o, 0x05, 1, fun x y => x ^^^ y),
      (Instr.shl w o, 0x06, 1, fun x y => x <<< (y.toNat % 64)),
      (Instr.shr w o, 0x07, 1, fun x y => x >>> (y.toNat % 64)),
      (Instr.sar w o, 0x08, 1, fun x y => x.sshiftRight (y.toNat % 64)),
      (Instr.mul w o, 0x09, 3, fun x y => x * y),
      (Instr.cka w o, 0x0D, 1, fun x y =>
        let t := x.toNat % 65536 + y.toNat % 65536
        BitVec.ofNat 64 ((t % 65536 + t / 65536) % 65536))] : List (Instr × BitVec 8 × Nat × (Word → Word → Word))) →
    s.awlReady w op o { d := true, a := true, bi := true } k h p →
    ∃ t : State, exec c s = .next t ∧ s.onlyAwl t w ∧
      (s.awl w).takes (t.awl w) o.d (f ((s.awl w).g o.a) (if o.i then o.imm.signExtend 64 else (s.awl w).g o.b)) ∧
      t.awl w = { s.awlNext w k with regs := (t.awl w).regs }

/-- R110: nop, movi, movh, cmp and hsh. -/
def Obligations.AwlMovesAndCompares : Prop :=
  ∀ (s : State) (w h : Nat) (o : AwlOp) (p : Packet),
    (s.awlReady w 0x00 o {} 1 h p → exec (.nop w o) s = .next (s.setAwl w (s.awlNext w 1))) ∧
    (s.awlReady w 0x0A o { d := true, imm := true, i1 := true } 1 h p →
      ∃ t : State, exec (.movi w o) s = .next t ∧ s.onlyAwl t w ∧
        (s.awl w).takes (t.awl w) o.d (o.imm.signExtend 64) ∧ t.awl w = { s.awlNext w 1 with regs := (t.awl w).regs }) ∧
    (s.awlReady w 0x0B o { d := true, imm := true, i1 := true } 1 h p →
      ∃ t : State, exec (.movh w o) s = .next t ∧ s.onlyAwl t w ∧
        (s.awl w).takes (t.awl w) o.d (o.imm ++ ((s.awl w).g o.d).truncate 32) ∧
        t.awl w = { s.awlNext w 1 with regs := (t.awl w).regs }) ∧
    (∀ f : Word → Word → Bool, (o.x.toNat % 8, f) ∈ ([(0, fun x y => x == y), (1, fun x y => x != y), (2, fun x y => x.ult y),
        (3, fun x y => x.ule y), (4, fun x y => x.slt y), (5, fun x y => x.sle y)] : List (Nat × (Word → Word → Bool))) →
      s.awlReady w 0x0C o { d := true, a := true, bi := true, x := true } 1 h p →
      ∃ (t : State) (b : Bool), exec (.cmp w o) s = .next t ∧ s.onlyAwl t w ∧
        b = f ((s.awl w).g o.a) (if o.i then o.imm.signExtend 64 else (s.awl w).g o.b) ∧
        (s.awl w).takes (t.awl w) o.d (if b then 1 else 0) ∧
        t.awl w = { s.awlNext w 1 with regs := (t.awl w).regs, flag := b }) ∧
    (s.awlReady w 0x0E o { d := true, a := true, x := true, imm := true } (1 + (o.x.toNat + 8) / 8) h p →
      ((s.awl w).g o.a + o.imm.signExtend 64).toNat + o.x.toNat + 1 ≤ 256 →
      ∃ t : State, exec (.hsh w o) s = .next t ∧ s.onlyAwl t w ∧
        (s.awl w).takes (t.awl w) o.d
          (BitVec.ofNat 64 (crc32c (slice (s.awl w).window ((s.awl w).g o.a + o.imm.signExtend 64).toNat (o.x.toNat + 1)))) ∧
        t.awl w = { s.awlNext w (1 + (o.x.toNat + 8) / 8) with regs := (t.awl w).regs })

/-- R105, R106, R110, R112: window fields are read and written, bytes inserted and deleted, and metadata read and written in its
program area, within their bounds. -/
def Obligations.AwlWindowAndMetadata : Prop :=
  ∀ (s : State) (w h : Nat) (o : AwlOp) (p : Packet) (a : Awl) (at_ b n size : Nat), a = s.awl w →
    at_ = (a.g o.a + o.imm.signExtend 64).toNat → size = 2 ^ (o.x.toNat % 4) →
    b = 8 * (a.g o.a + (o.imm.truncate 16).zeroExtend 64).toNat + (o.imm.extractLsb' 16 3).toNat → n = o.x.toNat % 64 + 1 →
    (s.awlReady w 0x10 o { d := true, a := true, x := true, imm := true } 1 h p → b + n ≤ 2048 →
      ∃ t : State, exec (.hex w o) s = .next t ∧ s.onlyAwl t w ∧
        a.takes (t.awl w) o.d (BitVec.ofNat 64 (getField a.window b n)) ∧
        t.awl w = { s.awlNext w 1 with regs := (t.awl w).regs }) ∧
    (s.awlReady w 0x11 o { a := true, b := true, x := true, imm := true } 1 h p → b + n ≤ 2048 → b + n ≤ 8 * a.window.length →
      exec (.hin w o) s = .next (s.setAwl w { s.awlNext w 1 with window := putField a.window b n (a.g o.b).toNat })) ∧
    (s.awlReady w 0x12 o { d := true, a := true, x := true, imm := true } 1 h p → at_ + size ≤ 64 →
      ∃ t : State, exec (.mld w o) s = .next t ∧ s.onlyAwl t w ∧
        a.takes (t.awl w) o.d (BitVec.ofNat 64 (leField (patch a.md 6 (leBytes 2 a.window.length)) at_ size)) ∧
        t.awl w = { s.awlNext w 1 with regs := (t.awl w).regs }) ∧
    (s.awlReady w 0x13 o { a := true, b := true, x := true, imm := true } 1 h p → 32 ≤ at_ → at_ + size ≤ 64 →
      exec (.mst w o) s = .next (s.setAwl w { s.awlNext w 1 with md := patch a.md at_ (leBytes size (a.g o.b).toNat) })) ∧
    (s.awlReady w 0x14 o { a := true, x := true, imm := true } 2 h p → at_ ≤ a.window.length → a.window.length + n ≤ 256 →
      exec (.hins w o) s = .next (s.setAwl w { s.awlNext w 2 with
        window := a.window.take at_ ++ List.replicate n 0#8 ++ a.window.drop at_
        effects := a.effects.map (shiftInBand at_ n true) })) ∧
    (s.awlReady w 0x15 o { a := true, x := true, imm := true } 2 h p → at_ + n ≤ a.window.length →
      exec (.hdel w o) s = .next (s.setAwl w { s.awlNext w 2 with
        window := a.window.take at_ ++ a.window.drop (at_ + n)
        effects := a.effects.map (shiftInBand at_ n false) }))

/-- R107, R110, R113, R114, R116: scratch is read, written and added to where it is aligned; exact and ternary lookups and counters
are read from the tables. How many clocks a table read takes is a free value, which may run past the watchdog's limit (R85, R111). -/
def Obligations.AwlScratchAndTables : Prop :=
  ∀ (s : State) (w h : Nat) (o : AwlOp) (p : Packet) (a : Awl) (at_ size : Nat), a = s.awl w →
    at_ = (a.g o.a + o.imm.signExtend 64).toNat → size = 2 ^ (o.x.toNat % 4) →
    (s.awlReady w 0x18 o { d := true, a := true, x := true, imm := true } 2 h p → at_ + size ≤ 262144 → at_ % size = 0 →
      ∃ t : State, exec (.sld w o) s = .next t ∧ s.onlyAwl t w ∧
        a.takes (t.awl w) o.d (BitVec.ofNat 64 (s.scratchRead (w / 256) at_ size)) ∧
        t.awl w = { s.awlNext w 2 with regs := (t.awl w).regs }) ∧
    (s.awlReady w 0x19 o { a := true, b := true, x := true, imm := true } 2 h p → at_ + size ≤ 262144 → at_ % size = 0 →
      exec (.sst w o) s = .next ((s.scratchWrite (w / 256) at_ size (a.g o.b).toNat).setAwl w (s.awlNext w 2))) ∧
    (s.awlReady w 0x1A o { d := true, a := true, b := true, imm := true } 3 h p → at_ + 8 ≤ 262144 → at_ % 8 = 0 →
      exec (.sadd w o) s = .next ((s.scratchWrite (w / 256) at_ 8 (s.scratchRead (w / 256) at_ 8 + (a.g o.b).toNat)).setAwl w
        ((s.awlNext w 3).setG o.d (BitVec.ofNat 64 (s.scratchRead (w / 256) at_ 8))))) ∧
    (∀ key, s.awlReady w 0x20 o { d := true, a := true, imm := true } 0 h p → s.xmKeyOf a o = some key →
      ∃ n, 0 < n ∧ exec (.xlk w o) s = .next (if s.watchdogLimit w < a.cycles + n then
          ({ s with draws := s.draws + 2 } : State).setAwl w { a with cycles := s.watchdogLimit w + 1 }
        else (({ s with draws := s.draws + 2 } : State).xmTouch (o.imm.toNat % 64) key).setAwl w
          { (s.awlNext w n).setG o.d (BitVec.ofNat 64 (((s.xmFind (o.imm.toNat % 64) key).map XmEntry.data).getD 0)) with
            flag := (s.xmFind (o.imm.toNat % 64) key).isSome })) ∧
    (s.awlReady w 0x21 o { d := true, a := true, imm := true } 0 h p → s.reg Ix.tcPartSize (o.imm.toNat % 16 + 1) ≠ 0 → o.a.toNat ≤ 27 →
      ∃ (n : Nat) (hit : Option Nat), 0 < n ∧
        hit = s.tcLookup (o.imm.toNat % 16) ((a.g o.a).toNat + (a.g (o.a + 1)).toNat * 2 ^ 64 + (a.g (o.a + 2)).toNat * 2 ^ 128 +
          (a.g (o.a + 3)).toNat * 2 ^ 192 + (a.g (o.a + 4)).toNat * 2 ^ 256) ∧
        exec (.tlk w o) s = .next (if s.watchdogLimit w < a.cycles + n then
            ({ s with draws := s.draws + 2 } : State).setAwl w { a with cycles := s.watchdogLimit w + 1 }
          else ({ s with draws := s.draws + 2 } : State).setAwl w
            { (s.awlNext w n).setG o.d (BitVec.ofNat 64 (hit.getD 0)) with flag := hit.isSome })) ∧
    (s.awlReady w 0x22 o { d := true, a := true, imm := true } 0 h p → at_ < State.counterLimit →
      ∃ n, 0 < n ∧ exec (.crd w o) s = .next (if s.watchdogLimit w < a.cycles + n then
          ({ s with draws := s.draws + 2 } : State).setAwl w { a with cycles := s.watchdogLimit w + 1 }
        else ({ s with draws := s.draws + 2 } : State).setAwl w ((s.awlNext w n).setG o.d (BitVec.ofNat 64 (s.counter at_)))))

/-- R83, R110, R119, R124, R178: the instructions that add one buffered effect, while the list has room for it. -/
def Obligations.AwlEffectList : Prop :=
  ∀ (s : State) (w h : Nat) (o : AwlOp) (p : Packet) (a : Awl) (at_ : Nat), a = s.awl w →
    at_ = (a.g o.a + o.imm.signExtend 64).toNat → a.effects.length < 64 →
    (∀ key, s.awlReady w 0x23 o { a := true, b := true, x := true, imm := true } 1 h p → s.xmKeyOf a o = some key →
      (o.x.getLsbD 0 = false → exec (.xwrInsert w o) s = .next (s.setAwl w { s.awlNext w 1 with
        effects := a.effects ++ [.xmInsert (o.imm.toNat % 64) key (a.g o.b).toNat] })) ∧
      (o.x.getLsbD 0 = true → exec (.xwrDelete w o) s = .next (s.setAwl w { s.awlNext w 1 with
        effects := a.effects ++ [.xmDelete (o.imm.toNat % 64) key] }))) ∧
    (s.awlReady w 0x28 o { a := true, b := true, x := true, imm := true } 1 h p →
      (o.x.getLsbD 0 = false → at_ < State.counterLimit → exec (.cntAdd w o) s = .next (s.setAwl w { s.awlNext w 1 with
        effects := a.effects ++ [.cntAdd at_ (a.g o.b).toNat] })) ∧
      (o.x.getLsbD 0 = true → at_ + 1 < State.counterLimit → exec (.cntFrame w o) s = .next (s.setAwl w { s.awlNext w 1 with
        effects := a.effects ++ [.cntFrame at_] }))) ∧
    (s.awlReady w 0x29 o { a := true, x := true, imm := true } 1 h p → at_ < 262144 →
      exec (.mtr w o) s = .next (s.setAwl w { s.awlNext w 1 with effects := a.effects ++ [.meter at_ (o.x.toNat % 4)] })) ∧
    (s.awlReady w 0x38 o { x := true } 1 h p →
      exec (.pcd w o) s = .next (s.setAwl w { s.awlNext w 1 with effects := a.effects ++ [.postcard (o.x.toNat % 16)] })) ∧
    (s.awlReady w 0x35 o { x := true, imm := true } 1 h p → o.x.getLsbD 0 = false ∨ hasRtag p.rtag a.window = false →
      exec (.rcv w o) s = .next (s.setAwl w { s.awlNext w 1 with
        effects := a.effects ++ [.recover (o.imm.toNat % 262144) (rtagNumber p.rtag a.window)] }))

/-- R110, R117, R120, R125, R177: copies to present queues, up to 64, the copies of a list, none after a drop, an R-TAG and two
copies, and room for a survey record. -/
def Obligations.AwlCopies : Prop :=
  ∀ (s : State) (w h : Nat) (o : AwlOp) (p : Packet) (a : Awl) (at_ : Nat), a = s.awl w →
    at_ = (a.g o.a + o.imm.signExtend 64).toNat →
    (s.awlReady w 0x30 o { a := true, x := true, imm := true } 1 h p → at_ < 4128 → s.queuePresent at_ = true → a.copies = [] →
      exec (.fwd w o) s = .next (s.setAwl w { s.awlNext w 1 with copies := [⟨at_, o.x.getLsbD 0, false⟩] })) ∧
    (s.awlReady w 0x30 o { a := true, x := true, imm := true } 1 h p → at_ < 4128 → s.queuePresent at_ = true → a.copies ≠ [] →
        a.copies.length < 64 → a.effects.length < 64 →
      exec (.fwd w o) s = .next (s.setAwl w { s.awlNext w 1 with
        copies := a.copies ++ [⟨at_, o.x.getLsbD 0, false⟩], effects := a.effects ++ [.replicate] })) ∧
    (s.awlReady w 0x32 o { a := true, imm := true } 1 h p → at_ < 4128 → s.queuePresent at_ = true → a.copies = [] →
      exec (.mir w o) s = .next (s.setAwl w { s.awlNext w 1 with copies := [⟨at_, false, true⟩] })) ∧
    (∀ cs, s.awlReady w 0x31 o { a := true, b := true, x := true, imm := true } (2 + ceilDiv (s.listValid at_) 4) h p → at_ < 16384 →
        cs = s.listCopies at_ ((a.g o.b).toNat % 8) p.src (o.x.getLsbD 0) →
        (∀ c ∈ cs, c.queue < 4128 ∧ s.queuePresent c.queue = true) → a.copies.length + cs.length ≤ 64 →
        cs ≠ [] → 1 < a.copies.length + cs.length → a.effects.length < 64 →
      exec (.rep w o) s = .next (s.setAwl w { s.awlNext w (2 + ceilDiv (s.listValid at_) 4) with
        copies := a.copies ++ cs, effects := a.effects ++ [.replicate] })) ∧
    (s.awlReady w 0x33 o {} 1 h p →
      exec (.drop w o) s = .next (s.setAwl w { s.awlNext w 1 with
        copies := [], effects := a.effects.filter fun e => e != .replicate })) ∧
    (s.awlReady w 0x34 o { a := true, b := true, imm := true } 2 h p → hasRtag p.rtag a.window = false →
        afterTags a.window ≤ a.window.length → a.window.length + 6 ≤ 256 → a.copies = [] → a.effects.length < 64 →
        (∀ q, q = (a.g o.a).toNat ∨ q = (a.g o.b).toNat → q < 4128 ∧ s.queuePresent q = true) →
      exec (.spl w o) s = .next (s.setAwl w { s.awlNext w 2 with
        window := a.window.take (afterTags a.window) ++ (beBytes 2 p.rtag ++ beBytes 4 0) ++ a.window.drop (afterTags a.window)
        splitFn := some (o.imm.toNat % 262144)
        copies := [⟨(a.g o.a).toNat, false, false⟩, ⟨(a.g o.b).toNat, false, false⟩]
        effects := a.effects.map (shiftInBand (afterTags a.window) 6 true) ++ [.replicate] })) ∧
    (s.awlReady w 0x39 o { a := true, imm := true } 2 h p → at_ ≤ a.window.length → a.window.length + 64 ≤ 256 → a.effects.length < 64 →
      exec (.svi w o) s = .next (s.setAwl w { s.awlNext w 2 with
        window := a.window.take at_ ++ List.replicate 64 0#8 ++ a.window.drop at_
        effects := a.effects.map (shiftInBand at_ 64 true) ++ [.inBand at_] }))

/-- R110, R112: jumps go to IMM[12:0] or to a register where their condition holds and cost their clocks; call keeps the next
address; tsr reads raw time or a domain's nanoseconds. -/
def Obligations.AwlJumpsAndTime : Prop :=
  ∀ (s : State) (w h : Nat) (o : AwlOp) (p : Packet) (a : Awl), a = s.awl w →
    (s.awlReady w 0x40 o { imm := true } 2 h p →
      exec (.br w o) s = .next (s.setAwl w { s.awlNext w 2 with pc := o.imm.toNat % 8192 })) ∧
    (∀ (c : Instr) (op : BitVec 8) (u : Uses) (b : Bool), (c, op, u, b) ∈ [
        (Instr.bz w o, (0x41 : BitVec 8), ({ a := true, imm := true } : Uses), a.g o.a == 0),
        (Instr.bnz w o, 0x42, { a := true, imm := true }, a.g o.a != 0),
        (Instr.bf w o, 0x43, { imm := true }, a.flag),
        (Instr.bnf w o, 0x44, { imm := true }, !a.flag)] →
      s.awlReady w op o u (if b then 2 else 1) h p →
      exec c s = .next (s.setAwl w (if b then { s.awlNext w 2 with pc := o.imm.toNat % 8192 } else s.awlNext w 1))) ∧
    (s.awlReady w 0x45 o { d := true, imm := true } 2 h p →
      ∃ t : State, exec (.call w o) s = .next t ∧ s.onlyAwl t w ∧
        a.takes (t.awl w) o.d (BitVec.ofNat 64 (a.pc + 1)) ∧
        t.awl w = { s.awlNext w 2 with regs := (t.awl w).regs, pc := o.imm.toNat % 8192 }) ∧
    (s.awlReady w 0x46 o { a := true } 2 h p → (a.g o.a).toNat % 8192 < (s.programOf p).instrs.length →
      exec (.jr w o) s = .next (s.setAwl w { s.awlNext w 2 with pc := (a.g o.a).toNat % 8192 })) ∧
    (s.awlReady w 0x3A o { d := true, x := true } 4 h p → o.x.toNat ≤ 4 →
      ∃ t : State, exec (.tsr w o) s = .next t ∧ s.onlyAwl t w ∧
        a.takes (t.awl w) o.d (if o.x = 0 then s.raw else BitVec.ofInt 64 (s.syncNs (o.x.toNat - 1))) ∧
        t.awl w = { s.awlNext w 4 with regs := (t.awl w).regs })

/-- R82, R83, R85, R112, R155, R311: a yield hands window, copies and effects to the keeper and frees the awl, and is a program
fault where its policing or receive-channel word is malformed. An instruction with a non-zero field that it does not use is a program
fault: its packet goes to the keeper as a program drop with no copies or effects, and is counted and logged. One that would end
beyond the watchdog's limit has no effect but the count. -/
def Obligations.AwlYieldAndFault : Prop :=
  (∀ (s : State) (w h : Nat) (o : AwlOp) (p : Packet) (a : Awl) (r : Result), a = s.awl w → s.awlReady w 0x7F o {} 1 h p →
      r = { window := a.window, copies := a.copies, effects := a.effects, splitFn := a.splitFn, police := leField a.md 60 4,
            rxChan := leField a.md 56 4, outcome := if a.copies = [] then 2 else 0, cycles := a.cycles + 1, rig := w / 256,
            awl := w % 256, arrived := s.raw } →
      leField a.md 60 4 < 2147483648 ∨ bits (leField a.md 60 4) 30 16 = 0 →
      leField a.md 56 4 < 2147483648 ∨ bits (leField a.md 56 4) 30 12 = 0 →
    ∃ t : State, exec (.yld w o) s = .next t ∧ t.awl w = {} ∧
      t.pkt? h = some { p with stage := .atKeeper, result := some r } ∧
      (∀ i, i ≠ h → t.pkt? i = s.pkt? i) ∧ (∀ v, v ≠ w → t.awl v = s.awl v) ∧
      t = { s with fr := { s.fr with pkts := t.fr.pkts }, rg := { s.rg with awls := t.rg.awls } }) ∧
  (∀ (s : State) (w h : Nat) (o : AwlOp) (p : Packet) (r : Result) (c : Instr) (op : BitVec 8) (u : Uses) (k : Nat),
      s.sectorPresent (w / 256) = true → s.awlAt w (awlWord op o) = some (h, p) → (s.awl w).cycles + k ≤ s.watchdogLimit w →
      r = { window := p.window, copies := [], effects := [], splitFn := none, police := 0, rxChan := 0, outcome := 3,
            cycles := (s.awl w).cycles + k, rig := w / 256, awl := w % 256, arrived := s.raw } →
      (c, op, u, k) ∈ ([
        (Instr.nop w o, 0x00, {}, 1),
        (Instr.add w o, 0x01, { d := true, a := true, bi := true }, 1),
        (Instr.sub w o, 0x02, { d := true, a := true, bi := true }, 1),
        (Instr.and w o, 0x03, { d := true, a := true, bi := true }, 1),
        (Instr.or w o, 0x04, { d := true, a := true, bi := true }, 1),
        (Instr.xor w o, 0x05, { d := true, a := true, bi := true }, 1),
        (Instr.shl w o, 0x06, { d := true, a := true, bi := true }, 1),
        (Instr.shr w o, 0x07, { d := true, a := true, bi := true }, 1),
        (Instr.sar w o, 0x08, { d := true, a := true, bi := true }, 1),
        (Instr.mul w o, 0x09, { d := true, a := true, bi := true }, 3),
        (Instr.movi w o, 0x0A, { d := true, imm := true, i1 := true }, 1),
        (Instr.movh w o, 0x0B, { d := true, imm := true, i1 := true }, 1),
        (Instr.cmp w o, 0x0C, { d := true, a := true, bi := true, x := true }, 1),
        (Instr.cka w o, 0x0D, { d := true, a := true, bi := true }, 1),
        (Instr.hsh w o, 0x0E, { d := true, a := true, x := true, imm := true }, (1 + (o.x.toNat + 8) / 8)),
        (Instr.hex w o, 0x10, { d := true, a := true, x := true, imm := true }, 1),
        (Instr.hin w o, 0x11, { a := true, b := true, x := true, imm := true }, 1),
        (Instr.mld w o, 0x12, { d := true, a := true, x := true, imm := true }, 1),
        (Instr.mst w o, 0x13, { a := true, b := true, x := true, imm := true }, 1),
        (Instr.hins w o, 0x14, { a := true, x := true, imm := true }, 2),
        (Instr.hdel w o, 0x15, { a := true, x := true, imm := true }, 2),
        (Instr.sld w o, 0x18, { d := true, a := true, x := true, imm := true }, 2),
        (Instr.sst w o, 0x19, { a := true, b := true, x := true, imm := true }, 2),
        (Instr.sadd w o, 0x1A, { d := true, a := true, b := true, imm := true }, 3),
        (Instr.xlk w o, 0x20, { d := true, a := true, imm := true }, 0),
        (Instr.tlk w o, 0x21, { d := true, a := true, imm := true }, 0),
        (Instr.crd w o, 0x22, { d := true, a := true, imm := true }, 0),
        (Instr.mtr w o, 0x29, { a := true, x := true, imm := true }, 1),
        (Instr.fwd w o, 0x30, { a := true, x := true, imm := true }, 1),
        (Instr.rep w o, 0x31, { a := true, b := true, x := true, imm := true }, 2),
        (Instr.mir w o, 0x32, { a := true, imm := true }, 1),
        (Instr.drop w o, 0x33, {}, 1),
        (Instr.spl w o, 0x34, { a := true, b := true, imm := true }, 2),
        (Instr.rcv w o, 0x35, { x := true, imm := true }, 1),
        (Instr.pcd w o, 0x38, { x := true }, 1),
        (Instr.svi w o, 0x39, { a := true, imm := true }, 2),
        (Instr.tsr w o, 0x3A, { d := true, x := true }, 4),
        (Instr.br w o, 0x40, { imm := true }, 2),
        (Instr.bz w o, 0x41, { a := true, imm := true }, 1),
        (Instr.bnz w o, 0x42, { a := true, imm := true }, 1),
        (Instr.bf w o, 0x43, { imm := true }, 1),
        (Instr.bnf w o, 0x44, { imm := true }, 1),
        (Instr.call w o, 0x45, { d := true, imm := true }, 2),
        (Instr.jr w o, 0x46, { a := true }, 2),
        (Instr.xwrInsert w o, 0x23, { a := true, b := true, x := true, imm := true }, 1),
        (Instr.xwrDelete w o, 0x23, { a := true, b := true, x := true, imm := true }, 1),
        (Instr.cntAdd w o, 0x28, { a := true, b := true, x := true, imm := true }, 1),
        (Instr.cntFrame w o, 0x28, { a := true, b := true, x := true, imm := true }, 1),
        (Instr.yld w o, 0x7F, {}, 1)] : List (Instr × BitVec 8 × Uses × Nat)) →
      (c = .xwrInsert w o ∨ c = .cntAdd w o → o.x.getLsbD 0 = false) → (c = .xwrDelete w o ∨ c = .cntFrame w o → o.x.getLsbD 0 = true) →
      usesOk u o = false ∨ (c = Instr.yld w o ∧ ((2147483648 ≤ leField (s.awl w).md 60 4 ∧ bits (leField (s.awl w).md 60 4) 30 16 ≠ 0) ∨
        (2147483648 ≤ leField (s.awl w).md 56 4 ∧ bits (leField (s.awl w).md 56 4) 30 12 ≠ 0))) →
    ∃ u : State, exec c s = .next (u.event Ix.programFaultCount 2 48 [(2, p.src), (4, p.domSeq)]) ∧
      u.awl w = {} ∧
      u.pkt? h = some { p with stage := .atKeeper, result := some r } ∧
      u.reg Ix.programFaultCount (p.home + 1) = (s.reg Ix.programFaultCount (p.home + 1) + 1) % 18446744073709551616 ∧
      s.regsBut u [dictKey Ix.programFaultCount (p.home + 1)]) ∧
  (∀ (s : State) (w h k : Nat) (o : AwlOp) (p : Packet) (c : Instr) (op : BitVec 8), s.sectorPresent (w / 256) = true →
      s.awlAt w (awlWord op o) = some (h, p) → usesOk { d := true, a := true, bi := true } o = true →
      (c, op, k) ∈ ([
        (Instr.add w o, 0x01, 1), (Instr.sub w o, 0x02, 1), (Instr.and w o, 0x03, 1), (Instr.or w o, 0x04, 1),
        (Instr.xor w o, 0x05, 1), (Instr.shl w o, 0x06, 1), (Instr.shr w o, 0x07, 1), (Instr.sar w o, 0x08, 1),
        (Instr.mul w o, 0x09, 3), (Instr.cka w o, 0x0D, 1)] : List (Instr × BitVec 8 × Nat)) →
      s.watchdogLimit w < (s.awl w).cycles + k →
    exec c s = .next (s.setAwl w { s.awl w with cycles := s.watchdogLimit w + 1 }))

/-- R109: the word of an instruction gives back its opcode and every operand field, and every word is the word of the opcode and
fields read from it. -/
def Obligations.AwlWordsRoundTrip : Prop :=
  (∀ (op : BitVec 8) (o : AwlOp), awlOpcode (awlWord op o) = op ∧ awlFields (awlWord op o) = o) ∧
  (∀ w : BitVec 64, awlWord (awlOpcode w) (awlFields w) = w)

/-! ### Chapter 3: rigs and keepers -/

/-- R70, R71, R74, R76 to R81: the head of a dispatch list with a whole window joins its sector's rig queue in an open order domain;
the first idle awl takes the head of the queue, with the window, the metadata and the entry point of its program; the load map
takes every depth at each 64 ns of raw time; a dry rig's request to its upper neighbour moves a batch, marked stolen, and counts it. -/
def Obligations.RigDispatchAndSteal : Prop :=
  (∀ (s : State) (k h : Nat) (rest : List Nat) (p : Packet), s.sectorPresent k = true → s.running 48 = true → s.heldReady k = none →
      tgetD s.fr.dispatchQ k [] = h :: rest → s.pkt? h = some p → p.ended = true → s.olderSetting p = false →
      (s.rigQueue k).length < 1024 → s.outstandingOf k < 8192 → s.outstandingIn p.domain < 512 → tgetD s.fr.holdQ p.domain [] = [] →
    ∃ t : State, exec (.dispatch k []) s = .next t ∧
      tgetD t.fr.dispatchQ k [] = rest ∧ t.rigQueue k = s.rigQueue k ++ [h] ∧
      t.pkt? h = some { p with stage := .rigQueue k } ∧ (∀ i, i ≠ h → t.pkt? i = s.pkt? i) ∧
      s.regsBut t [dictKey Ix.keeperWindowStalls (k + 1), dictKey Ix.keeperFullStalls (k + 1)] ∧
      t = { s with dict := t.dict, fr := { s.fr with pkts := t.fr.pkts, dispatchQ := t.fr.dispatchQ, rigQ := t.fr.rigQ } }) ∧
  (∀ (s : State) (w h : Nat) (rest : List Nat) (p : Packet), s.sectorPresent (w / 256) = true → s.rigQueue (w / 256) = h :: rest →
      s.pkt? h = some p → s.running (32 + w / 256) = true → s.awlIdle w = true →
      (∀ a, a < w % 256 → s.awlIdle (256 * (w / 256) + a) = false) →
    ∃ t : State, exec (.awlTakeHandle w) s = .next t ∧
      t.awl w = { pkt := some h, pc := (s.programOf p).entry, window := p.window, md := s.metadata p } ∧
      t.rigQueue (w / 256) = rest ∧ t.pkt? h = some { p with stage := .onAwl w } ∧
      (∀ v, v ≠ w → t.awl v = s.awl v) ∧ (∀ i, i ≠ h → t.pkt? i = s.pkt? i) ∧
      t = { s with draws := s.draws + 2, rg := { s.rg with awls := t.rg.awls },
                   fr := { s.fr with pkts := t.fr.pkts, rigQ := t.fr.rigQ } }) ∧
  (∀ s : State, s.raw.toNat / 4194304 ≠ s.rg.lastReport.toNat / 4194304 →
    ∃ t : State, exec .loadMapReport s = .next t ∧
      (∀ r, t.rig r = if r < s.sectors then { s.rig r with mapDepth := (s.rigQueue r).length } else s.rig r) ∧
      t = { s with rg := { s.rg with rigs := t.rg.rigs, lastReport := s.raw } }) ∧
  (∀ (s : State) (r v : Nat) (b : List Nat), s.sectorPresent r = true → s.rigDry r = true → (s.rig r).stealWait = none →
      v = (r + 1) % s.sectors → v ≠ r → b = s.stealBatch r v → b ≠ [] →
    ∃ t : State, exec (.stealRequest r) s = .next t ∧
      t.rigQueue r = s.rigQueue r ++ b ∧ t.rigQueue v = (s.rigQueue v).filter (fun h => !b.contains h) ∧
      (∀ h p, s.pkt? h = some p → t.pkt? h = some (if h ∈ b then { p with stolen := true, stage := .rigQueue r } else p)) ∧
      t.reg Ix.stealsBy (r + 1) = (s.reg Ix.stealsBy (r + 1) + 1) % 18446744073709551616 ∧
      t.reg Ix.handlesStolenBy (r + 1) = (s.reg Ix.handlesStolenBy (r + 1) + b.length) % 18446744073709551616 ∧
      t.reg Ix.handlesStolenFrom (v + 1) = (s.reg Ix.handlesStolenFrom (v + 1) + b.length) % 18446744073709551616 ∧
      s.regsBut t [dictKey Ix.stealsBy (r + 1), dictKey Ix.handlesStolenBy (r + 1), dictKey Ix.handlesStolenFrom (v + 1)]) ∧
  (∀ (s : State) (r v : Nat), s.stealBatch r v = [] → s.askSteal r v = (s.count Ix.stealRefused (r + 1) 1, false))

/-- R86, R87, R89, R90, R121, R124: the packet whose turn came first retires: decided and offered to its queues, or void where its frame
has failed. One with no copies takes the keeper's next retire number at once; a void one takes it too and is counted. A retired and
accepted packet commits its effects and records its retire number, and one already committed only counts. A postcard frame left
waiting is sent to its queue with its records counted, or dropped and counted where the queue is absent or the EtherType 0. -/
def Obligations.KeeperRetiresAndCommits : Prop :=
  (∀ (s : State) (k h : Nat) (p : Packet), s.sectorPresent k = true → s.running 48 = true → s.nextRetire k = some (h, p) →
    exec (.retire k) s = .next (if p.failed then s.retireVoid h p else (s.decide_ h p).pushCopies h)) ∧
  (∀ (s : State) (k h : Nat) (p : Packet) (r : Result), s.sectorPresent k = true → s.running 48 = true → s.nextRetire k = some (h, p) →
      s.pkt? h = some p → p.home = k → p.src < 512 → p.committed = false → p.faultParts = [] → p.admitted = [] → p.result = some r →
      r.copies = [] → r.effects = [] → r.police < 2147483648 →
      s.reg Ix.surveyEnable 0 = 0 → (∀ n, n < 16 → s.reg Ix.postcardSample (n + 1) = 0 ∧ s.reg Ix.postcardCondition (n + 1) = 0) →
    (p.failed = false → ∃ (t : State) (q : Packet), exec (.retire k) s = .next t ∧ t.pkt? h = some q ∧ q.stage = .retired ∧
      q.retireNo = some (s.reg Ix.keeperRetireNumber (k + 1)) ∧ q.retiredAt = s.raw ∧ q.decided = true ∧ q.returned = true ∧
      t.reg Ix.keeperRetireNumber (k + 1) = s.reg Ix.keeperRetireNumber (k + 1) + 1) ∧
    (p.failed = true → p.charges = [] → ∃ t : State, exec (.retire k) s = .next t ∧
      (∀ q, t.pkt? h = some q → q.stage = .retired ∧ q.retireNo = some (s.reg Ix.keeperRetireNumber (k + 1))) ∧
      t.reg Ix.keeperRetireNumber (k + 1) = s.reg Ix.keeperRetireNumber (k + 1) + 1 ∧
      t.reg Ix.keeperVoidRetires (k + 1) = (s.reg Ix.keeperVoidRetires (k + 1) + 1) % 18446744073709551616)) ∧
  (∀ (s : State) (k h n : Nat) (p : Packet) (r : Result), s.sectorPresent k = true → s.running 48 = true →
      s.nextCommit k = some (h, p) → s.pkt? h = some p → p.accepted = true → p.retireNo = some n → p.result = some r → p.filterCounts = [] →
      (∀ m, (s.keeper k).lastCommit = some m → m < n) → (∀ e ∈ r.effects, ∃ i x, e = .cntAdd i x) →
    ∃ t : State, exec (.commit k) s = .next t ∧
      (t.keeper k).lastCommit = some n ∧ (∀ j, j ≠ k → t.keeper j = s.keeper j) ∧
      (∀ i, t.counter i = (r.effects.foldl (fun a e => match e with
        | .cntAdd j x => if recKey Ix.counter 0 j = recKey Ix.counter 0 i then (a + x) % 18446744073709551616 else a
        | _ => a) (s.counter i))) ∧
      t.rg = s.rg ∧ t.tb = s.tb ∧ t.eg = s.eg) ∧
  (∀ (s : State) (k h n m : Nat) (p : Packet), s.sectorPresent k = true → s.running 48 = true →
      s.nextCommit k = some (h, p) → p.accepted = true → p.retireNo = some n → (s.keeper k).lastCommit = some m → n ≤ m →
    exec (.commit k) s =
      .next (((s.count Ix.commitDuplicateCount (k + 1) 1).modPkt h fun q => { q with committed := true }).reap h)) ∧
  (∀ (s : State) (k q n cells : Nat) (frame : List Byte) (p : Packet), k < 16 → s.running 48 = true →
      n = (tgetD s.fr.postcards k {}).records.length → 0 < n →
      s.reg Ix.postcardFlush 0 * 65536000 ≤ s.since (tgetD s.fr.postcards k {}).first → q = s.reg Ix.postcardDest (k + 1) →
      frame = leBytes 12 (s.reg Ix.postcardMac 0) ++ beBytes 2 (s.reg Ix.postcardEthertype 0) ++ [1#8] ++ leBytes 1 n ++
        (tgetD s.fr.postcards k {}).records.flatten →
      cells = (frame.length + 4 + 255) / 256 → p = s.ownPacket frame (s.lowestFree cells) q →
    (s.queuePresent q = true → s.reg Ix.postcardEthertype 0 ≠ 0 → s.enqueueDrop p ⟨q, false, false⟩ = none → s.admits q cells false = true →
        s.releasesAtOnce q = false →
      ∃ (t : State) (c : QCopy), exec (.postcardFlush k) s = .next t ∧
        t.pkt? s.fr.nextPkt = some p ∧ t.fr.nextPkt = s.fr.nextPkt + 1 ∧ t.queue q = s.queue q ++ [c] ∧
        c.pkt = s.fr.nextPkt ∧ c.index = 0 ∧ c.spec = ⟨q, false, false⟩ ∧ c.seq = s.reg Ix.queueEnqueueSeq (q + 1) ∧
        tgetD t.fr.postcards k {} = {} ∧
        t.reg Ix.postcardSent (k + 1) = (s.reg Ix.postcardSent (k + 1) + n) % 18446744073709551616) ∧
    (s.queuePresent q = false ∨ s.reg Ix.postcardEthertype 0 = 0 →
      ∃ t : State, exec (.postcardFlush k) s = .next t ∧ tgetD t.fr.postcards k {} = {} ∧
        t.reg Ix.postcardDropped (k + 1) = (s.reg Ix.postcardDropped (k + 1) + n) % 18446744073709551616 ∧
        s.regsBut t [dictKey Ix.postcardDropped (k + 1)] ∧
        t = { s with dict := t.dict, fr := { s.fr with postcards := t.fr.postcards } }))

/-- R85, R93 to R96, R192: a parity error fences its awl, which is counted and named in the fence map, and its handle goes back to the
head of the rig queue; a watchdog expiry is counted, counts a fault of the handle and sends it back, or at the fault limit gives it to
its keeper as a program drop, counted; an error in a program store fences its rig, which then runs no packet. -/
def Obligations.AwlAndRigFaults : Prop :=
  (∀ (s : State) (w r h : Nat) (p : Packet), s.sectorPresent (w / 256) = true → r = w / 256 → s.running (State.rigIsland r) = true →
      (s.awl w).fenced = false → (s.awl w).pkt = some h → s.pkt? h = some p →
      s.reg Ix.awlsFenced (r + 1) + 1 < s.reg Ix.rigFenceLimit (r + 1) →
    ∃ t : State, exec (.awlParityError w) s = .next t ∧
      t.awl w = { fenced := true } ∧ (∀ v, v ≠ w → t.awl v = s.awl v) ∧
      t.reg Ix.awlParityFaults (r + 1) = (s.reg Ix.awlParityFaults (r + 1) + 1) % 18446744073709551616 ∧
      t.reg Ix.awlsFenced (r + 1) = s.reg Ix.awlsFenced (r + 1) + 1 ∧
      t.reg Ix.awlFenceMap (r + 1) = setBit (s.reg Ix.awlFenceMap (r + 1)) (w % 256) ∧
      t.reg Ix.handlesRedispatched (r + 1) = (s.reg Ix.handlesRedispatched (r + 1) + 1) % 18446744073709551616 ∧
      t.rigQueue r = h :: s.rigQueue r ∧
      t.pkt? h = some { p with stage := .rigQueue r, redispatched := true, faultParts := p.faultParts ++ [State.partAwl w] } ∧
      (∀ i, i ≠ h → t.pkt? i = s.pkt? i)) ∧
  (∀ (s : State) (w h : Nat) (p : Packet), s.sectorPresent (w / 256) = true → s.watchdogLimit w < (s.awl w).cycles →
      (s.awl w).pkt = some h → s.pkt? h = some p → s.sectorPresent p.home = true →
    ∃ t : State, exec (.awlWatchdogExpiry w) s = .next t ∧
      t.awl w = { restart := some s.rawTotal } ∧ (∀ v, v ≠ w → t.awl v = s.awl v) ∧
      t.reg Ix.awlWatchdogFaults (w / 256 + 1) = (s.reg Ix.awlWatchdogFaults (w / 256 + 1) + 1) % 18446744073709551616 ∧
      (p.faults + 1 < s.reg Ix.handleFaultLimit 0 →
        t.rigQueue (w / 256) = h :: s.rigQueue (w / 256) ∧
        t.pkt? h = some { p with
          faults := p.faults + 1, stage := .rigQueue (w / 256), redispatched := true
          faultParts := p.faultParts ++ [State.partAwl w] }) ∧
      (s.reg Ix.handleFaultLimit 0 ≤ p.faults + 1 →
        (∃ q r, t.pkt? h = some q ∧ q.stage = .atKeeper ∧ q.faults = p.faults + 1 ∧ q.result = some r ∧ r.copies = [] ∧
          r.effects = [] ∧ r.outcome = 2) ∧
        t.reg Ix.packetPoisonCount (p.home + 1) = (s.reg Ix.packetPoisonCount (p.home + 1) + 1) % 18446744073709551616)) ∧
  (∀ (s : State) (r : Nat), s.sectorPresent r = true → s.running (State.rigIsland r) = true → s.reg Ix.rigAutoReset (r + 1) = 0 →
    ∃ t : State, exec (.programStoreError r) s = .next t ∧
      t.islandState (State.rigIsland r) = 5 ∧
      t.reg Ix.rigFenceCount (r + 1) = min (s.reg Ix.rigFenceCount (r + 1) + 1) 0xFFFFFFFF ∧
      (∀ e ∈ t.rg.awls, e.1 / 256 = r → e.2.pkt = none))

/-! ### Chapter 4: tables and programs -/

/-- R113 to R115: a dictionary insert enters or updates its key, above its key bits ignored, while the table has room; a delete removes it;
a sweep that is due removes and counts the unmarked entries that may age and clears every mark but those of the same raw time. -/
def Obligations.ExactMatchTable : Prop :=
  (∀ (s : State) (t key data : Nat) (record : List Byte), t < 64 → record.length = 32 → record = leBytes 16 key ++ leBytes 8 data ++ leBytes 8 0 →
      key < 2 ^ 128 → data < 2 ^ 64 → s.inReset 49 = false → s.xmBits t ≠ 0 →
      s.xmFind t key ≠ none ∨ (s.xmTable t).entries.length < s.reg Ix.xmCapacity (t + 1) →
    ∃ u : State, exec (.xmInsert t record) s = .next u ∧ u.answer.abort = 0 ∧
      u.xmFind t key = some ⟨data, s.reg Ix.xmAgeTime (t + 1) != 0, s.rawTotal⟩ ∧
      (∀ k, s.xmKey t k ≠ s.xmKey t key → u.xmFind t k = s.xmFind t k) ∧
      (∀ j, j ≠ t → u.xmTable j = s.xmTable j) ∧ (∀ ix b, u.reg ix b = s.reg ix b)) ∧
  (∀ (s : State) (t key data : Nat) (record : List Byte), t < 64 → record = leBytes 16 key ++ leBytes 8 data ++ leBytes 8 1 →
      key < 2 ^ 128 → data < 2 ^ 64 → s.inReset 49 = false →
    ∃ u : State, exec (.xmDelete t record) s = .next u ∧ u.answer.abort = 0 ∧
      u.xmFind t key = none ∧ (∀ k, s.xmKey t k ≠ s.xmKey t key → u.xmFind t k = s.xmFind t k) ∧
      (∀ j, j ≠ t → u.xmTable j = s.xmTable j) ∧ (∀ ix b, u.reg ix b = s.reg ix b)) ∧
  (∀ (s : State) (t : Nat), t < 64 → 0 < s.reg Ix.xmAgeTime (t + 1) →
      (s.xmTable t).t0 + s.reg Ix.xmAgeTime (t + 1) * 65536000000000 ≤ s.rawTotal →
    ∃ u : State, exec (.xmAgeSweep t) s = .next u ∧
      (u.xmTable t).entries = ((s.xmTable t).entries.filter fun e => e.2.marked || bit e.2.data 63).map
        (fun e => (e.1, { e.2 with marked := e.2.marked && decide (e.2.wroteAt = s.rawTotal) })) ∧
      (u.xmTable t).t0 = (s.xmTable t).t0 + s.reg Ix.xmAgeTime (t + 1) * 65536000000000 ∧
      u.reg Ix.xmAged (t + 1) = (s.reg Ix.xmAged (t + 1) + ((s.xmTable t).entries.filter fun e =>
        !(e.2.marked || bit e.2.data 63)).length) % 18446744073709551616 ∧
      (∀ j, j ≠ t → u.xmTable j = s.xmTable j) ∧ s.regsBut u [dictKey Ix.xmAged (t + 1)])

/-- R128, R172: a load copies the staged image and verifies it, the default bridge is taken with its methods, and the check ends with
the program pending or rejected; a request while verifying or switching aborts with "busy". -/
def Obligations.ProgramLoading : Prop :=
  (∀ s : State, s.reg Ix.programStatus 0 ≠ 1 → s.reg Ix.programStatus 0 ≠ 3 →
    ∃ t : State, exec .programLoad s = .next t ∧ t.answer.abort = 0 ∧ t.reg Ix.programStatus 0 = 1 ∧
      t.rg.progs.checking = some (s.tableBytes Ix.programStage
        (max (min (leNat ((s.tableBytes Ix.programStage 12).drop 8)) 147456) 64)) ∧ t.rg.progs.checkingDefault = none ∧
      s.regsBut t [dictKey Ix.programStatus 0]) ∧
  (∀ s : State, s.reg Ix.programStatus 0 ≠ 1 → s.reg Ix.programStatus 0 ≠ 3 →
    ∃ t : State, exec .programDefault s = .next t ∧ t.answer.abort = 0 ∧ t.reg Ix.programStatus 0 = 1 ∧
      t.rg.progs.checking = none ∧ t.rg.progs.checkingDefault = some (s.reg Ix.streamIdMethods 0) ∧
      s.regsBut t [dictKey Ix.programStatus 0]) ∧
  (∀ s : State, s.reg Ix.programStatus 0 = 1 ∨ s.reg Ix.programStatus 0 = 3 →
    exec .programLoad s = .next (s.reply { abort := 0x0401 }) ∧ exec .programDefault s = .next (s.reply { abort := 0x0401 })) ∧
  (∀ (s : State) (im : List Byte), s.rg.progs.checking = some im → s.imageFault im = none →
    ∃ t : State, exec .programCheckDone s = .next t ∧ t.reg Ix.programStatus 0 = 2 ∧
      t.reg Ix.programPendingDigest 0 = leNat (slice im 32 32) ∧
      t.rg.progs = { s.rg.progs with pending := some (State.programOfImage im), checking := none, checkingDefault := none } ∧
      s.regsBut t [dictKey Ix.programStatus 0, dictKey Ix.programPendingDigest 0]) ∧
  (∀ (s : State) (im : List Byte) (cause off : Nat), s.rg.progs.checking = some im → s.imageFault im = some (cause, off) →
    ∃ t : State, exec .programCheckDone s = .next t ∧ t.reg Ix.programStatus 0 = 4 ∧ t.reg Ix.programRejectCause 0 = cause ∧
      t.reg Ix.programRejectAt 0 = off ∧ t.reg Ix.programPendingDigest 0 = 0 ∧ t.rg.progs.pending = none ∧
      s.regsBut t [dictKey Ix.programStatus 0, dictKey Ix.programPendingDigest 0, dictKey Ix.programRejectCause 0,
        dictKey Ix.programRejectAt 0])

/-! ### Chapter 5: egress -/

/-- R136, R137, R49, R50, R60, R151: where pre-emption is not active and nothing is in transmission, the head copy of the highest class
that is eligible starts, whatever the lower classes hold, and where its frame lies in no bad cell it is then in transmission, charged
its length or, cut through, the port maximum. A copy that may end leaves the wire with its FCS, complemented where it was stomped, in
one counter. -/
def Obligations.TxSelection : Prop :=
  (∀ (s u : State) (p c : Nat) (launch : Raw) (pipe : Int) (found : List CellFinding) (d : QCopy) (k : Packet),
      s.portPresent p = true → s.portUp p = true → s.awake p = true →
      u = (List.range 8).foldl (fun t c => t.noteDeferral p c) ((s.sendReplies p).dropBadHeads p) →
      u.preemptActive p = false → u.txCopy? p = none → u.txCopy? (512 + p) = none → c < 8 →
      u.eligible p c = true → (u.expressClass p c = true ∨ (u.gate p).hold = false) →
      (∀ e, c < e → e < 8 → u.eligible p e = false) → u.headOf (8 * p + c) = some (d, k) →
    exec (.txSelect p launch pipe found) s = .next (u.startCopy p p (8 * p + c) d k (s.txTimestamp p launch pipe) found) ∧
    (found = [] → u.badCellOf d.pkt = none →
      ∃ (t : State) (x : TxCopy), exec (.txSelect p launch pipe found) s = .next t ∧ t.txCopy? p = some x ∧
        x.copy = d ∧ x.queue = 8 * p + c ∧ x.started = u.raw ∧ x.ts = s.txTimestamp p launch pipe ∧ x.stomp = false ∧
        x.preempted = false ∧ x.cutThrough = !k.accepted ∧
        x.charged = (if k.accepted then k.copyLen d.spec else max (k.copyLen d.spec) (u.reg Ix.portMaxFrame (k.src + 1))))) ∧
  (∀ (s : State) (p : Nat) (pre : Bool) (x : TxCopy) (k : Packet) (data : List Byte), s.portPresent p = true →
      s.txCopy? (State.macKey p pre) = some x → s.pkt? x.copy.pkt = some k → s.mayEnd x = true →
      data = (if x.stomp then (x.bytes ++ k.tail).take (x.cutAt.getD (x.bytes ++ k.tail).length) else x.bytes ++ k.tail) →
    ∃ t : State, exec (.copyTxEnd p pre) s = .next t ∧
      t.txCopy? (State.macKey p pre) = none ∧
      (x.stomp = false → tget t.fr.wire p = some ⟨data ++ fcsOf data, false, x.ts⟩ ∧
        t.reg Ix.txFrames (p + 1) = (s.reg Ix.txFrames (p + 1) + 1) % 18446744073709551616) ∧
      (x.stomp = true → tget t.fr.wire p = some ⟨data ++ complementBytes (fcsOf data), true, x.ts⟩ ∧
        t.reg Ix.txStomped (p + 1) = (s.reg Ix.txStomped (p + 1) + 1) % 18446744073709551616))

/-- R139, R141, R142, R145, R150, R157, R158, R165: an entry that falls due gives the gate its states; a change time makes the pending
schedule oper; hold is asserted ahead of its entry and counted; a stream gate changes, and reopens at once, or, its island in reset,
with the next strobe; a sleeping port wakes ahead of a
wake class. -/
def Obligations.GateSchedules : Prop :=
  (∀ (s : State) (p : Nat), s.portPresent p = true → s.running (State.portIsland p) = true → s.entryDue p = true →
    ∃ t : State, exec (.gateEntryChange p) s = .next t ∧
      (t.gate p).states = ((s.plan p).view (s.gateNs p)).states ∧
      (t.gate p).occurrence = ((s.plan p).view (s.gateNs p)).occurrence ∧
      (t.gate p).oper = (s.gate p).oper ∧ (t.gate p).pending = (s.gate p).pending ∧
      (∀ k, k ≠ p → t.gate k = s.gate k) ∧
      s.regsBut t [dictKey Ix.pmacHoldState (p + 1), dictKey Ix.pmacHoldCount (p + 1), dictKey Ix.gateOverrunCount (p + 1)] ∧
      t = { s with dict := t.dict, eg := t.eg, fr := { s.fr with tx := t.fr.tx } }) ∧
  (∀ (s : State) (p : Nat) (x : Schedule), s.portPresent p = true → s.running (State.portIsland p) = true →
      (s.gate p).pending = some x → ((s.gate p).change : Int) * 65536 ≤ s.gateSync p x.domain →
    ∃ t : State, exec (.gateChangeTime p) s = .next t ∧
      (t.gate p).oper = some x ∧ (t.gate p).pending = none ∧ (t.gate p).changedAt = s.rawTotal ∧
      t.reg Ix.gateConfigStatus (p + 1) = 2 ∧ t.reg Ix.gateOperLength (p + 1) = x.entries.length ∧
      t.reg Ix.gateOperCycleTime (p + 1) = x.cycle ∧ t.reg Ix.gateOperBaseTime (p + 1) = time80 ((x.base : Int) * 65536) ∧
      t.reg Ix.gateConfigChangeCount (p + 1) = min (s.reg Ix.gateConfigChangeCount (p + 1) + 1) 0xFFFFFFFF ∧
      s.regsBut t [dictKey Ix.gateConfigStatus (p + 1), dictKey Ix.gateOperLength (p + 1), dictKey Ix.gateOperCycleTime (p + 1),
        dictKey Ix.gateOperBaseTime (p + 1), dictKey Ix.gateConfigChangeCount (p + 1), dictKey Ix.pmacHoldState (p + 1),
        dictKey Ix.pmacHoldCount (p + 1), dictKey Ix.gateOverrunCount (p + 1)]) ∧
  (∀ (s : State) (p : Nat) (d : Int), s.portPresent p = true → s.running (State.portIsland p) = true → (s.gate p).hold = false →
      s.gateEnabled p = true → s.holdAhead p = some d → s.txCopy? (512 + p) = none →
    ∃ t : State, exec (.pmacHoldAssert p) s = .next t ∧
      (t.gate p).hold = true ∧ t.reg Ix.pmacHoldState (p + 1) = 1 ∧
      t.reg Ix.pmacHoldCount (p + 1) = (s.reg Ix.pmacHoldCount (p + 1) + 1) % 18446744073709551616 ∧
      s.regsBut t [dictKey Ix.pmacHoldState (p + 1), dictKey Ix.pmacHoldCount (p + 1)] ∧
      t = { s with dict := t.dict, eg := { s.eg with gates := t.eg.gates } }) ∧
  (∀ (s : State) (g : Nat), s.streamGatePresent g = true → s.running (gateIsland (512 + g)) = true → s.changeDue (512 + g) = false →
      s.entryDue (512 + g) = true →
    ∃ t : State, exec (.streamGateEntryChange g) s = .next t ∧
      (t.gate (512 + g)).states = ((s.plan (512 + g)).view (s.gateNs (512 + g))).states ∧
      (∀ k, k ≠ 512 + g → t.gate k = s.gate k) ∧
      t = { s with eg := { s.eg with gates := t.eg.gates } }) ∧
  (∀ (s : State) (g : Nat), s.streamGatePresent g = true → s.inReset (gateIsland (512 + g)) = true →
      (s.island (gateIsland (512 + g))).pend.length < 256 →
    ∃ t : State, exec (.streamGateReopen g) s = .next t ∧ t.answer = {} ∧ t.gate (512 + g) = s.gate (512 + g) ∧
      (∃ w ∈ (t.island (gateIsland (512 + g))).pend, w.idx = Ix.streamGateReopen ∧ w.sub = g + 1) ∧
      t = { s with isl := { s.isl with islands := t.isl.islands }, answer := {} }) ∧
  (∀ (s : State) (g : Nat), s.streamGatePresent g = true → s.inReset (gateIsland (512 + g)) = false →
    ∃ t : State, exec (.streamGateReopen g) s = .next t ∧
      t.gate (512 + g) = { s.gate (512 + g) with latchClosed := false, latchOctets := false } ∧
      (∀ k, k ≠ 512 + g → t.gate k = s.gate k) ∧
      t = { s with eg := { s.eg with gates := t.eg.gates }, answer := {} }) ∧
  (∀ (s : State) (p : Nat), s.portPresent p = true → s.gateWakeDue p = true → (s.portLink p).asleep = true →
    ∃ t : State, exec (.gateWake p) s = .next t ∧
      t.reg Ix.portTxWakes (p + 1) = (s.reg Ix.portTxWakes (p + 1) + 1) % 18446744073709551616 ∧
      (t.portLink p).asleep = false ∧
      (t.portLink p).wakeDone = some (s.rawTotal + wakeNs (s.reg Ix.portMode (p + 1)) * 65536))

/-- R162 to R164, R169: a sample, at a multiple of its period, counts in its window, a window ends with its last sample and is kept, and a write of a sampling
parameter ends the present window, out of its range changing nothing. -/
def Obligations.QueueSampling : Prop :=
  (∀ s : State, s.running 48 = true → s.reg Ix.queueSamplePeriod 0 ≠ 0 →
      s.fr.sampling.last.toNat / (s.reg Ix.queueSamplePeriod 0 * 65536) ≠ s.raw.toNat / (s.reg Ix.queueSamplePeriod 0 * 65536) →
      s.fr.sampling.samples + 1 < s.reg Ix.queueSampleWindow 0 →
    ∃ t : State, exec .queueSample s = .next t ∧
      t.fr.sampling.samples = s.fr.sampling.samples + 1 ∧ t.fr.sampling.last = s.raw ∧
      t.fr.sampling.endNumber = s.fr.sampling.endNumber ∧ t.fr.sampling.endQueues = s.fr.sampling.endQueues ∧
      t = { s with fr := { s.fr with sampling := t.fr.sampling } }) ∧
  (∀ s : State, s.running 48 = true → s.reg Ix.queueSamplePeriod 0 ≠ 0 →
      s.fr.sampling.last.toNat / (s.reg Ix.queueSamplePeriod 0 * 65536) ≠ s.raw.toNat / (s.reg Ix.queueSamplePeriod 0 * 65536) →
      s.reg Ix.queueSampleWindow 0 ≤ s.fr.sampling.samples + 1 →
    ∃ t : State, exec .queueSample s = .next t ∧
      t.fr.sampling.samples = 0 ∧ t.fr.sampling.number = s.fr.sampling.number + 1 ∧ t.fr.sampling.ended = true ∧
      t.fr.sampling.endNumber = s.fr.sampling.number ∧ t.fr.sampling.endSamples = s.fr.sampling.samples + 1 ∧
      t.fr.sampling.endLast = s.raw ∧ t.fr.sampling.queues = []) ∧
  (∀ (s : State) (which idx lo hi value : Nat), State.samplingParam which = some (idx, lo, hi) → lo ≤ value → value ≤ hi →
    ∃ t : State, exec (.queueSampleConfigWrite which value) s = .next t ∧
      t.reg idx 0 = value ∧ s.regsBut t [dictKey idx 0] ∧ t.answer.abort = 0 ∧
      t.fr.sampling.endSamples = s.fr.sampling.samples ∧ t.fr.sampling.endNumber = s.fr.sampling.number ∧
      t.fr.sampling.samples = 0) ∧
  (∀ (s : State) (which idx lo hi value : Nat), State.samplingParam which = some (idx, lo, hi) → value < lo ∨ hi < value →
    exec (.queueSampleConfigWrite which value) s = .next (s.reply { abort := 0x0301 }))

/-! ### Chapter 6: redundancy and the retaining reset -/

/-- R183, R184, R187: how a recovery function judges a frame. Without a tag it passes and is counted tagless, and nothing else changes. With
number `num`, either algorithm passes the first frame after a reset; the match algorithm eliminates only a repeat of the last number; the
vector algorithm eliminates and counts rogue and discarded numbers, and counts what is lost or out of order. Every pass is counted
and restarts the reset timer. -/
def Obligations.RecoveryAlgorithms : Prop :=
  ∀ (s t : State) (f num h last hist : Nat) (d : Int) (pass : Bool), bit (s.recoverField f 0 1) 7 = true → h = s.recoverField f 1 1 → 2 ≤ h → h ≤ 64 →
      last = s.recoverField f 16 2 → hist = s.recoverField f 20 8 → num < 65536 → d = toSigned 16 (ofSigned 16 ((num : Int) - last)) →
    let count (x : State) (i : Nat) : Nat := x.recField Ix.recoveryCounts 0 f i 8
    (s.judgeRecovery f none = (t, pass) →
      pass = true ∧ count t 40 = (count s 40 + 1) % 18446744073709551616 ∧ (∀ i ∈ [0, 8, 16, 24, 32, 48, 56], count t i = count s i) ∧
        t.recovery f = s.recovery f ∧ s.recsBut t [recKey Ix.recoveryCounts 0 f] ∧ t = { s with tabs := t.tabs }) ∧
    (s.judgeRecovery f (some num) = (t, pass) →
      (pass = true → count t 0 = (count s 0 + 1) % 18446744073709551616 ∧
        t.recovery f = { s.recovery f with timerRunning := s.recoverField f 4 2 != 0, lastPass := s.rawTotal }) ∧
      (pass = false → count t 0 = count s 0 ∧ t.recovery f = s.recovery f ∧ t.recoverField f 16 2 = last ∧ t.recoverField f 20 8 = hist ∧
        t.recoverField f 18 1 = s.recoverField f 18 1) ∧
      count t 40 = count s 40 ∧ count t 48 = count s 48 ∧ count t 56 = count s 56 ∧
      (bit (s.recoverField f 18 1) 0 = true → pass = true ∧ t.recoverField f 18 1 = 0 ∧ t.recoverField f 16 2 = num ∧
        (bit (s.recoverField f 0 1) 0 = false → t.recoverField f 20 8 = 18446744073709551615) ∧
        (∀ i ∈ [8, 16, 24, 32], count t i = count s i)) ∧
      (bit (s.recoverField f 0 1) 0 = true → bit (s.recoverField f 18 1) 0 = false →
        (num = last → pass = false ∧ count t 8 = (count s 8 + 1) % 18446744073709551616 ∧ count t 16 = count s 16) ∧
        (num ≠ last → pass = true ∧ t.recoverField f 16 2 = num ∧ t.recoverField f 18 1 = s.recoverField f 18 1 ∧ count t 8 = count s 8 ∧
          count t 16 = (if d = 1 then count s 16 else (count s 16 + 1) % 18446744073709551616)) ∧
        count t 24 = count s 24 ∧ count t 32 = count s 32) ∧
      (bit (s.recoverField f 0 1) 0 = false → bit (s.recoverField f 18 1) 0 = false →
        ((h : Int) ≤ d ∨ d ≤ -(h : Int) → pass = false ∧ count t 24 = (count s 24 + 1) % 18446744073709551616 ∧
          (∀ i ∈ [8, 16, 32], count t i = count s i)) ∧
        (-(h : Int) < d → d ≤ 0 → bit hist (-d).toNat = true →
          pass = false ∧ count t 8 = (count s 8 + 1) % 18446744073709551616 ∧ (∀ i ∈ [16, 24, 32], count t i = count s i)) ∧
        (-(h : Int) < d → d ≤ 0 → bit hist (-d).toNat = false →
          pass = true ∧ t.recoverField f 20 8 = setBit hist (-d).toNat ∧ t.recoverField f 16 2 = last ∧
          count t 16 = (count s 16 + 1) % 18446744073709551616 ∧ (∀ i ∈ [8, 24, 32], count t i = count s i)) ∧
        (0 < d → d < (h : Int) →
          pass = true ∧ t.recoverField f 16 2 = num ∧ t.recoverField f 20 8 = setBit (hist * 2 ^ d.toNat % 18446744073709551616) 0 ∧
          count t 32 = (count s 32 + ((List.range d.toNat).filter fun k => !bit hist (h - d.toNat + k)).length) % 18446744073709551616 ∧
          count t 16 = (if d = 1 then count s 16 else (count s 16 + 1) % 18446744073709551616) ∧
          (∀ i ∈ [8, 24], count t i = count s i))) ∧
      s.recsBut t [recKey Ix.recoveryCounts 0 f, recKey Ix.recoveryFunc 0 f] ∧ t = { s with tabs := t.tabs, tb := t.tb })

/-- R180, R185, R188, R189: a recovery timer that runs out and a write of a number reset a valid function; written records of recovery and
generation take effect within their conditions; latent tests and latent resets
fall due, a test before a reset that falls due with it, and a test over its threshold is counted and logged. -/
def Obligations.RecoveryRecords : Prop :=
  (∀ (s : State) (f : Nat), f < 262144 → s.recoveryValid f = true → (s.recovery f).timerRunning = true → s.recoverField f 4 2 ≠ 0 →
      s.recoverField f 4 2 * 65536000000 ≤ s.since (s.recovery f).lastPass →
    ∃ t : State, exec (.recoveryTimerExpiry f) s = .next t ∧
      t.recoverField f 18 1 = 1 ∧ t.recoverField f 20 8 = 0 ∧ t.recoverField f 16 2 = 0 ∧ (t.recovery f).timerRunning = false ∧
      t.recoverField f 0 16 = s.recoverField f 0 16 ∧
      s.recsBut t [recKey Ix.recoveryFunc 0 f, recKey Ix.recoveryCounts 0 f] ∧ t = { s with tabs := t.tabs, tb := t.tb }) ∧
  (∀ (s : State) (f : Nat), f < 262144 → s.recoveryValid f = true →
    ∃ t : State, exec (.recoveryReset f) s = .next t ∧ t.answer = {} ∧
      t.recoverField f 18 1 = 1 ∧ t.recoverField f 20 8 = 0 ∧ t.recoverField f 16 2 = 0 ∧ (t.recovery f).timerRunning = false ∧
      t.recoverField f 0 16 = s.recoverField f 0 16 ∧
      t.recField Ix.recoveryCounts 0 f 48 8 = (s.recField Ix.recoveryCounts 0 f 48 8 + 1) % 18446744073709551616 ∧
      s.recsBut t [recKey Ix.recoveryFunc 0 f, recKey Ix.recoveryCounts 0 f] ∧
      t = { s with tabs := t.tabs, tb := t.tb, answer := {} }) ∧
  (∀ (s : State) (f : Nat), f < 262144 → s.recoveryValid f = false → exec (.recoveryReset f) s = .next (s.reply {})) ∧
  (∀ (s : State) (f : Nat), 262144 ≤ f → exec (.recoveryReset f) s = .next (s.reply { abort := 0x0301 })) ∧
  (∀ (s : State) (f : Nat) (r : List Byte), f < 262144 → r.length = 32 → State.recoveryRecordOk r = true → s.inReset 50 = false →
    ∃ t : State, exec (.recoveryFuncWrite f r) s = .next t ∧ t.answer = {} ∧ t.recoverField f 0 16 = leField r 0 16 ∧
      ((s.recoveryValid f = false ∧ t.recoveryValid f = true) ∨ (s.recoveryValid f = true ∧
          (bit (s.recoverField f 0 1) 0 ≠ bit (leField r 0 1) 0 ∨ s.recoverField f 1 1 ≠ leField r 1 1)) →
        t.recoverField f 18 1 = 1 ∧ t.recoverField f 20 8 = 0 ∧ t.recoverField f 16 2 = 0 ∧ (t.recovery f).timerRunning = false) ∧
      (s.recoveryValid f = true ∧ t.recoveryValid f = true ∧
          bit (s.recoverField f 0 1) 0 = bit (leField r 0 1) 0 ∧ s.recoverField f 1 1 = leField r 1 1 →
        t.recoverField f 16 12 = s.recoverField f 16 12 ∧ (t.recovery f).timerRunning = (s.recovery f).timerRunning) ∧
      (s.latentOn f = false → t.latentOn f = true →
        t.recoverField f 28 4 = 0 ∧ (t.recovery f).testFrom = s.rawTotal ∧ (t.recovery f).resetFrom = s.rawTotal) ∧
      s.recsBut t [recKey Ix.recoveryFunc 0 f] ∧ t = { s with tabs := t.tabs, tb := t.tb, answer := {} }) ∧
  (∀ (s : State) (f : Nat) (r : List Byte), f < 262144 → r.length = 32 → State.recoveryRecordOk r = false →
    exec (.recoveryFuncWrite f r) s = .next (s.reply { abort := 0x0301 })) ∧
  (∀ (s : State) (f n : Nat), f < 262144 → n < 65536 → s.inReset 49 = false →
    ∃ t : State, exec (.seqGenWrite f (leBytes 2 n ++ leBytes 14 0)) s = .next t ∧
      t.recField Ix.seqGen 0 f 0 2 = n ∧ t.recField Ix.seqGen 0 f 8 8 = s.recField Ix.seqGen 0 f 8 8 ∧
      s.recsBut t [recKey Ix.seqGen 0 f] ∧ t = { s with tabs := t.tabs, answer := {} }) ∧
  (∀ (s : State) (f : Nat), f < 262144 → s.latentOn f = true →
      (s.recovery f).testFrom + s.recoverField f 8 4 * 65536000000 ≤ s.rawTotal →
      toSigned 32 (s.recoverField f 28 4) ≤ (s.recoverField f 6 2 : Int) →
    ∃ t : State, exec (.latentTest f) s = .next t ∧
      t.recovery f = { s.recovery f with testFrom := (s.recovery f).testFrom + s.recoverField f 8 4 * 65536000000 } ∧
      t = { s with tb := t.tb }) ∧
  (∀ (s : State) (f : Nat), f < 262144 → s.latentOn f = true →
      (s.recovery f).testFrom + s.recoverField f 8 4 * 65536000000 ≤ s.rawTotal →
      (s.recoverField f 6 2 : Int) < toSigned 32 (s.recoverField f 28 4) →
    ∃ u : State, exec (.latentTest f) s = .next (u.event Ix.recoveryCounts 3 50 [(4, f), (4, s.recoverField f 28 4)]) ∧
      u.recField Ix.recoveryCounts 0 f 56 8 = (s.recField Ix.recoveryCounts 0 f 56 8 + 1) % 18446744073709551616 ∧
      u.recovery f = { s.recovery f with testFrom := (s.recovery f).testFrom + s.recoverField f 8 4 * 65536000000 } ∧
      s.recsBut u [recKey Ix.recoveryCounts 0 f] ∧ u = { s with tabs := u.tabs, tb := u.tb }) ∧
  (∀ (s : State) (f : Nat), f < 262144 → s.latentOn f = true →
      s.rawTotal < (s.recovery f).testFrom + s.recoverField f 8 4 * 65536000000 →
      (s.recovery f).resetFrom + s.recoverField f 12 4 * 65536000000 ≤ s.rawTotal →
    ∃ t : State, exec (.latentReset f) s = .next t ∧ t.recoverField f 28 4 = 0 ∧ t.recoverField f 0 28 = s.recoverField f 0 28 ∧
      t.recovery f = { s.recovery f with
        resetFrom := (s.recovery f).resetFrom + s.recoverField f 12 4 * 65536000000 } ∧
      s.recsBut t [recKey Ix.recoveryFunc 0 f, recKey Ix.latentResetCount 0 f]) ∧
  (∀ (s : State) (f : Nat), f < 262144 → s.latentOn f = true →
      (s.recovery f).testFrom + s.recoverField f 8 4 * 65536000000 ≤ s.rawTotal →
      (s.recovery f).resetFrom + s.recoverField f 12 4 * 65536000000 ≤ s.rawTotal →
    ∃ t u : State, exec (.latentReset f) s = .next t ∧ exec (.latentTest f) s = .next u ∧ t.recoverField f 28 4 = 0 ∧
      (t.recovery f).testFrom = (u.recovery f).testFrom ∧
      t.recField Ix.recoveryCounts 0 f 56 8 = u.recField Ix.recoveryCounts 0 f 56 8 ∧
      (t.recovery f).resetFrom = (s.recovery f).resetFrom + s.recoverField f 12 4 * 65536000000)

/-- R193 to R198, R472, R473: the guarantee's cause is cleared, and its state reads whether a part is still faulted; a retaining reset,
a second one during the first too, puts every island but the meridian into RESET; before the start-up apply it runs as a device reset,
and a deeper reset absorbs it; once RSTn is high its walk ends it, counted and timed. -/
def Obligations.GuaranteeAndRetainingReset : Prop :=
  (∀ s : State, ∃ t : State, exec .guaranteeClear s = .next t ∧
      t.reg Ix.guaranteeLeftCause 0 = 0 ∧ t.reg Ix.guaranteeState 0 = (if s.isl.faultParts = [] then 0 else 1) ∧
      s.regsBut t [dictKey Ix.guaranteeLeftCause 0, dictKey Ix.guaranteeState 0] ∧ t = { s with dict := t.dict, answer := {} }) ∧
  (∀ s : State, s.sy.hold = none → s.reg Ix.startPhase 0 = 3 ∨ s.sy.retaining = true →
    ∃ t : State, exec .retainingReset s = .next t ∧ t.sy.retaining = true ∧ t.sy.resetFrom = s.rawTotal ∧
      (∀ i, s.islandPresent i = true → i ≠ 51 → t.islandState i = 1) ∧ t.mv = {} ∧ t.ho.visit = none) ∧
  (∀ s : State, s.sy.hold = none → s.reg Ix.startPhase 0 ≠ 3 → s.sy.retaining = false →
    ∃ t : State, exec .retainingReset s = .next t ∧ t.sy.hold = some .request ∧ t.sy.retaining = false ∧ t.raw = s.raw ∧
      t.pending = s.pending ∧ t.isl = State.reset.isl ∧ t.fr = State.reset.fr ∧ t.rg = State.reset.rg ∧ t.eg = State.reset.eg ∧
      t.tabs = State.reset.tabs ∧ t.ho = { State.reset.ho with perst := s.ho.perst }) ∧
  (∀ (s : State) (h : Hold), s.sy.hold = some h → exec .retainingReset s = .next s) ∧
  (∀ (s : State) (links : List (Nat × Nat)) (handles : List Nat), s.sy.retaining = true → s.sy.rstLow = false →
      s.sy.held = [] → s.sy.heldReads = [] → s.co.waiting = [] →
    ∃ t : State, exec (.recoveryWalk links handles) s = .next t ∧ t.sy.retaining = false ∧ t.sy.upSince = s.rawTotal ∧
      t.reg Ix.retainResetCount 0 = min (s.reg Ix.retainResetCount 0 + 1) 0xFFFFFFFF ∧
      t.reg Ix.walkDuration 0 = (s.rawTotal - s.sy.resetFrom) / 65536000) ∧
  (∀ (s : State) (links : List (Nat × Nat)) (handles : List Nat), s.sy.retaining = true → s.sy.rstLow = true →
    exec (.recoveryWalk links handles) s = .next s)

/-! ### Chapters 7 and 9: time, the servo, the time protocol, pins, quorum -/

/-- R204, R206: a correction re-taken at a raw time keeps the sync time of every raw time within its reach, since the remainder of its
floor is carried; PIVOT_RETAKE re-takes a domain's pivot now. -/
def Obligations.RetakeKeepsSyncTime : Prop :=
  (∀ (c : Correction) (r x : Raw), (x - c.pivot).toInt = (r - c.pivot).toInt + (x - r).toInt → (c.retake r).at x = c.at x) ∧
  (∀ (s u : State) (d : Nat), d < 4 → u = s.switchDomain d →
    ∃ t : State, exec (.pivotRetake d) s = .next t ∧ t.dom d = { u.dom d with corr := (u.dom d).corr.retake u.raw } ∧
      (∀ e, e ≠ d → t.dom e = u.dom e) ∧ t = { u with tm := { u.tm with domains := t.tm.domains } })

/-- R16: a change of a domain's correction that is effective by now is in force in every island, and the others wait. -/
def Obligations.CorrectionSwitch : Prop :=
  (∀ (s : State) (d : Nat) (r : Raw) (c : Correction) (rest : List (Raw × Correction)), d < 4 →
      (s.dom d).queue = (r, c) :: rest → 0 ≤ (s.raw - r).toInt → (∀ e ∈ rest, (s.raw - e.1).toInt < 0) →
      (∀ g, g < 16 → (s.group g).armed = none) → (∀ n, n < 32 → (s.pin n).next = none) → c.at r = (s.dom d).corr.at r →
    ∃ t : State, exec (.correctionSwitch d) s = .next t ∧ t.dom d = { s.dom d with corr := c, queue := rest } ∧
      (∀ e, e ≠ d → t.dom e = s.dom e) ∧ t = { s with tm := { s.tm with domains := t.tm.domains } }) ∧
  (∀ (s : State) (d : Nat), d < 4 → (∀ e ∈ (s.dom d).queue, (s.raw - e.1).toInt < 0) → exec (.correctionSwitch d) s = .next s)

/-- R205, R210 to R212, R235: TIME_SET and TIME_ADJUST step a domain at the next effective raw time, counted, and a servo at work
returns to ACQUIRING; TIME_SLEW replaces the remainder; TIME_RATE_SET keeps a rate within R204 and is the rate in FREE_RUN; a slew
that ends leaves the base rate; a snapshot latches raw time and the four sync times. -/
def Obligations.TimeCommands : Prop :=
  (∀ (s : State) (d v : Nat), d < 4 → v / 65536 % 4294967296 < 1000000000 →
    ∃ (t : State) (c : Correction), exec (.timeSet d v) s = .next t ∧ t.answer = {} ∧ (s.effective, c) ∈ (t.dom d).queue ∧
      c.at s.effective = ({ pivot := s.raw, sync := ofTime96 v, rem := 0, rho := (s.standing d s.effective).rho } : Correction).at
        s.effective ∧
      t.reg Ix.timeStepCount (d + 1) = (s.reg Ix.timeStepCount (d + 1) + 1) % 4294967296 ∧
      (s.domState d = 1 ∨ s.domState d = 2 → t.domState d = 1 ∧ (t.servo d).lockRun = 0 ∧ (t.servo d).missRun = 0) ∧
      (∀ e, e ≠ d → t.dom e = s.dom e)) ∧
  (∀ (s : State) (d v : Nat), d < 4 → 1000000000 ≤ v / 65536 % 4294967296 →
    exec (.timeSet d v) s = .next (s.reply { abort := 0x0301 })) ∧
  (∀ (s : State) (d : Nat) (v : Int), d < 4 →
    ∃ (t : State) (c : Correction), exec (.timeAdjust d v) s = .next t ∧ t.answer = {} ∧ (s.effective, c) ∈ (t.dom d).queue ∧
      c.at s.effective = (s.standing d s.effective).at s.effective + v ∧
      t.reg Ix.timeStepCount (d + 1) = (s.reg Ix.timeStepCount (d + 1) + 1) % 4294967296 ∧
      (s.domState d = 1 ∨ s.domState d = 2 → t.domState d = 1 ∧ (t.servo d).lockRun = 0 ∧ (t.servo d).missRun = 0) ∧
      (∀ e, e ≠ d → t.dom e = s.dom e)) ∧
  (∀ (s : State) (d : Nat) (v : Int), d < 4 →
    ∃ t : State, exec (.timeSlew d v) s = .next t ∧ (t.dom d).slew = v * 2 ^ 64 ∧ (t.dom d).slewAt = s.effective ∧
      (∃ c, (s.effective, c) ∈ (t.dom d).queue ∧ c.at s.effective = (s.standing d s.effective).at s.effective) ∧
      (∀ e, e ≠ d → t.dom e = s.dom e) ∧ s.regsBut t [dictKey Ix.timeRateClamps (d + 1)] ∧
      t = { s with dict := t.dict, tm := { s.tm with domains := t.tm.domains }, answer := {} }) ∧
  (∀ (s : State) (d : Nat) (v : Int), d < 4 → -549755813888 ≤ v → v ≤ 549755813887 → s.domState d ≠ 0 →
    ∃ t : State, exec (.timeRateSet d v) s = .next t ∧ t.reg Ix.timeRateSet (d + 1) = ofSigned 64 v ∧
      s.regsBut t [dictKey Ix.timeRateSet (d + 1)] ∧ t = { s with dict := t.dict, answer := {} }) ∧
  (∀ (s : State) (d : Nat) (v : Int), d < 4 → -549755813888 ≤ v → v ≤ 549755813887 → s.domState d = 0 →
      (s.dom d).slew = 0 → (s.dom d).part = 0 →
    ∃ (t : State) (c : Correction), exec (.timeRateSet d v) s = .next t ∧ t.reg Ix.timeRateSet (d + 1) = ofSigned 64 v ∧
      (s.effective, c) ∈ (t.dom d).queue ∧ c.rho = v ∧ c.at s.effective = (s.standing d s.effective).at s.effective ∧
      (∀ e, e ≠ d → t.dom e = s.dom e) ∧
      s.regsBut t [dictKey Ix.timeRateSet (d + 1)] ∧
      t = { s with dict := t.dict, tm := { s.tm with domains := t.tm.domains }, answer := {} }) ∧
  (∀ (s : State) (d : Nat) (v : Int), d < 4 → v < -549755813888 ∨ 549755813887 < v →
    exec (.timeRateSet d v) s = .next (s.reply { abort := 0x0301 })) ∧
  (∀ (s : State) (d : Nat), d < 4 → s.slewDone d = true →
    ∃ t : State, exec (.slewEnd d) s = .next t ∧ (t.dom d).slew = 0 ∧ (t.dom d).part = 0 ∧
      (t.corrLast d).rho = State.cutRate (t.baseRate d)) ∧
  (∀ s : State, ∃ t : State, exec .timeSnapshot s = .next t ∧
      t.reg Ix.timeSnapshotValue 0 = leNat (leBytes 8 s.raw.toNat ++ leBytes 12 (time96 (s.syncNow 0)) ++
        leBytes 12 (time96 (s.syncNow 1)) ++ leBytes 12 (time96 (s.syncNow 2)) ++ leBytes 12 (time96 (s.syncNow 3))) ∧
      s.regsBut t [dictKey Ix.timeSnapshotValue 0] ∧ t = { s with dict := t.dict, answer := {} })

/-- R212, R213, R217, R218, R223, R226, R227, R288, R291: an offset sample, offered by a ring or a pin in order or measured on the path in use,
is rejected and counted within the least time or where a timestamp is invalid, and else accepted and counted, stepping the domain
where it exceeds the step threshold; a domain that is PARTITIONED takes none; a domain without samples holds over, reports its limit and
falls silent. -/
def Obligations.ServoSteps : Prop :=
  let rejects (s t : State) (d : Nat) : Prop :=
    t.reg Ix.servoSamplesRejected (d + 1) = (s.reg Ix.servoSamplesRejected (d + 1) + 1) % 18446744073709551616 ∧
      t.reg Ix.servoSamples (d + 1) = s.reg Ix.servoSamples (d + 1) ∧ (t.dom d).corr = (s.dom d).corr ∧ (t.dom d).queue = (s.dom d).queue ∧
      (t.servo d).lastAccepted = (s.servo d).lastAccepted ∧ (t.servo d).integ = (s.servo d).integ ∧ t.domState d = s.domState d ∧
      (∀ e, e ≠ d → t.dom e = s.dom e)
  let accepts (s t : State) (d : Nat) (theta : Int) : Prop :=
    t.reg Ix.servoSamples (d + 1) = (s.reg Ix.servoSamples (d + 1) + 1) % 18446744073709551616 ∧
      (t.servo d).lastAccepted = s.rawTotal ∧ (t.servo d).hasSample = true ∧ (t.dom d).quietSince = s.rawTotal ∧
      (s.reg Ix.servoStepThreshold (d + 1) ≠ 0 → s.reg Ix.servoStepThreshold (d + 1) * 65536 < theta.natAbs →
          (s.servo d).slewLimited = false → (s.servo d).settled = false →
        t.reg Ix.servoSteps (d + 1) = min (s.reg Ix.servoSteps (d + 1) + 1) 0xFFFFFFFF ∧
          t.reg Ix.timeStepCount (d + 1) = (s.reg Ix.timeStepCount (d + 1) + 1) % 4294967296) ∧
      (∀ e, e ≠ d → t.dom e = s.dom e)
  let free (s : State) (d : Nat) : Prop :=
    ((s.servo d).hasSample = false ∨ 512000000000 ≤ s.since (s.servo d).lastAccepted) ∧ (s.servo d).settling = none ∧
      ((s.servo d).detector = false ∨ (s.servo d).settled = true)
  (∀ (s : State) (d : Nat) (theta delay : Int) (rest : List (Int × Int)), d < 4 → s.domState d ≠ 4 →
      s.reg Ix.servoSource (d + 1) = 2 ∨ s.reg Ix.servoSource (d + 1) = 3 → (s.dom d).offered = (theta, delay) :: rest →
      (s.servo d).hasSample = true → s.since (s.servo d).lastAccepted < 512000000000 →
    ∃ t : State, exec (.servoSample d .offered) s = .next t ∧ rejects s t d ∧ (t.dom d).offered = rest) ∧
  (∀ (s : State) (d : Nat) (theta delay : Int) (rest : List (Int × Int)), d < 4 → s.domState d ≠ 4 →
      s.reg Ix.servoSource (d + 1) = 2 ∨ s.reg Ix.servoSource (d + 1) = 3 → (s.dom d).offered = (theta, delay) :: rest → free s d →
    ∃ t : State, exec (.servoSample d .offered) s = .next t ∧ accepts s t d theta ∧ (t.dom d).offered = rest ∧
      t.reg Ix.servoOffset (d + 1) = ofSigned 64 theta) ∧
  (∀ (s : State) (d p : Nat) (theta delay : Int) (alt : Bool), d < 4 → s.domState d ≠ 4 → s.reg Ix.servoSource (d + 1) = 1 →
      s.reg Ix.timeRole (d + 1) = 1 → s.pathPort d alt = some p → alt = s.onAlt d → s.reg Ix.servoAltPort (d + 1) = 0xFFFF →
      s.stampsValid p d = false ∨ ((s.servo d).hasSample = true ∧ s.since (s.servo d).lastAccepted < 512000000000) →
    ∃ t : State, exec (.servoSample d (.path theta delay alt)) s = .next t ∧ rejects s t d) ∧
  (∀ (s : State) (d p : Nat) (theta delay : Int) (alt : Bool), d < 4 → s.domState d ≠ 4 → s.reg Ix.servoSource (d + 1) = 1 →
      s.reg Ix.timeRole (d + 1) = 1 → s.pathPort d alt = some p → alt = s.onAlt d → s.reg Ix.servoAltPort (d + 1) = 0xFFFF →
      s.stampsValid p d = true → free s d →
    ∃ t : State, exec (.servoSample d (.path theta delay alt)) s = .next t ∧ accepts s t d (theta - s.asymmetry p)) ∧
  (∀ (s : State) (d : Nat) (x : ServoInput), d < 4 → s.domState d = 4 → exec (.servoSample d x) s = .next s) ∧
  (∀ (s : State) (d : Nat), d < 4 → s.domState d = 1 ∨ s.domState d = 2 →
      s.reg Ix.servoHoldoverTimeout (d + 1) * 65536000000 ≤ s.since (s.dom d).quietSince →
    ∃ t : State, exec (.servoHoldoverTimeout d) s = .next t ∧ t.domState d = 3 ∧ (t.servo d).heldI = (s.servo d).integ ∧
      (t.dom d).enteredAt = s.rawTotal ∧ (∀ e, e ≠ d → t.dom e = s.dom e) ∧
      s.regsBut t [dictKey Ix.timeDomainState (d + 1), dictKey Ix.timeRateClamps (d + 1)]) ∧
  (∀ (s : State) (d : Nat), d < 4 → bit (s.reg Ix.timeFlags (d + 1)) 0 = false →
      s.reg Ix.holdoverLimit (d + 1) * 65536000000000 ≤ s.since (s.dom d).enteredAt →
      s.reg Ix.holdoverLimit (d + 1) * 65536000000000 ≤ s.since (s.dom d).quietSince →
    ∃ u : State, exec (.holdoverLimit d) s = .next (u.event Ix.holdoverLimit 1 51 []) ∧
      u.reg Ix.timeFlags (d + 1) = setBit (s.reg Ix.timeFlags (d + 1)) 0 ∧ s.regsBut u [dictKey Ix.timeFlags (d + 1)] ∧
      u = { s with dict := u.dict }) ∧
  (∀ (s : State) (d : Nat), d < 4 → s.reg Ix.silenceHoldover (d + 1) ≠ 0 → s.reg Ix.silenceThreshold (d + 1) ≠ 0 →
      s.domState d = 3 ∨ s.domState d = 4 → s.reg Ix.silenceHoldover (d + 1) * 65536000000 < s.since (s.dom d).enteredAt →
      s.reg Ix.silenceState (d + 1) = 0 →
    ∃ t : State, exec (.silenceHoldoverTimeout d) s = .next t ∧ t.reg Ix.silenceState (d + 1) = 1 ∧
      t.reg Ix.silenceCount (d + 1) = min (s.reg Ix.silenceCount (d + 1) + 1) 0xFFFFFFFF ∧ (t.dom d).returnRun = 0 ∧
      (∀ e, e ≠ d → t.dom e = s.dom e))

/-- R222, R224 to R226, R282, R285, R288: a calibration takes the port down and ends with its delays or a failure; a time message is counted and
queued for the engine, which takes the oldest first, or dropped; a master port sends Sync while quorum holds, and Announce, delay requests and roll
calls go out when they are due; a port that hears no Announce for its time forgets the clock it heard and, where no other port hears one, is
master. -/
def Obligations.TimeProtocol : Prop :=
  (∀ (s : State) (p : Nat), s.portPresent p = true → s.inReset (p / 32) = false →
    ∃ t : State, exec (.tsCalibrate p) s = .next t ∧ t.answer = {} ∧ t.reg Ix.tsCalStatus (p + 1) = 1 ∧ t.portUp p = false ∧
      (s.portLanes p = [p] → s.reg Ix.portMode (p + 1) ≠ 0 → s.reg Ix.portMode (p + 1) ≠ 8 → t.laneState p = 0)) ∧
  (∀ (s : State) (p : Nat) (delays : List (Nat × Nat)), s.portPresent p = true → s.reg Ix.tsCalStatus (p + 1) = 1 →
    ∃ t : State, exec (.tsCalibrationDone p false delays) s = .next t ∧ t.reg Ix.tsCalStatus (p + 1) = 3 ∧
      (∀ l, t.reg Ix.tsCalARx l = s.reg Ix.tsCalARx l ∧ t.reg Ix.tsCalATx l = s.reg Ix.tsCalATx l)) ∧
  (∀ (s : State) (p : Nat) (delays : List (Nat × Nat)), s.portPresent p = true → s.reg Ix.tsCalStatus (p + 1) = 1 →
    ∃ t : State, exec (.tsCalibrationDone p true delays) s = .next t ∧ t.reg Ix.tsCalStatus (p + 1) = 2 ∧
      (∀ e ∈ (s.portLanes p).zip delays, t.reg Ix.tsCalARx (e.1 + 1) = e.2.1 % 4294967296 ∧
        t.reg Ix.tsCalATx (e.1 + 1) = e.2.2 % 4294967296)) ∧
  (∀ (s : State) (p d : Nat) (frame m : List Byte) (capture : Raw) (pipe : Int) (taken : List OnWire) (delay : Option Int),
      s.portPresent p = true → s.portUp p = true → s.timeMessage p frame = some (d, m) →
      s.supervisorUp = false ∨ 1024 ≤ s.tm.waiting.length →
    ∃ t : State, exec (.timeMessageReceive p frame ⟨capture, pipe, taken⟩ delay) s = .next t ∧
      t.reg Ix.ptpRxMessages (p + 1) = (s.reg Ix.ptpRxMessages (p + 1) + 1) % 18446744073709551616 ∧
      t.reg Ix.ptpRxDropped (p + 1) = (s.reg Ix.ptpRxDropped (p + 1) + 1) % 18446744073709551616 ∧
      s.regsBut t [dictKey Ix.ptpRxMessages (p + 1), dictKey Ix.ptpRxDropped (p + 1)] ∧ t = { s with dict := t.dict }) ∧
  (∀ (s : State) (p d : Nat) (frame m : List Byte) (capture : Raw) (pipe : Int) (delay : Option Int),
      s.portPresent p = true → s.portUp p = true → s.timeMessage p frame = some (d, m) →
      s.supervisorUp = true → s.tm.waiting.length < 1024 →
    ∃ t : State, exec (.timeMessageReceive p frame ⟨capture, pipe, []⟩ delay) s = .next t ∧
      t.reg Ix.ptpRxMessages (p + 1) = (s.reg Ix.ptpRxMessages (p + 1) + 1) % 18446744073709551616 ∧
      t.tm.waiting = s.tm.waiting ++ [⟨p, d, m, s.rxTimestamp p capture pipe, s.tsInvalid p, s.rawTotal, delay⟩] ∧
      s.regsBut t [dictKey Ix.ptpRxMessages (p + 1)] ∧ t = { s with dict := t.dict, tm := t.tm }) ∧
  (∀ (s t : State) (p d : Nat) (frame m : List Byte) (capture : Raw) (pipe : Int) (taken : List OnWire) (delay : Option Int)
      (e : OnWire) (x : TimeMsg) (rest : List TimeMsg),
      s.portPresent p = true → s.portUp p = true → s.timeMessage p frame = some (d, m) →
      s.supervisorUp = true → s.tm.waiting.length < 1024 →
      exec (.timeMessageReceive p frame ⟨capture, pipe, taken⟩ delay) s = .next t → t.tm.waiting = x :: rest → t.asks x = false →
    ∃ u : State, exec (.timeMessageReceive p frame ⟨capture, pipe, taken ++ [e]⟩ delay) s = .next u ∧ u.tm.waiting = rest ∧
      (∀ v, x.delay = some v → u.regI Ix.ptpMeanLinkDelay (x.port + 1) 8 = toSigned 64 (ofSigned 64 v)) ∧
      (beField x.bytes 0 1 % 16 = 0 → (u.ptp x.port x.dom).syncLost = x.lost)) ∧
  (∀ (s : State) (p d : Nat) (launch : Raw) (pipe : Int), s.portPresent p = true → d < 4 → s.engineMay p d = true →
      s.ptpState p d = 2 → s.quorumHolds d = true → s.domState d ≠ 4 →
      s.sendDue (s.ptp p d).sentSync (s.intervalNs Ix.ptpSyncInterval p) = true →
      s.canEmit p (s.timeOpen p (s.ptpClass p)) = true →
    let m := s.syncMessages p d (s.txTimestamp p launch pipe)
    ∃ t : State, exec (.ptpSyncSend p d launch pipe) s = .next t ∧ tget t.tm.sent p = some m.1 ∧
      (t.ptp p d).sentSync = some s.rawTotal ∧ (t.ptp p d).seqSync = ((s.ptp p d).seqSync + 1) % 65536 ∧
      (m.2.2 = none → s.sentOn t p (ptpFrame s p d false true m.1 m.2.1) (s.txTimestamp p launch pipe) 1) ∧
      (∀ f, m.2.2 = some f → s.sentOn t p (ptpFrame s p d false false f f) (s.txTimestamp p launch pipe) 2)) ∧
  (∀ (s : State) (p d : Nat) (launch : Raw) (pipe : Int), s.portPresent p = true → d < 4 → s.quorumHolds d = false ∨ s.domState d = 4 →
    exec (.ptpSyncSend p d launch pipe) s = .next s) ∧
  (∀ (s : State) (p d : Nat), s.portPresent p = true → d < 4 → s.engineMay p d = true → s.ptpState p d = 2 →
      s.sendDue (s.ptp p d).sentAnnounce (s.intervalNs Ix.ptpAnnounceInterval p) = true →
      s.canEmit p (s.timeOpen p (s.ptpClass p)) = true →
    ∃ t : State, exec (.ptpAnnounceSend p d) s = .next t ∧ tget t.tm.sent p = some (s.announceMessage p d) ∧
      (t.ptp p d).sentAnnounce = some s.rawTotal ∧ (t.ptp p d).seqAnnounce = ((s.ptp p d).seqAnnounce + 1) % 65536 ∧
      s.sentOn t p (ptpFrame s p d false false (s.announceMessage p d) (s.announceMessage p d)) s.raw 1) ∧
  (∀ (s : State) (p d : Nat), s.portPresent p = true → d < 4 → s.engineMay p d = true → s.asksDelay p d = true →
      s.sendDue (s.ptp p d).sentPdelay (s.intervalNs Ix.ptpPdelayInterval p) = true →
      s.canEmit p (s.timeOpen p (s.ptpClass p)) = true →
    ∃ (t : State) (m : List Byte), exec (.ptpPdelaySend p d) s = .next t ∧ tget t.tm.sent p = some m ∧
      beField m 0 1 % 16 = (if s.reg Ix.timeProfile (d + 1) = 1 then 1 else 2) ∧
      beField m 8 8 = ofSigned 64 (-(s.asymmetry p)) ∧
      (t.ptp p d).sentPdelay = some s.rawTotal ∧ (t.ptp p d).seqPdelay = ((s.ptp p d).seqPdelay + 1) % 65536 ∧
      s.sentOn t p (ptpFrame s p d (s.reg Ix.timeProfile (d + 1) != 1) true m m) s.raw 1) ∧
  (∀ (s : State) (p d : Nat), s.portPresent p = true → d < 4 → s.engineMay p d = true → s.reg Ix.quorumEnable (d + 1) ≠ 0 →
      s.sendDue (s.ptp p d).sentAnnounce (s.reg Ix.rollPeriod (d + 1) * 1000000) = true →
      s.sendDue (s.ptp p d).sentRoll (s.reg Ix.rollPeriod (d + 1) * 1000000) = true →
      s.canEmit p (s.timeOpen p (s.ptpClass p)) = true →
    ∃ (t : State) (m : List Byte), exec (.rollCallSignaling p d) s = .next t ∧ tget t.tm.sent p = some m ∧
      beField m 0 1 % 16 = 12 ∧ m.drop 44 = s.rollTlv d ∧
      (t.ptp p d).sentRoll = some s.rawTotal ∧ s.sentOn t p (ptpFrame s p d false false m m) s.raw 1) ∧
  (∀ (s : State) (p d : Nat), s.portPresent p = true → d < 4 → s.engineMay p d = true → s.reg Ix.timeRole (d + 1) = 1 →
      s.portUp p = true → s.domState d ≠ 4 →
      3 * s.intervalNs Ix.ptpAnnounceInterval p * 65536 ≤ s.since (s.ptp p d).lastAnnounce →
      (s.ptp p d).announceSeen = true ∨ s.ptpState p d = 1 → 1 ≤ s.ptpState p d → s.ptpState p d ≤ 4 →
      (∀ q, q ≠ p → s.heardAt q d = none) →
    ∃ t : State, exec (.announceReceiptTimeout p d) s = .next t ∧ (t.ptp p d).announceSeen = false ∧ t.ptpState p d = 2)

/-- R283, R284, R286 to R288: at each period a member's roll number goes on by one and skips 0; a roll call of another configuration only
counts, and of the same one each entry that is newer is held and its member seen; a member that has not risen within its age is no longer
seen; quorum holds by weight or by the tie-break member, and its loss partitions the domain. -/
def Obligations.Quorum : Prop :=
  (∀ (s : State) (d : Nat), d < 4 → s.memberId d < 32 → 1 ≤ (s.quorum d).roll → (s.quorum d).roll ≤ 65535 →
      s.reg Ix.rollPeriod (d + 1) * 65536000000 ≤ s.since (s.quorum d).lastRoll →
    ∃ t : State, exec (.rollAdvance d) s = .next t ∧
      (t.quorum d).roll = (s.quorum d).roll % 65535 + 1 ∧ (t.quorum d).lastRoll = s.rawTotal ∧
      (t.quorum d).seen = (s.quorum d).seen ∧ (t.quorum d).held = (s.quorum d).held ∧
      (∀ e, e ≠ d → t.dom e = s.dom e) ∧ t = { s with tm := { s.tm with domains := t.tm.domains } }) ∧
  (∀ (s : State) (d : Nat) (body : List Byte), d < 4 →
      body.length < 76 ∨ beField body 0 1 ≠ 1 ∨ beField body 8 4 ≠ s.quorumDigest d →
    ∃ t : State, exec (.rollCallReceive d body) s = .next t ∧
      t.reg Ix.quorumConfigMismatch (d + 1) = (s.reg Ix.quorumConfigMismatch (d + 1) + 1) % 18446744073709551616 ∧
      s.regsBut t [dictKey Ix.quorumConfigMismatch (d + 1)] ∧ t = { s with dict := t.dict }) ∧
  (∀ (s : State) (d : Nat) (body : List Byte), d < 4 → 76 ≤ body.length → beField body 0 1 = 1 →
      beField body 8 4 = s.quorumDigest d →
    ∃ t : State, exec (.rollCallReceive d body) s = .next t ∧
      (∀ n, n < 32 → n ≠ s.memberId d → beField body (12 + 2 * n) 2 ≠ 0 → s.newerRoll d n (beField body (12 + 2 * n) 2) = true →
        n ∈ (t.quorum d).seen ∧ tgetD (t.quorum d).held n 0 = beField body (12 + 2 * n) 2 ∧ tgetD (t.quorum d).rises n 0 = s.rawTotal) ∧
      (∀ n, n < 32 → n = s.memberId d ∨ beField body (12 + 2 * n) 2 = 0 ∨ s.newerRoll d n (beField body (12 + 2 * n) 2) = false →
        (n ∈ (t.quorum d).seen ↔ n ∈ (s.quorum d).seen) ∧ tgetD (t.quorum d).held n 0 = tgetD (s.quorum d).held n 0 ∧
          tgetD (t.quorum d).rises n 0 = tgetD (s.quorum d).rises n 0) ∧
      (∀ e, e ≠ d → t.dom e = s.dom e)) ∧
  (∀ (s u : State) (d m : Nat), d < 4 → m < 32 → m ∈ (s.quorum d).seen →
      s.reg Ix.quorumAge (d + 1) * 65536000000 ≤ s.since (tgetD (s.quorum d).rises m 0) →
      u = s.setQuorum d { s.quorum d with seen := (s.quorum d).seen.filter (· != m) } →
    ∃ t : State, exec (.memberAgeOut d m) s = .next t ∧ (t.quorum d).seen = (s.quorum d).seen.filter (· != m) ∧
      t.reg Ix.quorumSeenWeight (d + 1) = u.seenWeight d ∧ t.reg Ix.quorumSeenMap (d + 1) = u.seenMap d ∧
      t.reg Ix.quorumState (d + 1) = (if s.reg Ix.quorumEnable (d + 1) = 0 then 0 else if u.quorumHolds d then 1 else 2) ∧
      (u.quorumHolds d = false → t.domState d = 4) ∧
      (u.quorumHolds d = false → s.reg Ix.quorumState (d + 1) = 1 →
        t.reg Ix.quorumLosses (d + 1) = min (s.reg Ix.quorumLosses (d + 1) + 1) 0xFFFFFFFF) ∧
      (∀ e, e ≠ d → t.dom e = s.dom e)) ∧
  (∀ (s : State) (d : Nat), s.quorumHolds d = true ↔ (s.reg Ix.quorumEnable (d + 1) = 0 ∨ s.totalWeight d < 2 * s.seenWeight d ∨
      (2 * s.seenWeight d = s.totalWeight d ∧ s.tiebreak d < 32 ∧ s.sees d (s.tiebreak d) = true))) ∧
  (∀ (s : State) (d : Nat), s.quorumHolds d = false → s.domState d ≠ 4 → s.reg Ix.quorumState (d + 1) = 1 →
    ∃ t : State, s.judgeQuorum d = t ∧ t.domState d = 4 ∧ t.reg Ix.quorumState (d + 1) = 2 ∧
      t.reg Ix.quorumSeenWeight (d + 1) = s.seenWeight d ∧ t.reg Ix.quorumSeenMap (d + 1) = s.seenMap d ∧
      t.reg Ix.quorumLosses (d + 1) = min (s.reg Ix.quorumLosses (d + 1) + 1) 0xFFFFFFFF) ∧
  (∀ (s : State) (d : Nat), d < 4 →
    (s.judgeQuorum d).reg Ix.quorumState (d + 1) =
      (if s.reg Ix.quorumEnable (d + 1) = 0 then 0 else if s.quorumHolds d then 1 else 2))

/-- R227 to R233: an edge that is due begins its pulse and sets when it ends, counted where no pulse was high, the next edge of a periodic pin
set with it, and an event pulse likewise; the trailing edge ends a pulse; a selected input edge is captured with its record, and offered to a
servo that follows the pin, or lost and counted; a read takes the oldest record, or zeros. -/
def Obligations.TimePins : Prop :=
  (∀ (s : State) (n k : Nat) (r : Int) (x : Raw), n < 32 → s.tioMode n ≠ 4 → (s.pin n).next = some (k, r) → r ≤ (s.rawTotal : Int) →
    ∃ t : State, exec (.tioEdge n x) s = .next t ∧
      t.pin n = { s.pin n with
        level := !s.inverted n, fallAt := some (BitVec.ofInt 64 r + BitVec.ofNat 64 (s.reg Ix.tioWidth (n + 1) * 4096)),
        next := if s.tioMode n = 2 then some (s.edgeAt n (k + 1)) else none } ∧
      t.reg Ix.tioStatus (n + 1) = 2 ∧
      t.reg Ix.tioEdges (n + 1) = (if (s.pin n).fallAt = none then (s.reg Ix.tioEdges (n + 1) + 1) % 18446744073709551616
        else s.reg Ix.tioEdges (n + 1)) ∧
      (∀ m, m ≠ n → t.pin m = s.pin m) ∧ s.regsBut t [dictKey Ix.tioStatus (n + 1), dictKey Ix.tioEdges (n + 1)] ∧
      t = { s with dict := t.dict, tm := { s.tm with pins := t.tm.pins } }) ∧
  (∀ (s : State) (n k : Nat) (r : Int) (x : Raw), n < 32 → s.tioMode n ≠ 4 → (s.pin n).next = some (k, r) → (s.rawTotal : Int) < r →
    exec (.tioEdge n x) s = .next s) ∧
  (∀ (s : State) (n : Nat) (x : Raw), n < 32 → s.tioMode n = 4 → s.pinEventAt n x = true → 0 ≤ s.dueBy x →
    ∃ t : State, exec (.tioEdge n x) s = .next t ∧
      t.pin n = { s.pin n with
        level := !s.inverted n,
        fallAt := some (pinGrid (x - BitVec.ofInt 64 (psToRu (s.regI Ix.tioOutDelay (n + 1) 4))) +
          BitVec.ofNat 64 (s.reg Ix.tioWidth (n + 1) * 4096)), next := none } ∧
      t.reg Ix.tioStatus (n + 1) = 2 ∧
      t.reg Ix.tioEdges (n + 1) = (if (s.pin n).fallAt = none then (s.reg Ix.tioEdges (n + 1) + 1) % 18446744073709551616
        else s.reg Ix.tioEdges (n + 1)) ∧
      (∀ m, m ≠ n → t.pin m = s.pin m)) ∧
  (∀ (s : State) (n : Nat) (r : Raw), n < 32 → (s.pin n).fallAt = some r → 0 ≤ s.dueBy r →
    ∃ t : State, exec (.tioTrailingEdge n) s = .next t ∧ t.pin n = { s.pin n with level := s.inverted n, fallAt := none } ∧
      t.reg Ix.tioStatus (n + 1) = (if s.tioMode n = 1 then 3 else s.reg Ix.tioStatus (n + 1)) ∧
      (∀ m, m ≠ n → t.pin m = s.pin m) ∧ s.regsBut t [dictKey Ix.tioStatus (n + 1)]) ∧
  (∀ (s : State) (n : Nat) (x ts : Raw) (rising : Bool), n < 32 → s.captures n rising = true → ts = s.captureTime n x →
      (∀ l, (s.pin n).lastEdge = some l → 524288 ≤ (ts - l).toNat) → (s.pin n).fifo.length < 16 →
    ∃ t : State, exec (.tioCaptureEdge n x rising) s = .next t ∧
      t.pin n = { s.pin n with
        fifo := (s.pin n).fifo ++ [s.captureRecord n ts rising (s.pin n).lostFlag], lastEdge := some ts, lostFlag := false } ∧
      t.reg Ix.tioCaptureWaiting (n + 1) = (s.pin n).fifo.length + 1 ∧
      s.regsBut t [dictKey Ix.tioCaptureWaiting (n + 1)] ∧ (∀ m, m ≠ n → t.pin m = s.pin m) ∧
      (∀ d, d < 4 → (t.dom d).offered = (s.dom d).offered ++
        (if s.reg Ix.servoSource (d + 1) = 3 ∧ s.reg Ix.servoSourceSel (d + 1) = n then
          [(pulseTheta (s.syncAt d ts) (s.regI Ix.tioPpsOffset (n + 1) 4 * 65536), 0)] else []))) ∧
  (∀ (s : State) (n : Nat) (x : Raw) (rising : Bool), n < 32 → s.captures n rising = true →
      16 ≤ (s.pin n).fifo.length ∨ (∃ l, (s.pin n).lastEdge = some l ∧ (s.captureTime n x - l).toNat < 524288) →
    ∃ t : State, exec (.tioCaptureEdge n x rising) s = .next t ∧ t.pin n = { s.pin n with lostFlag := true } ∧
      t.reg Ix.tioCaptureLost (n + 1) = (s.reg Ix.tioCaptureLost (n + 1) + 1) % 18446744073709551616 ∧
      s.regsBut t [dictKey Ix.tioCaptureLost (n + 1)]) ∧
  (∀ (s : State) (n : Nat) (x : Raw) (rising : Bool), n < 32 → s.captures n rising = false →
    exec (.tioCaptureEdge n x rising) s = .next s) ∧
  (∀ (s : State) (n : Nat) (r : List Byte) (rest : List (List Byte)), n < 32 → (s.pin n).fifo = r :: rest →
    ∃ t : State, exec (.tioCaptureRead n) s = .next t ∧ t.answer = { data := r } ∧ (t.pin n).fifo = rest ∧
      t.reg Ix.tioCaptureWaiting (n + 1) = rest.length ∧ s.regsBut t [dictKey Ix.tioCaptureWaiting (n + 1)] ∧
      (∀ m, m ≠ n → t.pin m = s.pin m)) ∧
  (∀ (s : State) (n : Nat), n < 32 → (s.pin n).fifo = [] →
    exec (.tioCaptureRead n) s = .next (s.reply { data := List.replicate 24 0#8 }))

/-! ### Chapter 8: Henay rings and pairs -/

/-- R261, R263, R267, R268, R288: a master ring begins the gather of a cycle ahead of it, under the layout in force from then on, keeps the gathered
image or drops it at a bus error, sends the cycle, a null frame where no image is complete, takes each of its frames once, spoils a cycle whose
frame fails a check, and closes the oldest cycle with its image-ready record; a ring that watches only notes the frame. -/
def Obligations.RingCycles : Prop :=
  (∀ (s : State) (m k inv : Nat), m < 16 → s.ringGoesOn m = true → s.gatherCycle m = some k → s.invalidNow m = inv →
    ∃ t : State, exec (.ringGatherStart m) s = .next t ∧ t.reg Ix.henayDataInvalid (m + 1) = inv ∧
      (t.mring m).lastGather = some k ∧ (t.mring m).lost = false ∧ (t.mring m).inForce = s.layout m ∧
      (t.mring m).genInForce = (s.mring m).gen ∧ (t.mring m).keptInForce = (s.mring m).kept ∧
      (inv ≠ 2 → s.reg Ix.henayReadyMode (m + 1) = 1 → (t.mring m).gathered = some (k, none)) ∧
      (inv ≠ 2 → s.reg Ix.henayReadyMode (m + 1) ≠ 1 → (t.mring m).gathered =
        (if s.loadNat (s.reg Ix.henayReadyAddr (m + 1)) 4 = k % 4294967296 then some (k, none) else none)) ∧
      (inv = 2 → (t.mring m).gathered =
        (if s.tableLen Ix.henaySafeImage (m + 1) = sendSize (s.mring m).kept (s.layout m) then
          some (k, some ((List.range (s.tableLen Ix.henaySafeImage (m + 1))).map fun r =>
            BitVec.ofNat 8 (s.record Ix.henaySafeImage (m + 1) r)))
        else none)) ∧
      (∀ j, j ≠ m → t.mring j = s.mring j)) ∧
  (∀ (s : State) (m k : Nat), m < 16 → (s.mring m).gathered = some (k, none) →
      s.gatherOk (s.reg Ix.henayGatherBase (m + 1)) (s.reg Ix.henayGatherSize (m + 1)) Ix.henayGatherList (m + 1) = true →
    (∃ t : State, exec (.ringGatherDone m false) s = .next t ∧
      t.mring m = { s.mring m with gathered := some (k, some
        ((s.elements (s.reg Ix.henayGatherBase (m + 1)) Ix.henayGatherList (m + 1)).flatMap fun a =>
          s.load a (s.reg Ix.henayGatherSize (m + 1)))) } ∧
      (∀ j, j ≠ m → t.mring j = s.mring j) ∧ t = { s with ri := { s.ri with rings := t.ri.rings } }) ∧
    (∃ t : State, exec (.ringGatherDone m true) s = .next t ∧ t.mring m = { s.mring m with gathered := none } ∧
      (∀ j, j ≠ m → t.mring j = s.mring j) ∧ t = { s with ri := { s.ri with rings := t.ri.rings } })) ∧
  (∀ (s : State) (m k : Nat) (error : Bool), m < 16 → (s.mring m).gathered = some (k, none) →
      s.gatherOk (s.reg Ix.henayGatherBase (m + 1)) (s.reg Ix.henayGatherSize (m + 1)) Ix.henayGatherList (m + 1) = false →
    ∃ t : State, exec (.ringGatherDone m error) s = .next t ∧ t.mring m = { s.mring m with gathered := none } ∧
      (∀ j, j ≠ m → t.mring j = s.mring j)) ∧
  (∀ (s : State) (m k out : Nat) (launch launchIn : Raw) (pipe pipeIn : Int), m < 16 → s.ringGoesOn m = true → s.sendCycle m = some k →
      out = s.reg Ix.henayOutPort (m + 1) →
    ∃ (t : State) (c : RingCycle), exec (.ringCycleSend m ⟨launch, pipe⟩ ⟨launchIn, pipeIn⟩) s = .next t ∧
      (t.mring m).cycles = (s.mring m).cycles ++ [c] ∧ c.k = k ∧ c.timing = s.ringTiming m ∧ c.era = (s.mring m).era ∧ c.back = [] ∧
      c.ts0 = s.txTimestamp out launch pipe ∧
      (t.mring m).lastSent = some k ∧ (t.mring m).gathered = none ∧ (∀ j, j ≠ m → t.mring j = s.mring j) ∧
      t.reg Ix.henayCyclesSent (m + 1) = (s.reg Ix.henayCyclesSent (m + 1) + 1) % 18446744073709551616 ∧
      t.reg Ix.henayCycleCounter (m + 1) = k % 4294967296 ∧ t.reg Ix.henayMasterNode (m + 1) = s.nodeId m ∧
      t.reg Ix.henayNullSent (m + 1) = (if c.null then (s.reg Ix.henayNullSent (m + 1) + 1) % 18446744073709551616
        else s.reg Ix.henayNullSent (m + 1)) ∧
      (s.imageFor m k = none → c.null = true) ∧
      ((s.mring m).bad = false → (s.mring m).broken = false → (s.mring m).breakNext = false →
          s.tooBig [out] (s.mring m).inForce = false → s.imageFor m k ≠ none →
        c.null = false ∧ c.layout = (s.mring m).inForce ∧ c.frames = frameCount (s.mring m).inForce ∧ c.twin = false ∧
          (t.mring m).present = []) ∧
      (s.imageFor m k = none → (s.mring m).broken = false → (s.mring m).breakNext = false → out < 512 → s.portUp out = true →
        let ref := k % 4294967296 % s.reg Ix.henayRefDivider (m + 1) == 0
        s.sentOn t out (s.nullFrame m out k (1 + 2 * ofBool ref + 16 * ofBool (s.reg Ix.henayDataInvalid (m + 1) != 0))
          (if ref then some (s.syncAt (s.ringTiming m).dom (s.txTimestamp out launch pipe)) else none))
          (s.txTimestamp out launch pipe) 1)) ∧
  (∀ (s : State) (m p : Nat) (onOut twin : Bool) (frame : List Byte) (capture : Raw) (pipe : Int) (h : CycleHead) (c : RingCycle), m < 16 →
      p = (if onOut then s.reg Ix.henayOutPort (m + 1) else s.reg Ix.henayInPort (m + 1)) →
      cycleHead (s.reg Ix.henayEthertype 0) frame = some h → h.ring = s.reg Ix.henayRingId (m + 1) → s.running 54 = true →
      s.sy.retaining = false → s.isMaster m = true → h.node = s.nodeId m → isStartClaim h frame = false →
      60 ≤ frame.length → frame.length + 4 ≤ s.reg Ix.portMaxFrame (p + 1) →
      (s.mring m).cycles.find? (fun c => c.k % 4294967296 == h.counter) = some c → h.version = 1 → h.index < c.frames →
      s.syncNow c.timing.dom < c.timing.start (c.k + 1) → twin = bit h.flags 3 → (h.index, twin) ∉ c.back →
      (s.reg Ix.henayTopology (m + 1) = 0 ∧ (onOut = false ∨ (s.mring m).broken = true)) ∨
        (s.reg Ix.henayTopology (m + 1) ≠ 0 ∧ onOut = true) →
      (∀ d ∈ (s.mring m).cycles, d.k + 2 ≠ c.k) →
    ∃ (t : State) (d : RingCycle), exec (.ringFrameReturn m onOut frame .good capture pipe) s = .next t ∧ d ∈ (t.mring m).cycles ∧
      d.k = c.k ∧ d.era = c.era ∧ d.back = c.back ++ [(h.index, twin)] ∧ d.lastRx = some (s.rxTimestamp p capture pipe) ∧
      d.slots = (if c.null then c else State.commitFrame c h.index (h.datagrams frame) frame twin).slots ∧ (t.mring m).mode = 2) ∧
  (∀ (s : State) (m p : Nat) (onOut : Bool) (frame : List Byte) (capture : Raw) (pipe : Int) (h : CycleHead) (c : RingCycle), m < 16 →
      p = (if onOut then s.reg Ix.henayOutPort (m + 1) else s.reg Ix.henayInPort (m + 1)) → p < 512 →
      cycleHead (s.reg Ix.henayEthertype 0) frame = some h → h.ring = s.reg Ix.henayRingId (m + 1) → s.running 54 = true →
      s.sy.retaining = false → s.isMaster m = true → h.node = s.nodeId m → isStartClaim h frame = false →
      60 ≤ frame.length → frame.length + 4 ≤ s.reg Ix.portMaxFrame (p + 1) →
      (s.mring m).cycles.find? (fun c => c.k % 4294967296 == h.counter) = some c →
    ∃ t : State, exec (.ringFrameReturn m onOut frame .badFcs capture pipe) s = .next t ∧
      t.reg Ix.henayRxDiscarded (m + 1) = (s.reg Ix.henayRxDiscarded (m + 1) + 1) % 18446744073709551616 ∧
      t.reg Ix.rxFcsError (p + 1) = (s.reg Ix.rxFcsError (p + 1) + 1) % 18446744073709551616 ∧
      (t.mring m).cycles = (s.mring m).cycles.map (fun d => if d.k = c.k ∧ d.era = c.era then { c with spoiled := true } else d)) ∧
  (∀ (s : State) (m p : Nat) (onOut : Bool) (frame : List Byte) (capture : Raw) (pipe : Int) (h : CycleHead), m < 16 →
      p = (if onOut then s.reg Ix.henayOutPort (m + 1) else s.reg Ix.henayInPort (m + 1)) →
      cycleHead (s.reg Ix.henayEthertype 0) frame = some h → h.ring = s.reg Ix.henayRingId (m + 1) → s.running 54 = true →
      s.sy.retaining = false → (s.mring m).mode = 5 ∨ (s.mring m).mode = 6 →
      60 ≤ frame.length → frame.length + 4 ≤ s.reg Ix.portMaxFrame (p + 1) →
    ∃ t : State, exec (.ringFrameReturn m onOut frame .good capture pipe) s = .next t ∧ (t.mring m).listenFrom = s.rawTotal ∧
      (t.mring m).mode = (s.mring m).mode ∧ (t.mring m).cycles = (s.mring m).cycles) ∧
  (∀ (s : State) (m at_ : Nat) (c d : RingCycle) (rest : List RingCycle), m < 16 → (s.mring m).cycles = c :: rest →
      State.RingCycle.allBack c = true ∨ c.timing.start (c.k + 1) ≤ s.syncNow c.timing.dom → d = (s.judgeRest m c).2 →
      at_ = s.reg Ix.henayStatusBase (m + 1) + c.k % s.reg Ix.henayStatusSlots (m + 1) *
        ((32 + 4 * s.reg Ix.henayLayoutCount (m + 1) + 63) / 64 * 64) →
    ∃ t : State, exec (.ringCycleClose m) s = .next t ∧
      (t.mring m).cycles = (s.mring m).cycles.filter (fun e => e.k != c.k || e.era != c.era) ∧
      (t.mring m).recordNo = (if (s.mring m).recordNo = 0xFFFFFFFF then 1 else (s.mring m).recordNo + 1) ∧
      t.reg Ix.henayRxMissing (m + 1) = (s.reg Ix.henayRxMissing (m + 1) +
        ((List.range c.frames).filter fun f => !State.RingCycle.frameBack c f).length) % 18446744073709551616 ∧
      t.reg Ix.henayReceiptMismatch (m + 1) =
        (s.reg Ix.henayReceiptMismatch (m + 1) + State.RingCycle.differing c) % 18446744073709551616 ∧
      (isLpddr at_ = false → s.writeOk at_ 32 = true →
        t.load at_ 32 = State.readyRecord d (s.mring m).broken (t.mring m).recordNo))

/-- R245 to R249, R254, R256, R260, R262: a cycle frame that reaches a serving pair is served on its first passage, its delay added up, and
forwarded out of the other port; a later passage is forwarded as it is, and a frame that fails its check ends stomped; a datagram written in its area
adds the node's weight, one out of its area is not ready; inputs are sampled and gathered, and outputs latched with a status record, once a cycle. -/
def Obligations.RingPairs : Prop :=
  (∀ (s : State) (k inp out cyc : Nat) (frame : List Byte) (capture launch : Raw) (rxPipe txPipe : Int) (h : CycleHead) (v : Service), k < 256 →
      cycleHead (s.reg Ix.henayEthertype 0) frame = some h → s.pairServes k = true →
      inp = s.reg Ix.henayPtPortA (k + 1) → out = s.reg Ix.henayPtPortB (k + 1) → inp < 512 → out < 512 → inp ≠ out →
      s.portUp inp = true → s.portUp out = true → h.ring = s.reg Ix.henayPtRingId (k + 1) →
      60 ≤ frame.length → frame.length + 4 ≤ s.reg Ix.portMaxFrame (inp + 1) → h.version = 1 →
      (s.pairTiming k).cycleOf h.counter (s.syncAt (s.pairTiming k).dom (s.rxTimestamp inp capture rxPipe)) = some cyc →
      isStartClaim h frame = false → (cyc, h.index) ∉ (s.ptPair k).seen → s.regI Ix.henayPtLinkDelayA (k + 1) 4 ≠ -2147483648 →
      v = (h.datagrams frame).foldl (serveDatagram (s.serving k cyc (decide ((s.pairTiming k).start cyc + (s.pairTiming k).output * 65536 ≤
        s.syncAt (s.pairTiming k).dom (s.rxTimestamp inp capture rxPipe))))) { w := frame } →
    ∃ t : State, exec (.cycleFramePass k true frame .good capture rxPipe launch txPipe) s = .next t ∧
      (t.ptPair k).seen = (s.ptPair k).seen ++ [(cyc, h.index)] ∧ (t.ptPair k).served = true ∧
      t.reg Ix.henayPtFrames (k + 1) = (s.reg Ix.henayPtFrames (k + 1) + 1) % 18446744073709551616 ∧
      t.reg Ix.henayPtServed (k + 1) = (s.reg Ix.henayPtServed (k + 1) + v.served) % 18446744073709551616 ∧
      t.reg Ix.henayPtNotReady (k + 1) = (s.reg Ix.henayPtNotReady (k + 1) + v.notReady) % 18446744073709551616 ∧
      s.sentOn t out (patch v.w (h.at_ + 24) (beBytes 8 (ofSigned 64 (h.accum + psToRu (s.regI Ix.henayPtLinkDelayA (k + 1) 4) +
        (s.txTimestamp out launch txPipe - s.rxTimestamp inp capture rxPipe).toInt)))) (s.txTimestamp out launch txPipe) 1) ∧
  (∀ (s : State) (k inp out cyc : Nat) (frame : List Byte) (capture launch : Raw) (rxPipe txPipe : Int) (h : CycleHead), k < 256 →
      cycleHead (s.reg Ix.henayEthertype 0) frame = some h → s.pairServes k = true →
      inp = s.reg Ix.henayPtPortA (k + 1) → out = s.reg Ix.henayPtPortB (k + 1) → inp < 512 → out < 512 → inp ≠ out →
      s.portUp inp = true → s.portUp out = true → h.ring = s.reg Ix.henayPtRingId (k + 1) →
      60 ≤ frame.length → frame.length + 4 ≤ s.reg Ix.portMaxFrame (inp + 1) → h.version = 1 →
      (s.pairTiming k).cycleOf h.counter (s.syncAt (s.pairTiming k).dom (s.rxTimestamp inp capture rxPipe)) = some cyc →
      (cyc, h.index) ∈ (s.ptPair k).seen ∨ isStartClaim h frame = true →
    (∃ t : State, exec (.cycleFramePass k true frame .good capture rxPipe launch txPipe) s = .next t ∧
      s.sentOn t out frame (s.txTimestamp out launch txPipe) 1 ∧ t.reg Ix.henayPtFrames (k + 1) = s.reg Ix.henayPtFrames (k + 1) ∧
      t.reg Ix.henayPtServed (k + 1) = s.reg Ix.henayPtServed (k + 1)) ∧
    (∃ t : State, exec (.cycleFramePass k true frame .badFcs capture rxPipe launch txPipe) s = .next t ∧
      t.reg Ix.rxFcsError (inp + 1) = (s.reg Ix.rxFcsError (inp + 1) + 1) % 18446744073709551616 ∧
      t.reg Ix.txStomped (out + 1) = (s.reg Ix.txStomped (out + 1) + 1) % 18446744073709551616 ∧
      (tgetD t.fr.wire out {}).stomped = true)) ∧
  (∀ (c : Serving) (v : Service) (g : Datagram), g.addr = c.addr → 1 ≤ g.addr → g.addr ≤ 0x400 → g.cmd = 2 → c.late = false →
    (g.offset + g.len ≤ c.outSize → serveDatagram c v g = { v with
      owned := some g.slot, served := v.served + 1, writes := v.writes ++ [(g.offset, slice v.w (g.at_ + 12) g.len)],
      w := patch v.w (g.at_ + 8) (beBytes 2 ((g.receipt + g.addr) % 65536)) }) ∧
    (c.outSize < g.offset + g.len → serveDatagram c v g = { v with
      owned := some g.slot, notReady := v.notReady + 1, rangeErrors := v.rangeErrors + 1,
      w := patch v.w (g.at_ + 6) [BitVec.ofNat 8 (setBit (beField v.w (g.at_ + 6) 1) 4)] })) ∧
  (∀ (s : State) (k cyc : Nat), k < 256 → s.pairServes k = true → s.pairCycle k (s.pairTiming k).input = cyc →
      (s.ptPair k).sampled ≠ some cyc →
    ∃ t : State, exec (.ptInputSample k) s = .next t ∧
      t.ptPair k = { s.ptPair k with
        sampled := some cyc, inputs := (s.ptPair k).inputs.drop ((s.ptPair k).inputs.length - 1) ++ [(cyc, none)] } ∧
      (∀ j, j ≠ k → t.ptPair j = s.ptPair j) ∧ t = { s with ri := { s.ri with pairs := t.ri.pairs } }) ∧
  (∀ (s : State) (k cyc : Nat), k < 256 → (s.ptPair k).inputs.find? (fun e => e.2.isNone) = some (cyc, none) →
    ∃ t : State, exec (.ptGatherDone k) s = .next t ∧
      t.ptPair k = { s.ptPair k with inputs := (s.ptPair k).inputs.map fun e => if e.1 = cyc then (cyc, some
        (((s.elements (s.reg Ix.henayPtGatherBase (k + 1)) Ix.henayPtGatherList (k + 1)).flatMap fun a =>
          s.load a (s.reg Ix.henayPtGatherSize (k + 1))).take (s.ptInSize k))) else e } ∧
      (∀ j, j ≠ k → t.ptPair j = s.ptPair j) ∧ t = { s with ri := { s.ri with pairs := t.ri.pairs } }) ∧
  (∀ (s : State) (k cyc addr : Nat), k < 256 → s.pairServes k = true → s.pairCycle k (s.pairTiming k).output = cyc →
      (s.ptPair k).latched ≠ some cyc → addr = s.reg Ix.henayPtStatusAddr (k + 1) →
    ∃ t : State, exec (.ptOutputLatch k) s = .next t ∧ (t.ptPair k).latched = some cyc ∧
      (∀ j, j ≠ k → t.ptPair j = s.ptPair j) ∧
      (addr ≠ 0 → isLpddr addr = false → s.writeOk addr 16 = true →
        t.load addr 16 = State.ptStatus (s.ptPair k) cyc ((s.ptPair k).cur.k == cyc && (s.ptPair k).cur.stored)
          (s.raw + BitVec.ofInt 64 (s.rawDelta (s.pairTiming k).dom ((s.pairTiming k).start cyc + (s.pairTiming k).output * 65536))))) ∧
  (∀ (s : State) (k cyc : Nat), k < 256 → s.pairCycle k (s.pairTiming k).output = cyc → (s.ptPair k).latched = some cyc →
    exec (.ptOutputLatch k) s = .next s)

/-- R275 to R281: a ring that stands by claims after its listen time; a claim goes out at the start of a slot and its return counts, the last one
starting the ring; a claimant yields to a vector that is not lower; a yielded node backs off, and claims unless it saw a frame; missing references
end in a takeover, and of two masters the one whose vector is not higher stands by once no cycle of its own is in flight. -/
def Obligations.RingMastership : Prop :=
  (∀ (s : State) (m : Nat), m < 16 → s.standsBy m = true → (s.mring m).yieldTo = none → (s.mring m).backoff = none →
      s.listenTime m ≤ s.since (s.mring m).listenFrom → s.reg Ix.henayColdStart (m + 1) ≠ 0 →
    ∃ t : State, exec (.listenTimeout m) s = .next t ∧ (t.mring m).mode = 6 ∧ (t.mring m).claimRun = 0 ∧
      (t.mring m).claimOut = false ∧ (t.mring m).slotAt = none ∧ (∀ j, j ≠ m → t.mring j = s.mring j)) ∧
  (∀ (s : State) (m n : Nat), m < 16 → s.claims m = true →
      (∀ r, (s.mring m).slotAt = some r → s.reg Ix.henayCycleTime (m + 1) * 65536 ≤ s.since r) →
      n = ((s.mring m).attempt + 1) % 4294967296 →
    ∃ t : State, exec (.claimSlot m) s = .next t ∧
      t.mring m = { s.mring m with
        attempt := n, claimOut := true, slotAt := some s.rawTotal,
        claimRun := if (s.mring m).claimOut then 0 else (s.mring m).claimRun } ∧
      (∀ p, p = s.reg Ix.henayOutPort (m + 1) → p < 512 → s.portUp p = true →
          s.reg Ix.henayTopology (m + 1) ≠ 0 ∨ p ≠ s.reg Ix.henayInPort (m + 1) ∧ s.reg Ix.henayInPort (m + 1) < 512 →
        s.sentOn t p (s.startClaim m p n) s.raw 1) ∧
      (∀ p, p = s.reg Ix.henayInPort (m + 1) → p < 512 → s.portUp p = true → s.reg Ix.henayTopology (m + 1) = 0 →
          p ≠ s.reg Ix.henayOutPort (m + 1) → s.reg Ix.henayOutPort (m + 1) < 512 →
        s.sentOn t p (s.startClaim m p n) s.raw 1)) ∧
  (∀ (s : State) (m : Nat) (onOut : Bool) (frame r : List Byte) (h : CycleHead), m < 16 → s.ringHead m frame = some h → s.claims m = true →
      isStartClaim h frame = true → h.node = s.nodeId m → (s.mring m).claimOut = true → controlRecord h frame 2 = some r →
      beField r 8 4 = (s.mring m).attempt → s.reg Ix.henayTopology (m + 1) ≠ 1 ∨ onOut = true → 60 ≤ frame.length →
      frame.length + 4 ≤ s.reg Ix.portMaxFrame ((if onOut then s.reg Ix.henayOutPort (m + 1) else s.reg Ix.henayInPort (m + 1)) + 1) →
    ∃ t : State, exec (.startClaimReturn m onOut frame .good) s = .next t ∧ (∀ j, j ≠ m → t.mring j = s.mring j) ∧
      ((s.mring m).claimRun + 1 < s.reg Ix.henayClaimCycles (m + 1) →
        t.mring m = { s.mring m with claimOut := false, claimRun := (s.mring m).claimRun + 1 }) ∧
      (s.reg Ix.henayClaimCycles (m + 1) ≤ (s.mring m).claimRun + 1 →
        (t.mring m).mode = 1 ∧ (t.mring m).claimRun = 0 ∧ (t.mring m).first = s.firstCycle m (s.syncNow (s.ringTiming m).dom) ∧
          (t.mring m).lastSent = none)) ∧
  (∀ (s : State) (m : Nat) (frame : List Byte) (h : CycleHead), m < 16 → s.ringHead m frame = some h → s.claims m = true →
      (s.vectors m h frame).1 ≤ (s.vectors m h frame).2 →
    ∃ t : State, exec (.startClaimReceived m frame) s = .next t ∧ (t.mring m).mode = 5 ∧
      (t.mring m).yieldTo = some (h.node, s.rawTotal) ∧
      t.reg Ix.henayYields (m + 1) = (s.reg Ix.henayYields (m + 1) + 1) % 18446744073709551616) ∧
  (∀ (s : State) (m : Nat) (frame : List Byte) (h : CycleHead), m < 16 → s.ringHead m frame = some h →
      s.standsBy m = true ∨ s.claims m = true ∧ (s.vectors m h frame).2 < (s.vectors m h frame).1 →
    ∃ t : State, exec (.startClaimReceived m frame) s = .next t ∧ (t.mring m).mode = (s.mring m).mode ∧
      (t.mring m).listenFrom = s.rawTotal ∧ t.reg Ix.henayYields (m + 1) = s.reg Ix.henayYields (m + 1)) ∧
  (∀ (s : State) (m n : Nat) (r : Stamp), m < 16 → s.standsBy m = true → (s.mring m).yieldTo = some (n, r) → s.listenTime m ≤ s.since r →
    ∃ (t : State) (b : Nat), exec (.yieldTimeout m) s = .next t ∧ b < 16 ∧
      t.mring m = { s.mring m with
        yieldTo := none, backoff := some (s.rawTotal + b * s.reg Ix.henayCycleTime (m + 1) * 65536, false) } ∧
      t.reg Ix.henayBackoffs (m + 1) = (s.reg Ix.henayBackoffs (m + 1) + 1) % 18446744073709551616 ∧
      s.regsBut t [dictKey Ix.henayBackoffs (m + 1)]) ∧
  (∀ (s : State) (m : Nat) (stop : Stamp), m < 16 → s.standsBy m = true → (s.mring m).backoff = some (stop, true) →
      stop ≤ s.rawTotal →
    ∃ t : State, exec (.backoffEnd m) s = .next t ∧ (t.mring m).backoff = none ∧ (t.mring m).listenFrom = s.rawTotal ∧
      (t.mring m).mode = (s.mring m).mode) ∧
  (∀ (s : State) (m : Nat) (stop : Stamp), m < 16 → s.standsBy m = true → (s.mring m).backoff = some (stop, false) →
      stop ≤ s.rawTotal →
    ∃ t : State, exec (.backoffEnd m) s = .next t ∧ (t.mring m).backoff = none ∧ (t.mring m).mode = 6) ∧
  (∀ (s : State) (m k : Nat), m < 16 → s.standsBy m = true → s.watchCycle m = k → (s.mring m).judged ≠ some k →
      k % 4294967296 % s.reg Ix.henayRefDivider (m + 1) = 0 →
    ∃ t : State, exec (.referenceWatch m) s = .next t ∧ (∀ j, j ≠ m → t.mring j = s.mring j) ∧
      ((s.mring m).refSeen = some (k % 4294967296) → t.mring m = { s.mring m with judged := some k, missRun := 0 }) ∧
      ((s.mring m).refSeen ≠ some (k % 4294967296) → (s.mring m).missRun + 1 < s.takeoverRun m →
        t.mring m = { s.mring m with judged := some k, missRun := (s.mring m).missRun + 1 }) ∧
      ((s.mring m).refSeen ≠ some (k % 4294967296) → s.takeoverRun m ≤ (s.mring m).missRun + 1 →
        (t.mring m).mode = 1 ∧ (t.mring m).missRun = 0 ∧
          t.reg Ix.henayTakeovers (m + 1) = (s.reg Ix.henayTakeovers (m + 1) + 1) % 18446744073709551616)) ∧
  (∀ (s : State) (m : Nat) (frame : List Byte) (h : CycleHead), m < 16 → s.ringHead m frame = some h → s.ringCycles m = true →
      (s.mring m).leaving = false →
      h.node ≠ s.nodeId m → isStartClaim h frame = false → (s.vectors m h frame).1 ≤ (s.vectors m h frame).2 →
    ∃ t : State, exec (.duelFrameReceived m frame) s = .next t ∧ t.reg Ix.henayMasterNode (m + 1) = h.node ∧
      t.reg Ix.henayYields (m + 1) = (s.reg Ix.henayYields (m + 1) + 1) % 18446744073709551616 ∧
      (t.mring m).cycles = (s.mring m).cycles ∧
      ((s.mring m).cycles = [] → (t.mring m).mode = 5) ∧
      ((s.mring m).cycles ≠ [] → (t.mring m).leaving = true ∧ (t.mring m).mode = (s.mring m).mode))

/-! ### Chapter 10: the host interface -/

/-- R296, R299, R322 to R325, R467, R469: function-level reset and PERSTn reset the host island; the link trains to one of its widths and rates,
enters a low-power state from L0 and returns to it, a message held for L0 going with it; power and enable bits take what is written, and with them
pending and held messages go; PME is sent while its status is clear. -/
def Obligations.HostLinkAndPower : Prop :=
  (∀ s : State, s.ho.perst = false → s.hostOn = true →
    ∃ t : State, exec .functionLevelReset s = .next t ∧ (∀ c, t.channel c = {}) ∧ (∀ r, (t.cring r).backlog = []) ∧ t.ho.vecs = [] ∧
      t.ho.d3hot = false ∧ t.ho.busMaster = false ∧ t.ho.msixEnable = false ∧ t.ho.functionMask = false ∧ t.ho.pmeEnable = false ∧
      t.ho.pmeStatus = false ∧ t.ho.link = s.ho.link ∧ t.ho.width = s.ho.width ∧ t.ho.rate = s.ho.rate ∧ (t.island 52).pend = [] ∧
      t.reg Ix.islandResetCount 53 = min (s.reg Ix.islandResetCount 53 + 1) 0xFFFFFFFF) ∧
  (∀ s : State, s.ho.perst = false → s.hostOn = true →
    ∃ t : State, exec .perstn s = .next t ∧ t.ho.perst = true ∧ t.ho.link = 0 ∧ t.ho.width = 0 ∧ t.ho.rate = 0 ∧
      t.islandState 52 = 1 ∧ t.ho.d3hot = false ∧ t.ho.busMaster = false ∧ t.ho.msixEnable = false ∧ t.ho.vecs = []) ∧
  (∀ s : State, s.ho.perst = true →
    ∃ t : State, exec .perstnRelease s = .next t ∧ t.ho = { s.ho with perst := false } ∧
      t.islandState 52 = (if s.reg Ix.startPhase 0 = 3 then 3 else if s.reg Ix.startPhase 0 = 0 then 1 else 2) ∧
      s.regsBut t [dictKey Ix.islandState 53] ∧ t = { s with dict := t.dict, ho := t.ho }) ∧
  (∀ (s : State) (width rate : Nat), s.ho.perst = false → s.hostOn = true → width ∈ [1, 2, 4, 8, 16] →
      rate ∈ [2500, 5000, 8000, 16000, 32000] →
    ∃ t : State, exec (.pcieLinkTraining width rate) s = .next t ∧
      t.ho = { s.ho with channels := t.ho.channels, width := width, rate := rate, link := 0 } ∧
      (∀ c, t.channel c = { s.channel c with level := (t.channel c).level, levelAt := (t.channel c).levelAt }) ∧
      t = { s with ho := t.ho }) ∧
  (∀ (s : State) (l : Nat), 1 ≤ l → l ≤ 3 → s.ho.width ≠ 0 → s.ho.link = 0 → s.ho.l0Wanted = false →
    exec (.aspmL1Entry l) s = .next { s with ho := { s.ho with link := l } }) ∧
  (∀ s : State, s.ho.link ≠ 0 → (∀ v, (s.vec v).held = false) →
    exec .l0Return s = .next { s with ho := { s.ho with link := 0, l0Wanted := false } }) ∧
  (∀ (s : State) (v : Nat), s.ho.link ≠ 0 → (s.vec v).held = true → s.hostPowered = true →
    ∃ t : State, exec .l0Return s = .next t ∧ t.ho.link = 0 ∧ t.ho.l0Wanted = false ∧ (t.vec v).held = false ∧
      (t.vec v).count = 0 ∧ (t.vec v).pending = s.vecMasked v ∧
      t.reg Ix.l1ExitForInterrupt 0 = (s.reg Ix.l1ExitForInterrupt 0 + 1) % 18446744073709551616) ∧
  (∀ (s u : State) (d3 bme msix fmask pmeEn : Bool), s.ho.perst = false →
      u = { s with ho := { s.ho with
        d3hot := d3, busMaster := bme, msixEnable := msix, functionMask := fmask, pmeEnable := pmeEn } } →
    ∃ t : State, exec (.powerStateChange d3 bme msix fmask pmeEn) s = .next t ∧ t.ho.d3hot = d3 ∧ t.ho.busMaster = bme ∧
      t.ho.msixEnable = msix ∧ t.ho.functionMask = fmask ∧ t.ho.pmeEnable = pmeEn ∧ t.ho.channels = s.ho.channels ∧
      (u.hostPowered = true → s.ho.link = 0 → ∀ v, v < 2048 → (s.vec v).pending = true → u.vecMasked v = false →
        (t.vec v).pending = false ∧ (t.vec v).held = false ∧ (t.vec v).count = 0 ∧
          t.reg Ix.vecMessages (v + 1) = (s.reg Ix.vecMessages (v + 1) + 1) % 18446744073709551616) ∧
      (s.hostPowered = false → u.hostPowered = true → msix = true → s.ho.link = 0 → ∀ v, v < 2048 →
          (s.vec v).held = true ∨ (s.vec v).count ≠ 0 →
        (t.vec v).held = false ∧ (t.vec v).count = 0 ∧ (t.vec v).pending = u.vecMasked v)) ∧
  (∀ s : State, s.ho.d3hot = true ∨ s.ho.busMaster = true → s.sy.retaining = false → s.ho.pmeEnable = true →
      s.ho.pmeStatus = false → s.ho.perst = false → s.reg Ix.pmeAgeThreshold 0 * 65536000 ≤ s.pendingAge →
    ∃ t : State, exec .pmeSend s = .next t ∧ t.ho = { s.ho with pmeStatus := true } ∧
      t.reg Ix.pmeSent 0 = min (s.reg Ix.pmeSent 0 + 1) 0xFFFFFFFF ∧ s.regsBut t [dictKey Ix.pmeSent 0] ∧
      t = { s with dict := t.dict, ho := t.ho }) ∧
  (∀ s : State, exec .pmeStatusClear s = .next { s with ho := { s.ho with pmeStatus := false } })

/-- R297, R301 to R308, R310, R313, R317, R319, R350: a doorbell of a channel without a cached entry waits for it, any other asks for an index-block
read or is ignored and counted, as is one that is not a whole write or names no channel or ring; descriptors are fetched in the arbiter's
turn; chains are judged and receive buffers become usable; a completion doorbell and the poll read the consumer index; the backlog drains in
order as far as there is room. -/
def Obligations.DoorbellsAndUnits : Prop :=
  (∀ (s : State) (c : Nat), s.sy.retaining = false → c < 4096 → 3 ≤ s.reg Ix.startPhase 0 → (s.channel c).entry = none →
    ∃ t : State, exec (.channelDoorbell c true) s = .next t ∧ t.channel c = { s.channel c with ringing := true } ∧
      (∀ j, j ≠ c → t.channel j = s.channel j) ∧ t = { s with ho := { s.ho with channels := t.ho.channels } }) ∧
  (∀ (s : State) (c : Nat) (e : List Byte), s.sy.retaining = false → c < 4096 → 3 ≤ s.reg Ix.startPhase 0 →
      s.chanReady c = some e →
    ∃ t : State, exec (.channelDoorbell c true) s = .next t ∧
      t.channel c = (if (s.channel c).reading then { s.channel c with again := true } else { s.channel c with reading := true }) ∧
      (∀ j, j ≠ c → t.channel j = s.channel j) ∧ t = { s with ho := { s.ho with channels := t.ho.channels } }) ∧
  (∀ (s : State) (c : Nat) (e : List Byte), s.sy.retaining = false → c < 4096 → 3 ≤ s.reg Ix.startPhase 0 →
      (s.channel c).entry = some e → (s.channel c).entryBad = true ∨ entKind e = 0 →
    ∃ t : State, exec (.channelDoorbell c true) s = .next t ∧
      t.reg Ix.doorbellIgnored 0 = (s.reg Ix.doorbellIgnored 0 + 1) % 18446744073709551616 ∧
      s.regsBut t [dictKey Ix.doorbellIgnored 0] ∧ t = { s with dict := t.dict }) ∧
  (∀ (s : State) (v : Nat) (whole : Bool), s.sy.retaining = false → whole = false ∨ 4096 ≤ v ∨ s.reg Ix.startPhase 0 < 3 →
    ∃ t : State, exec (.channelDoorbell v whole) s = .next t ∧ exec (.completionDoorbell v whole) s = .next t ∧
      t.reg Ix.doorbellIgnored 0 = (s.reg Ix.doorbellIgnored 0 + 1) % 18446744073709551616 ∧
      s.regsBut t [dictKey Ix.doorbellIgnored 0] ∧ t = { s with dict := t.dict }) ∧
  (∀ (s : State) (v : Nat), s.sy.retaining = false → 1024 ≤ v ∨ s.reg Ix.cringEnable (v + 1) = 0 →
    exec (.completionDoorbell v true) s = .next (s.count Ix.doorbellIgnored 0 1)) ∧
  (∀ (s : State) (v : Nat) (whole : Bool), s.sy.retaining = true → s.sy.held.length < 1024 →
    exec (.channelDoorbell v whole) s = .next { s with sy := { s.sy with held := s.sy.held ++ [.channelDoorbell v whole] } } ∧
    exec (.completionDoorbell v whole) s = .next { s with sy := { s.sy with held := s.sy.held ++ [.completionDoorbell v whole] } }) ∧
  (∀ (s : State) (c left n i : Nat) (e d : List Byte) (u : HUnit), s.hostPowered = true → s.arbiterPick = some (c, left) →
      s.chanReady c = some e → 1 ≤ entBurst e → i = (s.channel c).accepted →
      n = (if (s.channel c).reading then s.loadNat (entIndexBlock e) 4 else (s.channel c).producer) →
      (n + 4294967296 - (s.channel c).consumer) % 4294967296 ≤ entRingSize e → State.belowProducer (s.channel c).consumer n i = true →
      s.readOk (entIndexBlock e) 4 = true → (∀ j, s.readOk (State.descAddr e j) 32 = true) → d = s.load (State.descAddr e i) 32 →
      bit (dCtl d) 0 = true →
      (entKind e = 1 ∧ bit (dCtl d) 1 = true ∧ bit (dCtl d) 2 = true ∧ State.chainCause [(i, d)] = 0 ∧
          u = { kind := 0, first := i, descs := [(i, d)], cls := dClass d % 8, turn := s.ho.turnCount + 1 }) ∨
        (entKind e ≠ 1 ∧ State.descCause (entKind e) d = 0 ∧
          u = { kind := entKind e - 1, first := i, descs := [(i, d)], turn := s.ho.turnCount + 1 }) →
    ∃ (t : State) (us : List HUnit), exec .descriptorFetchDone s = .next t ∧ (t.channel c).units = (s.channel c).units ++ u :: us ∧
      (t.channel c).producer = n ∧ (t.channel c).reading = (s.channel c).again ∧ t.ho.visit = some (c, left) ∧
      t.ho.turnCount = s.ho.turnCount + 1 ∧ (∀ j, j ≠ c → t.channel j = s.channel j)) ∧
  (∀ (s : State) (c left n i : Nat) (e : List Byte), s.hostPowered = true → s.arbiterPick = some (c, left) →
      s.chanReady c = some e → 1 ≤ entBurst e → i = (s.channel c).accepted →
      n = (if (s.channel c).reading then s.loadNat (entIndexBlock e) 4 else (s.channel c).producer) →
      (n + 4294967296 - (s.channel c).consumer) % 4294967296 ≤ entRingSize e → State.belowProducer (s.channel c).consumer n i = true →
      s.readOk (entIndexBlock e) 4 = true → s.readOk (State.descAddr e i) 32 = true → bit (dCtl (s.load (State.descAddr e i) 32)) 0 = false →
    ∃ t : State, exec .descriptorFetchDone s = .next t ∧ (t.channel c).units = (s.channel c).units ∧ (t.channel c).accepted = i ∧
      t.reg Ix.ownMissingCount 0 = (s.reg Ix.ownMissingCount 0 + 1) % 18446744073709551616) ∧
  (∀ (s : State) (r n : Nat), s.sy.retaining = false → r < 1024 → 3 ≤ s.reg Ix.startPhase 0 → s.reg Ix.cringEnable (r + 1) ≠ 0 →
      s.hostPowered = true → n = s.loadNat (s.reg Ix.cringIndexAddr (r + 1) + 8) 4 →
      s.readOk (s.reg Ix.cringIndexAddr (r + 1) + 8) 4 = true →
      ((s.cring r).producer + 4294967296 - n) % 4294967296 ≤ s.reg Ix.cringSize (r + 1) →
    ∃ t : State, exec (.completionDoorbell r true) s = .next t ∧
      t.cring r = { s.cring r with consumer := n, lastPoll := s.rawTotal } ∧
      (∀ j, j ≠ r → t.cring j = s.cring j) ∧ t = { s with ho := { s.ho with crings := t.ho.crings } } ∧
      ((s.cring r).backlog ≠ [] → 655360000 ≤ s.since (s.cring r).lastPoll → exec (.cringPoll r) s = .next t)) ∧
  (∀ (s : State) (c : Nat) (e : List Byte) (u : HUnit), s.chanEntry c = some e →
      (s.channel c).units.find? (fun u => u.stage == .accepted) = some u → u.kind = 0 → s.hostPowered = true → s.inTurn u = true →
    ∃ t : State, exec (.transmitFrame c) s = .next t ∧ (∀ j, j ≠ c → t.channel j = s.channel j) ∧
      (u.room ≠ 0 → u.room + 4 ≤ s.reg Ix.hostPortMaxFrame (entHostPort e + 1) →
          (∀ x ∈ u.descs, s.memExists (dAddr x.2) (dLen x.2) = true) → bit (dCtl ((u.descs.head?.map Prod.snd).getD [])) 5 = false →
        t.channel c = { s.channel c with
          units := (s.channel c).units.map fun v => if v.first = u.first then { v with stage := .waiting, length := u.room } else v }) ∧
      (u.room = 0 → t.channel c = { s.channel c with
        units := (s.channel c).units.map fun v => if v.first = u.first then v.finish 3 1 else v }) ∧
      (u.room ≠ 0 → s.reg Ix.hostPortMaxFrame (entHostPort e + 1) < u.room + 4 → t.channel c = { s.channel c with
        units := (s.channel c).units.map fun v => if v.first = u.first then v.finish 3 2 else v }) ∧
      s.regsBut t [dictKey Ix.launchExpired 0] ∧ t = { s with dict := t.dict, ho := { s.ho with channels := t.ho.channels } }) ∧
  (∀ (s : State) (c : Nat) (e : List Byte) (u : HUnit), s.chanEntry c = some e →
      (s.channel c).units.find? (fun u => u.stage == .accepted) = some u → u.kind = 1 →
    ∃ t : State, exec (.receiveBuffer c) s = .next t ∧ t.channel c = { s.channel c with
        units := (s.channel c).units.map fun v => if v.first = u.first then
          (if u.room < entRxSize e then v.finish 3 6 else if s.memExists (dAddr u.last.2) u.room = false then v.finish 3 12
           else { v with stage := .usable }) else v } ∧
      (∀ j, j ≠ c → t.channel j = s.channel j) ∧ t = { s with ho := { s.ho with channels := t.ho.channels } }) ∧
  (∀ (s : State) (r k : Nat), r < 1024 → s.hostPowered = true → s.reg Ix.cringEnable (r + 1) ≠ 0 → s.reg Ix.cringSize (r + 1) < 4294967296 →
      (s.cring r).producer < 4294967296 → (s.cring r).consumer < 4294967296 →
      k = min 64 (min (s.cring r).backlog.length (s.ringRoom r)) →
    ∃ t : State, exec (.backlogDrain r) s = .next t ∧ (t.cring r).backlog = (s.cring r).backlog.drop k ∧ (t.cring r).consumer = (s.cring r).consumer ∧
      (k = 0 → t = s) ∧
      (0 < k → (t.cring r).producer = ((s.cring r).producer + k) % 4294967296 ∧
        t.reg Ix.cringRecords (r + 1) = (s.reg Ix.cringRecords (r + 1) + k) % 18446744073709551616))

/-- R310 to R314, R316, R318, R320 to R323: the highest host queue that is ready starts its delivery into the channel's descriptors; a launch
time is reached; the unit at the head leaves its channel, counted, with the index block written, after the link's return where it sleeps; a vector's
message that falls due is sent, kept pending where it is masked, or held for power or for L0; and a mask bit written keeps it or lets it go. -/
def Obligations.HostDelivery : Prop :=
  (∀ (s : State) (h c q first : Nat) (d : QCopy) (k : Packet) (us : List HUnit), h < 4 → s.hostPowered = true → c < 8 → q = 4096 + 8 * h + c →
      s.rxReady q = some (d, k, us) → (∀ e, c < e → e < 8 → s.rxReady (4096 + 8 * h + e) = none) →
      s.mayStart d.chan = true → s.reg Ix.chShadowArm (d.chan + 1) = 0 → s.hasBadCell d.pkt = false → (us.map HUnit.first).Nodup →
      first = (us.head?.map HUnit.first).getD 0 →
    ∃ (t : State) (u : HUnit), exec (.hostRxDelivery h []) s = .next t ∧ u ∈ (t.channel d.chan).units ∧ u.first = first ∧
      u.stage = .started ∧ u.copy = some d ∧ u.descs = us.flatMap HUnit.descs ∧ u.data = State.sentWindow k q d 1 s.raw ++ k.tail ∧
      u.length = u.data.length ∧ u.ts = some (k.ts, !k.tsInvalid) ∧ u.source = k.src ∧ u.cls = q % 8 ∧
      t.queue q = (s.queue q).filter (fun e => e.seq != d.seq) ∧ (∀ j, j ≠ d.chan → t.channel j = s.channel j)) ∧
  (∀ (s : State) (h d limit : Nat) (k : Packet) (target : Int), s.pkt? h = some k → k.launch = some (target, d, limit) → s.rawDelta d target ≤ 0 →
    ∃ t : State, exec (.launchTimeReached h) s = .next t ∧ t.pkt? h = some { k with launchDue := true } ∧
      (∀ i, i ≠ h → t.pkt? i = s.pkt? i) ∧ t = { s with fr := { s.fr with pkts := t.fr.pkts } }) ∧
  (∀ (s : State) (c : Nat) (e : List Byte) (u : HUnit), c < 4096 → s.mayWriteBack c = some (e, u) → s.ho.link = 0 → s.writebackOk e u = true →
    ∃ t : State, exec (.unitWriteback c) s = .next t ∧ (t.channel c).units = (s.channel c).units.drop 1 ∧
      (t.channel c).consumer = ((s.channel c).consumer + u.descs.length) % 4294967296 ∧
      (t.channel c).finished = ((s.channel c).finished + 1) % 4294967296 ∧
      t.reg Ix.chUnits (c + 1) = (s.reg Ix.chUnits (c + 1) + 1) % 18446744073709551616 ∧
      (s.recordRing e u = none → isLpddr (entIndexBlock e + 8) = false →
        t.load (entIndexBlock e + 8) 16 = leBytes 4 (t.channel c).consumer ++ leBytes 4 (s.channel c).accepted ++
          leBytes 4 (s.channel c).finished ++ leBytes 4 (s.channel c).mark) ∧
      (∀ r, s.recordRing e u = some r → (s.cring r).backlog = [] → s.ringRoom r ≠ 0 →
        (t.cring r).producer = ((s.cring r).producer + 1) % 4294967296 ∧
          t.reg Ix.cringRecords (r + 1) = (s.reg Ix.cringRecords (r + 1) + 1) % 18446744073709551616) ∧
      (∀ j, j ≠ c → t.channel j = s.channel j)) ∧
  (∀ (s : State) (c : Nat) (e : List Byte) (u : HUnit), s.mayWriteBack c = some (e, u) → s.ho.link ≠ 0 →
    exec (.unitWriteback c) s = .next { s with ho := { s.ho with l0Wanted := true } }) ∧
  (∀ (s : State) (v : Nat), v < 2048 → s.messageDue v = true →
    ∃ t : State, exec (.vectorMessage v) s = .next t ∧ (∀ w, w ≠ v → t.vec w = s.vec w) ∧
      (s.hostPowered = false → t.vec v = { s.vec v with count := 0, held := true } ∧
        t = { s with ho := { s.ho with vecs := t.ho.vecs } }) ∧
      (s.hostPowered = true → s.vecMasked v = true → t.vec v = { s.vec v with count := 0, pending := true, held := false } ∧
        t = { s with ho := { s.ho with vecs := t.ho.vecs } }) ∧
      (s.hostPowered = true → s.vecMasked v = false → s.ho.link = 0 →
        t.vec v = { s.vec v with count := 0, pending := false, held := false } ∧
          t.reg Ix.vecMessages (v + 1) = (s.reg Ix.vecMessages (v + 1) + 1) % 18446744073709551616 ∧
          s.regsBut t [dictKey Ix.vecMessages (v + 1)]) ∧
      (s.hostPowered = true → s.vecMasked v = false → s.ho.link ≠ 0 → t.vec v = { s.vec v with held := true } ∧ t.ho.l0Wanted = true)) ∧
  (∀ (s : State) (v : Nat), s.vecMasked v = true ↔ ((s.vec v).masked = true ∨ s.ho.functionMask = true ∨ s.ho.msixEnable = false)) ∧
  (∀ (s : State) (v : Nat), v < 2048 →
    ∃ t : State, exec (.vectorUnmask v true) s = .next t ∧ t.vec v = { s.vec v with masked := true } ∧
      (∀ w, w ≠ v → t.vec w = s.vec w) ∧ t = { s with ho := { s.ho with vecs := t.ho.vecs } }) ∧
  (∀ (s : State) (v : Nat), v < 2048 →
    ∃ t : State, exec (.vectorUnmask v false) s = .next t ∧ (∀ w, w ≠ v → t.vec w = s.vec w) ∧
      ((s.vec v).pending = false ∨ s.ho.functionMask = true ∨ s.ho.msixEnable = false →
        t.vec v = { s.vec v with masked := false }) ∧
      ((s.vec v).pending = true → s.ho.functionMask = false → s.ho.msixEnable = true → s.hostPowered = true → s.ho.link = 0 →
        t.vec v = { s.vec v with masked := false, count := 0, pending := false, held := false } ∧
          t.reg Ix.vecMessages (v + 1) = (s.reg Ix.vecMessages (v + 1) + 1) % 18446744073709551616))

/-! ### Chapter 11: the DMA engine -/

/-- R331 to R334: an entry is loaded while the cache has room, in the place of the least recently used one where it is full, an entry that fails its
check halting its channel, and a wait is counted once; an invalidate drops one entry or every entry, or waits for its units, and a number that
names no channel aborts. -/
def Obligations.ChannelCache : Prop :=
  let loads (s t : State) (c : Nat) (e : List Byte) : Prop :=
    (t.channel c).entry = some e ∧ (t.channel c).ringing = false ∧
      t.reg Ix.dmaCacheMisses 0 = (s.reg Ix.dmaCacheMisses 0 + 1) % 18446744073709551616 ∧
      t.reg Ix.chEpoch (c + 1) = (s.reg Ix.chEpoch (c + 1) + 1) % 4294967296 ∧
      (entValid e = false → (t.channel c).entryBad = true ∧ t.reg Ix.chHaltCause (c + 1) = 5 ∧
        t.reg Ix.doorbellIgnored 0 = (s.reg Ix.doorbellIgnored 0 + 1) % 18446744073709551616) ∧
      (entValid e = true → (t.channel c).entryBad = false ∧ (t.channel c).last = some e) ∧
      (entValid e = true → entKind e ≠ 0 → (s.channel c).last = none → s.readOk (entIndexBlock e + 8) 4 = true →
          s.reg Ix.chHaltCause (c + 1) = 0 → (s.channel c).halting = none → (s.channel c).dropping = false →
        (t.channel c).accepted = s.loadNat (entIndexBlock e + 8) 4 ∧ (t.channel c).consumer = s.loadNat (entIndexBlock e + 8) 4 ∧
          (t.channel c).reading = true)
  (∀ (s : State) (c : Nat) (e : List Byte), c < 4096 → (s.channel c).ringing = true → (s.channel c).entry = none → s.hostPowered = true →
      s.readOk (s.reg Ix.chTableBase 0 + 128 * c) 128 = true → e = s.load (s.reg Ix.chTableBase 0 + 128 * c) 128 →
    (s.cachedChannels.length < 512 →
      ∃ t : State, exec (.channelEntryLoad c) s = .next t ∧ loads s t c e ∧ (∀ j, j ≠ c → t.channel j = s.channel j)) ∧
    (512 ≤ s.cachedChannels.length → ∀ v, s.evictionChoice = some v →
      ∃ t : State, exec (.channelEntryLoad c) s = .next t ∧ loads s t c e ∧ (t.channel v).entry = none ∧
        (∀ j, j ≠ c → j ≠ v → t.channel j = s.channel j)) ∧
    (512 ≤ s.cachedChannels.length → s.evictionChoice = none → (s.channel c).counted = false →
      ∃ t : State, exec (.channelEntryLoad c) s = .next t ∧ t.channel c = { s.channel c with counted := true } ∧
        t.reg Ix.dmaCacheFull 0 = (s.reg Ix.dmaCacheFull 0 + 1) % 18446744073709551616 ∧ s.regsBut t [dictKey Ix.dmaCacheFull 0])) ∧
  (∀ (s : State) (c : Nat), c < 4096 →
    ∃ t : State, exec (.chInvalidate c) s = .next t ∧ t.answer = {} ∧ (∀ j, j ≠ c → t.channel j = s.channel j) ∧
      ((s.channel c).entry = none → t.channel c = s.channel c) ∧
      ((s.channel c).entry ≠ none → (s.channel c).units = [] → (t.channel c).entry = none ∧ (t.channel c).units = [] ∧
        (t.channel c).ringing = ((s.channel c).ringing || (s.channel c).reading || (s.channel c).more)) ∧
      ((s.channel c).entry ≠ none → (s.channel c).units ≠ [] → t.channel c = { s.channel c with dropping := true, more := false })) ∧
  (∀ s : State, ∃ t : State, exec (.chInvalidate 0xFFFF) s = .next t ∧ t.answer = {} ∧
    (∀ c, (s.channel c).units = [] → (t.channel c).entry = none) ∧
    (∀ c, (s.channel c).entry ≠ none → (s.channel c).units ≠ [] → (t.channel c).dropping = true ∧ (t.channel c).units = (s.channel c).units)) ∧
  (∀ (s : State) (v : Nat), 4096 ≤ v → v ≠ 0xFFFF → exec (.chInvalidate v) s = .next (s.reply { abort := 0x0301 }))

/-- R335 to R345: the next accepted move of the named operation starts with its chunks once it may, or ends in error; a plain copy is cut into
chunks; any other operation leaves the channel as it is; a chunk begins within the channel's limits, and the oldest one of a copy in flight
moves its bytes as it completes, the last ending the unit. -/
def Obligations.MovesAndChunks : Prop :=
  (∀ (s u : State) (c op : Nat) (e : List Byte) (x : HUnit) (i : Instr),
      (i, op) ∈ [(Instr.moveCopy c, 3), (Instr.indexGather c, 4), (Instr.indexScatter c, 5), (Instr.planeSplit c, 6),
        (Instr.planeMerge c, 7)] →
      (∃ d, s.chanEntry c = some d) → (s.channel c).units.find? (fun u => u.stage == .accepted) = some x → x.kind = 2 →
      dOp x.last.2 = op → s.mayStart c = true → s.inTurn x = true → bit (dClass x.last.2) 0 = false ∨ s.earlierDone c x.first = true →
      u = s.handOver c x.first → u.chanEntry c = some e →
    (∀ chunks, u.planMove e x.last.2 = .ok chunks →
      ∃ t : State, exec i s = .next t ∧ t.channel c = { u.channel c with
          used := s.rawTotal
          units := (u.channel c).units.map fun v => if v.first = x.first then
            { v with stage := .started, todo := chunks, meets := State.chunksMeet chunks } else v } ∧
        (∀ j, j ≠ c → t.channel j = u.channel j) ∧ t = { u with ho := { u.ho with channels := t.ho.channels } }) ∧
    (∀ cause, u.planMove e x.last.2 = .error cause →
      ∃ t : State, exec i s = .next t ∧ t.channel c = { u.channel c with
          units := (u.channel c).units.map fun v => if v.first = x.first then v.finish 3 cause else v } ∧
        t = { u with ho := { u.ho with channels := t.ho.channels } }) ∧
    (s.reg Ix.chShadowArm (c + 1) = 0 → u = s)) ∧
  (∀ (s : State) (e d : List Byte), dOp d = 3 → dLen d ≠ 0 → bit (dCtl d) 8 = false → bit (dCtl d) 9 = false →
      s.memExists (dAddr d) (dLen d) = true → s.memExists (dLaunch d) (dLen d) = true →
      rangesMeet (dAddr d) (dLen d) (dLaunch d) (dLen d) = false ∨ spaceAddr (dLaunch d) ≤ spaceAddr (dAddr d) →
    s.planMove e d = .ok ((State.chunksOf (dLen d)).map fun p => .copy (dAddr d + p.1) (dLaunch d + p.1) p.2)) ∧
  (∀ (s : State) (c op : Nat) (x : HUnit) (i : Instr),
      (i, op) ∈ [(Instr.moveCopy c, 3), (Instr.indexGather c, 4), (Instr.indexScatter c, 5), (Instr.planeSplit c, 6),
        (Instr.planeMerge c, 7)] →
      (s.channel c).units.find? (fun u => u.stage == .accepted) = some x → dOp x.last.2 ≠ op → exec i s = .next s) ∧
  (∀ (s : State) (c : Nat) (e : List Byte) (u : HUnit) (x : Xfer) (rest : List Xfer), (s.channel c).entry = some e →
      (s.channel c).units.find? (fun u => u.stage == .started && !u.todo.isEmpty) = some u → u.todo = x :: rest → s.hostPowered = true →
      s.ringsAhead = false → s.paceAllows c e = true → s.chanChunks c < entInflight e → s.stageUsed < 2048 →
    ∃ t : State, exec (.chunkBegin c) s = .next t ∧
      (t.channel c).units = (s.channel c).units.map (fun v => if v.first = u.first then
        { v with todo := rest, flying := v.flying ++ [x] } else v) ∧
      (entShare e = 1024 → (t.channel c).level = (s.channel c).level) ∧
      (entShare e ≠ 1024 → (t.channel c).level = s.paceLevel c e - (State.busBytes e u x : Int) * paceUnit ∧
        (t.channel c).levelAt = s.rawTotal) ∧
      (∀ j, j ≠ c → t.channel j = s.channel j) ∧ t = { s with ho := { s.ho with channels := t.ho.channels } }) ∧
  (∀ (s : State) (c : Nat) (e : List Byte), (s.channel c).entry = some e →
      s.ringsAhead = true ∨ s.paceAllows c e = false ∨ entInflight e ≤ s.chanChunks c ∨ 2048 ≤ s.stageUsed →
    exec (.chunkBegin c) s = .next s) ∧
  (∀ (s : State) (c first src dst n : Nat) (e : List Byte) (u : HUnit) (rest : List Xfer) (corrected : List (Nat × Nat)), c < 4096 →
      (s.channel c).entry = some e → s.unit? c first = some u → u.stage = .started → u.kind = 2 → u.copy = none →
      u.flying = .copy src dst n :: rest → s.readOk src n = true → s.writeOk dst n = true →
      corrected = [] ∨ (∃ k m, k < 8 ∧ corrected = [(k, m)]) →
    ∃ t : State, exec (.chunkDone c first corrected) s = .next t ∧ t.load dst n = s.load src n ∧
      t.reg Ix.chBytes (c + 1) = (s.reg Ix.chBytes (c + 1) + n) % 18446744073709551616 ∧
      (∀ k m, corrected = [(k, m)] → t.reg Ix.memCorrected (k + 1) = (s.reg Ix.memCorrected (k + 1) + m) % 18446744073709551616) ∧
      (u.todo ≠ [] ∨ rest ≠ [] → (t.channel c).units = (s.channel c).units.map fun v => if v.first = first then
        { v with flying := v.flying.drop 1, done := v.done + n, retries := 0 } else v) ∧
      (u.todo = [] → rest = [] → (t.channel c).units = (s.channel c).units.map fun v => if v.first = first then
        { v with done := v.done + n, retries := 0 }.finish (if u.aborted then 2 else 1) 0 else v) ∧
      (∀ j, j ≠ c → t.channel j = s.channel j))

/-- R344, R349 to R356: a failed access is repeated and counted up to the entry's retries, and then ends its unit or halts the channel; a restart
clears a halt and reads the index block again; an abort ends what has not begun, lets what is in flight end, and answers its result; a shadow is
armed or cancelled; the engine's mode changes once transfers have ended. -/
def Obligations.DmaErrorsAndControl : Prop :=
  let again (s t : State) (c : Nat) : Prop :=
    t.reg Ix.chRetries (c + 1) = (s.reg Ix.chRetries (c + 1) + 1) % 18446744073709551616 ∧ s.regsBut t [dictKey Ix.chRetries (c + 1)] ∧
      (∀ j, j ≠ c → t.channel j = s.channel j)
  let retried (s : State) (c first : Nat) : Channel := { s.channel c with
    units := (s.channel c).units.map fun v => if v.first = first then { v with retries := v.retries + 1 } else v }
  let stopped (v : HUnit) : HUnit := if v.stage = .started ∨ v.stage = .finished then v else v.finish 2 0
  (∀ (s : State) (c first : Nat) (e : List Byte) (u : HUnit), (s.channel c).entry = some e → s.unit? c first = some u → u.stage = .started →
      u.flying ≠ [] →
    (u.retries < entRetries e → ∃ t : State, exec (.busError c (.data first)) s = .next t ∧ t.channel c = retried s c first ∧ again s t c) ∧
    (entRetries e ≤ u.retries → u.copy = none → u.pkt = none → (s.channel c).halting = none → s.reg Ix.chHaltCause (c + 1) = 0 →
      ∃ t : State, exec (.busError c (.data first)) s = .next t ∧ (t.channel c).halting = some (1, u.last.1) ∧
        (t.channel c).units = ((s.channel c).units.map fun v => if v.first = first then v.finish 3 5 else v).map stopped)) ∧
  (∀ (s : State) (c : Nat) (e : List Byte), c < 4096 → (s.channel c).entry = some e → (s.channel c).reading = true ∨ (s.channel c).more = true →
    ((s.channel c).retries < entRetries e → ∃ t : State, exec (.busError c .fetch) s = .next t ∧
      t.channel c = { s.channel c with retries := (s.channel c).retries + 1 } ∧ again s t c) ∧
    (entRetries e ≤ (s.channel c).retries → (s.channel c).halting = none → s.reg Ix.chHaltCause (c + 1) = 0 →
      ∃ t : State, exec (.busError c .fetch) s = .next t ∧ (t.channel c).units = (s.channel c).units.map stopped ∧
        (t.channel c).reading = false ∧
        ((s.channel c).units ≠ [] → (t.channel c).halting = some (3, (s.channel c).accepted)) ∧
        ((s.channel c).units = [] → t.reg Ix.chHaltCause (c + 1) = 3 ∧ t.reg Ix.chHaltIndex (c + 1) = (s.channel c).accepted))) ∧
  (∀ (s : State) (c : Nat) (e : List Byte) (u : HUnit) (rest : List HUnit), (s.channel c).entry = some e → (s.channel c).units = u :: rest →
      u.stage = .finished → u.outcome = 1 → bit (dCtl u.last.2) 4 = true ∨ isLpddr (entRingBase e) = true →
    (u.retries < entRetries e → ∃ t : State, exec (.busError c .flush) s = .next t ∧ t.channel c = retried s c u.first ∧ again s t c) ∧
    (entRetries e ≤ u.retries → (s.channel c).halting = none → s.reg Ix.chHaltCause (c + 1) = 0 →
      ∃ t : State, exec (.busError c .flush) s = .next t ∧ (t.channel c).halting = some (1, u.last.1) ∧
        (t.channel c).units = ((s.channel c).units.map fun v => if v.first = u.first then v.finish 3 5 else v).map stopped)) ∧
  (∀ (s : State) (c : Nat) (e : List Byte) (u : HUnit) (rest : List HUnit), c < 4096 → (s.channel c).entry = some e →
      (s.channel c).units = u :: rest → u.stage = .finished → s.hostPowered = true →
    (u.retries < entRetries e → ∃ t : State, exec (.busError c .writeBack) s = .next t ∧ t.channel c = retried s c u.first ∧ again s t c) ∧
    (entRetries e ≤ u.retries → (s.channel c).halting = none → s.reg Ix.chHaltCause (c + 1) = 0 →
      ∃ t : State, exec (.busError c .writeBack) s = .next t ∧ (t.channel c).units = rest.map stopped ∧
        t.reg Ix.chUnits (c + 1) = (s.reg Ix.chUnits (c + 1) + 1) % 18446744073709551616 ∧
        (rest ≠ [] → (t.channel c).halting = some (4, u.last.1)) ∧
        (rest = [] → t.reg Ix.chHaltCause (c + 1) = 4 ∧ t.reg Ix.chHaltIndex (c + 1) = u.last.1))) ∧
  (∀ (s : State) (c : Nat), s.reg Ix.chHaltCause (c + 1) ≠ 0 → s.reg Ix.chHaltCause (c + 1) ≠ 5 →
      ((s.setReg Ix.chHaltCause (c + 1) 0).chanReady c).isSome = true ∨ (s.channel c).entry = none →
    ∃ t : State, exec (.chRestart c 1) s = .next t ∧ t.reg Ix.chHaltCause (c + 1) = 0 ∧
      t.channel c = (if (s.channel c).entry = none then { s.channel c with ringing := true } else { s.channel c with reading := true }) ∧
      s.regsBut t [dictKey Ix.chHaltCause (c + 1)] ∧ t.answer.abort = 0) ∧
  (∀ (s : State) (c v : Nat), v = 0 ∨ v = 1 ∧ (s.reg Ix.chHaltCause (c + 1) = 0 ∨ s.reg Ix.chHaltCause (c + 1) = 5) →
    exec (.chRestart c v) s = .next (s.reply {})) ∧
  (∀ (s : State) (c v : Nat), 1 < v → exec (.chRestart c v) s = .next (s.reply { abort := 0x0301 }) ∧
    exec (.chShadowArm c v) s = .next (s.reply { abort := 0x0301 })) ∧
  (∀ (s : State) (c i : Nat), c < 4096 → i < 4294967296 → (∀ u ∈ (s.channel c).units, ∀ d ∈ u.descs, d.1 ≠ i) →
    ∃ t : State, exec (.chAbort (c + i * 4294967296)) s = .next t ∧ t.answer.abort = 0x0404 ∧
      t.reg Ix.chAbortResult (c + 1) = (if (i + 4294967296 - (s.channel c).accepted) % 4294967296 < 2147483648 then 3 else 2) ∧
      s.regsBut t [dictKey Ix.chAbortResult (c + 1)] ∧ t.ho = s.ho) ∧
  (∀ (s : State) (c i : Nat) (u : HUnit), c < 4096 → i < 4294967296 →
      (s.channel c).units.find? (fun u => u.descs.any fun d => d.1 == i) = some u →
    (u.stage = .finished ∨ u.stage = .started ∧ u.kind ≠ 2 ∧ u.kind ≠ 0 →
      ∃ t : State, exec (.chAbort (c + i * 4294967296)) s = .next t ∧ t.answer.abort = 0x0404 ∧ t.reg Ix.chAbortResult (c + 1) = 2 ∧
        t.ho = s.ho) ∧
    (u.kind ≠ 1 ∧ (u.stage = .accepted ∨ u.stage = .waiting) ∨ u.kind = 2 ∧ u.stage = .started ∧ u.flying = [] →
      ∃ t : State, exec (.chAbort (c + i * 4294967296)) s = .next t ∧ t.answer = {} ∧ t.reg Ix.chAbortResult (c + 1) = 1 ∧
        t.channel c = { s.channel c with units := (s.channel c).units.map fun v => if v.first = u.first then v.finish 2 0 else v } ∧
        (∀ j, j ≠ c → t.channel j = s.channel j)) ∧
    (u.kind = 2 → u.stage = .started → u.flying ≠ [] →
      ∃ t : State, exec (.chAbort (c + i * 4294967296)) s = .next t ∧ t.answer = {} ∧ t.reg Ix.chAbortResult (c + 1) = 1 ∧
        t.channel c = { s.channel c with
          units := (s.channel c).units.map fun v => if v.first = u.first then { v with aborted := true, todo := [] } else v } ∧
        (∀ j, j ≠ c → t.channel j = s.channel j)) ∧
    (u.kind = 1 → u.stage = .accepted ∨ u.stage = .usable →
      ∃ t : State, exec (.chAbort (c + i * 4294967296)) s = .next t ∧ t.answer = {} ∧ t.reg Ix.chAbortResult (c + 1) = 1 ∧
        (t.channel c).units = (s.channel c).units.map (fun v =>
          if v.kind = 1 ∧ (v.stage = .accepted ∨ v.stage = .usable) ∧ (v.first + 4294967296 - i) % 4294967296 < 2147483648 then v.finish 2 0
          else v) ∧
        (∀ j, j ≠ c → t.channel j = s.channel j))) ∧
  (∀ (s : State) (v : Nat), v / 4096 % 1048576 ≠ 0 → exec (.chAbort v) s = .next (s.reply { abort := 0x0301 })) ∧
  (∀ (s : State) (c v : Nat), v ≤ 1 →
    ∃ t : State, exec (.chShadowArm c v) s = .next t ∧ t.reg Ix.chShadowArm (c + 1) = v ∧
      s.regsBut t [dictKey Ix.chShadowArm (c + 1)] ∧ t = { s with dict := t.dict, answer := {} }) ∧
  (∀ (s : State) (v : Nat), s.ho.dmaNext = some v → (∀ e ∈ s.ho.channels, ∀ u ∈ e.2.units, u.transferring = false) →
    exec .dmaModeSwitch s = .next { s with ho := { s.ho with dmaOper := some v, dmaNext := none } })

/-! ### Chapter 12: the dictionary, Cormus, and the memory view -/

/-- R361, R364, R376, R378, R380: each entry waits while dictionary traffic does; an untagged one is turned away where tags are required, and a
guarded, ranged or plain write of CORMUS_TAG_REQUIRED or BxxxH always; a read answers the element's image; a write is judged by access,
length and range, and a buffered one goes to the pending store of the owner; OBJECT_WRITE is judged alike, and an unbuffered
element takes its value at once. -/
def Obligations.DictionaryEntries : Prop :=
  (∀ (s : State) (idx sub off n : Nat) (data : List Byte) (tagged : Bool), s.trafficWaits = true →
    exec (.read idx sub tagged) s = .next s ∧ exec (.write idx sub data tagged) s = .next s ∧
    exec (.writeGuarded idx sub data tagged) s = .next s ∧ exec (.readRange idx sub off n tagged) s = .next s ∧
    exec (.writeRange idx sub off data tagged) s = .next s ∧ exec (.describe idx sub off tagged) s = .next s) ∧
  (∀ (s : State) (idx sub off n : Nat) (data : List Byte), s.trafficWaits = false → s.reg Ix.cormusTagRequired 0 ≠ 0 →
    exec (.read idx sub false) s = .next (s.reply { abort := 0x0205 }) ∧
    exec (.write idx sub data false) s = .next (s.reply { abort := 0x0205 }) ∧
    exec (.writeGuarded idx sub data false) s = .next (s.reply { abort := 0x0205 }) ∧
    exec (.readRange idx sub off n false) s = .next (s.reply { abort := 0x0205 }) ∧
    exec (.writeRange idx sub off data false) s = .next (s.reply { abort := 0x0205 }) ∧
    exec (.describe idx sub off false) s = .next (s.reply { abort := 0x0205 })) ∧
  (∀ (s : State) (idx sub off : Nat) (data : List Byte), s.trafficWaits = false → idx = Ix.cormusTagRequired ∨ 0xB000 ≤ idx ∧ idx ≤ 0xBFFF →
    exec (.write idx sub data false) s = .next (s.reply { abort := 0x0205 }) ∧
    exec (.writeGuarded idx sub data false) s = .next (s.reply { abort := 0x0205 }) ∧
    exec (.writeRange idx sub off data false) s = .next (s.reply { abort := 0x0205 })) ∧
  (∀ (s : State) (idx sub : Nat) (o : ObjDesc) (tagged : Bool), s.trafficWaits = false → tagged = true ∨ s.reg Ix.cormusTagRequired 0 = 0 →
      objAt idx = some o → o.cnt = .scalar ∨ sub ≠ 0 → s.elementPresent o sub = true →
    (o.acc = .wo → exec (.read idx sub tagged) s = .next (s.reply { abort := 0x0202 })) ∧
    (o.acc ≠ .wo → o.ty.isTable = true → exec (.read idx sub tagged) s = .next (s.reply { abort := 0x0302 })) ∧
    (o.acc ≠ .wo → o.acc ≠ .rc → o.ty.isTable = false →
      exec (.read idx sub tagged) s = .next (s.reply { data := s.elementImage o sub })) ∧
    (∀ off, o.ty.isTable = false → exec (.describe idx sub off tagged) s = .next (s.reply
      (if off = 0 then { data := s.describeBytes o sub 0 } else { abort := 0x0501 })))) ∧
  (∀ (s : State) (idx sub : Nat) (o : ObjDesc) (data : List Byte) (tagged : Bool) (i : Instr), s.trafficWaits = false → tagged = true →
      idx ≠ Ix.imageCommand → objAt idx = some o → o.cnt = .scalar ∨ sub ≠ 0 → s.elementWritable o sub = true →
      i = .write idx sub data tagged ∨ i = .objectWrite idx sub data →
    (o.acc = .ro ∨ o.acc = .rc → exec i s = .next (s.reply { abort := 0x0201 })) ∧
    (o.acc = .rwg → exec i s = .next (s.reply { abort := 0x0204 })) ∧
    (o.acc = .rw ∨ o.acc = .wo ∨ o.acc = .rwb → o.ty.isTable = true ∨ data.length ≠ o.ty.width →
      exec i s = .next (s.reply { abort := 0x0302 })) ∧
    (o.acc = .rw ∨ o.acc = .wo ∨ o.acc = .rwb → o.ty.isTable = false → data.length = o.ty.width → s.valueOk o sub (leNat data) = false →
      exec i s = .next (s.reply { abort := 0x0301 })) ∧
    (o.acc = .rwb → o.ty.isTable = false → data.length = o.ty.width → s.valueOk o sub (leNat data) = true →
      ((s.island (ownerIsland o sub 0)).pend.any (fun w => w.idx == idx && w.sub == sub) = false →
        ((s.island (ownerIsland o sub 0)).pend.length < 256 →
          ∃ t : State, exec i s = .next t ∧ t.answer = {} ∧
            t.island (ownerIsland o sub 0) = { s.island (ownerIsland o sub 0) with
              pend := (s.island (ownerIsland o sub 0)).pend ++ [⟨idx, sub, [(0, leNat data)]⟩] } ∧
            t = { s with isl := { s.isl with islands := t.isl.islands }, answer := t.answer }) ∧
        (256 ≤ (s.island (ownerIsland o sub 0)).pend.length → exec i s = .next (s.reply { abort := 0x0402 }))))) ∧
  (∀ (s : State) (idx sub : Nat) (o : ObjDesc) (v : List Byte) (c : List Byte), s.trafficWaits = false →
      objAt idx = some o → o.cnt = .scalar → s.elementPresent o 0 = true → v.length = o.ty.width → c.length = o.ty.width →
    (o.acc ≠ .rwg ∨ c ≠ complementBytes v → exec (.writeGuarded idx 0 (v ++ c) true) s = .next (s.reply { abort := 0x0204 })) ∧
    (o.acc = .rwg → c = complementBytes v → idx = Ix.islandReset → exec (.writeGuarded idx 0 (v ++ c) true) s = (s.writeIslandReset (leNat v)).out)) ∧
  (∀ (s : State) (b : Byte), s.trafficWaits = false → s.nv.minSecurity < b.toNat → b.toNat ≤ fwSecurity s.booted → b.toNat ≤ 63 →
      s.reg Ix.supplyState 0 ≠ 1 →
    exec (.writeGuarded Ix.fwMinSecurityRaise 0 [b, ~~~b] true) s =
      .next ((({ s with nv := { s.nv with minSecurity := b.toNat } } : State).event Ix.rootKeyRevoke 1 55 [(1, b.toNat)]).reply {})) ∧
  (∀ (s : State) (idx sub off size count : Nat) (o : ObjDesc) (data : List Byte), s.trafficWaits = false →
      objAt idx = some o → s.elementPresent o sub = true → o.ty = .table size count → o.acc = .rw ∨ o.acc = .rwb →
    (data = [] ∨ 1024 < data.length ∨ data.length % size ≠ 0 ∨ off % size ≠ 0 →
      exec (.writeRange idx sub off data true) s = .next (s.reply { abort := 0x0501 })) ∧
    (data ≠ [] → data.length ≤ 1024 → data.length % size = 0 → off % size = 0 →
        s.recordRoom idx sub count ((off + data.length) / size - 1) = true →
      exec (.writeRange idx sub off data true) s =
        (s.writeRecords idx sub (off / size) (splitRecords size (data.length / size) data)).out) ∧
    (o.acc = .rwb → data.length = size → 1 ≤ size → size ≤ 1024 → off % size = 0 → s.recordRoom idx sub count (off / size) = true →
        s.recordAbsent idx (off / size) = false → s.recordOk idx data = true →
        (s.island (ownerIsland o sub (off / size))).pend.any (fun w => w.idx == idx && w.sub == sub) = false →
        (s.island (ownerIsland o sub (off / size))).pend.length < 256 →
      ∃ t : State, exec (.writeRange idx sub off data true) s = .next t ∧ t.answer = {} ∧
        t.island (ownerIsland o sub (off / size)) = { s.island (ownerIsland o sub (off / size)) with
          pend := (s.island (ownerIsland o sub (off / size))).pend ++ [⟨idx, sub, [(off / size, leNat data)]⟩] } ∧
        t = { s with isl := { s.isl with islands := t.isl.islands }, answer := t.answer }) ∧
    (∀ n, n = 0 ∨ 1024 < n → exec (.readRange idx sub off n true) s = .next (s.reply { abort := 0x0501 })) ∧
    (∀ n, 1 ≤ n → n ≤ 1024 → size * s.tableCount idx sub count < off + n →
      exec (.readRange idx sub off n true) s = .next (s.reply { abort := 0x0102 })) ∧
    (∀ n, 1 ≤ n → n ≤ 1024 → off + n ≤ size * s.tableCount idx sub count → idx ≠ Ix.streamFilter →
      exec (.readRange idx sub off n true) s = .next (s.reply { data := s.tableBytesAt idx sub size off n }))) ∧
  (∀ (s : State) (v : Nat), v < 8 → s.islandState 55 = 3 →
    ∃ t : State, exec (.objectWrite Ix.cormusTxClass 0 [BitVec.ofNat 8 v]) s = .next t ∧ t.reg Ix.cormusTxClass 0 = v ∧
      t.answer = {} ∧ s.regsBut t [dictKey Ix.cormusTxClass 0] ∧ t = { s with dict := t.dict, answer := t.answer })

/-- R374, R375, R377 to R379, R386, R387, R388: a frame that is no message changes nothing; a malformed message, a tag that does not verify and
a replayed counter are counted and dropped; a message that must wait does so, up to 256; a repeated request is answered from the cache; any other
runs and its response is kept, a single untagged READ returning the element's image. An ARP or neighbour request for the device is answered. A reply
leaves the port its request came by, or waits there while the port may not send. The management port counts collisions, gives up at the 16th,
falls back without beacons and returns with one, and of a received frame with a good FCS it counts the wake matches and takes the message. -/
def Obligations.CormusAndManagementPort : Prop :=
  let leaves (s t : State) (port : Nat) (f : List Byte) : Prop :=
    t.co.reply = f ∧ (port = 512 → t.mp.out = s.mp.out ++ [f]) ∧
    (port < 512 → s.reg Ix.cormusTxClass 0 < 8 → s.co.out.find? (fun e => e.1 == port) = none →
      (s.canEmit port (s.queueOpen (8 * port + s.reg Ix.cormusTxClass 0)) = true → s.sentOn t port f s.raw 1 ∧ t.co.out = s.co.out) ∧
      (s.canEmit port (s.queueOpen (8 * port + s.reg Ix.cormusTxClass 0)) = false → t.co.out = s.co.out ++ [(port, f)]))
  (∀ (s : State) (frame : List Byte), s.cormusOf 512 frame = none → exec (.cormusMessage 512 frame) s = .next s) ∧
  (∀ (s s1 : State) (port : Nat) (frame b : List Byte) (u : Option Udp), s.sy.hold = none → s.sy.recovery = false →
      port < 512 ∧ s.portPresent port = true ∨ port = 512 ∧ s.reg Ix.t1sEnable 0 ≠ 0 → s1 = s.count Ix.cormusRx 0 1 →
      s.cormusOf port frame = some (b, u) →
    (s.trafficWaits = true → s.co.waiting.length < 256 →
      exec (.cormusMessage port frame) s = .next { s1 with co := { s1.co with waiting := s.co.waiting ++ [(port, frame, s.cormusIds)] } }) ∧
    (s.trafficWaits = true → 256 ≤ s.co.waiting.length →
      exec (.cormusMessage port frame) s = .next (s1.count Ix.cormusRxDropped 0 1)) ∧
    (s.trafficWaits = false → cormusHead b = none → exec (.cormusMessage port frame) s = .next (s1.count Ix.cormusRxDropped 0 1)) ∧
    (∀ h : CHead, s.trafficWaits = false → cormusHead b = some h →
      (h.tagged = true → tget s.co.keys h.key = none ∨
          (∃ k, tget s.co.keys h.key = some k ∧ (hmacSha256 k (b.take h.stop_)).take 16 ≠ slice b h.stop_ 16) →
        exec (.cormusMessage port frame) s = .next (s1.count Ix.cormusTagFails 0 1)) ∧
      (∀ k, h.tagged = true → tget s.co.keys h.key = some k → (hmacSha256 k (b.take h.stop_)).take 16 = slice b h.stop_ 16 → s.co.cache = [] →
        (h.counter ≤ tgetD s.nv.cormusCounters h.key 0 → exec (.cormusMessage port frame) s = .next (s1.count Ix.cormusReplays 0 1)) ∧
        (tgetD s.nv.cormusCounters h.key 0 < h.counter → s.reg Ix.nvState 0 = 1 → s.co.waiting.length < 256 →
          exec (.cormusMessage port frame) s =
            .next { s1 with co := { s1.co with waiting := s.co.waiting ++ [(port, frame, s.cormusIds)] } })) ∧
      (∀ r : CormusReply, h.tagged = false → s.co.cache = [r] → s.since r.sentAt < State.second → r.source = State.cormusSource frame u →
          r.seq = h.seq → r.key = 4 → r.counter = h.counter →
        ∃ t : State, exec (.cormusMessage port frame) s = .next t ∧ t.reg Ix.cormusCacheHits 0 = (s.reg Ix.cormusCacheHits 0 + 1) % 2 ^ 64 ∧
          t.reg Ix.cormusRx 0 = (s.reg Ix.cormusRx 0 + 1) % 2 ^ 64 ∧ leaves s t port (s1.cormusFrame frame u r.frame) ∧ t.co.cache = [r]) ∧
      (∀ (e : CEntry) (o : ObjDesc), h.tagged = false → s.co.cache = [] → h.entries = [e] → s.reg Ix.cormusTagRequired 0 = 0 → e.op = 1 →
          e.zero = 0 → e.off = 0 → e.len = 0 → objAt e.idx = some o → o.cnt = .scalar ∨ e.sub ≠ 0 → s1.elementPresent o e.sub = true →
          o.acc = .ro ∨ o.acc = .rw ∨ o.acc = .rwb → o.ty.isTable = false → (s1.elementImage o e.sub).length ≤ 32 →
        ∃ t : State, exec (.cormusMessage port frame) s = .next t ∧ t.reg Ix.cormusRx 0 = (s.reg Ix.cormusRx 0 + 1) % 2 ^ 64 ∧
          leaves s t port (s1.cormusFrame frame u (State.response [] h (responseEntry e 0 (s1.elementImage o e.sub)))) ∧
          t.co.cache = [{ source := State.cormusSource frame u, seq := h.seq, key := 4, counter := h.counter,
                          frame := State.response [] h (responseEntry e 0 (s1.elementImage o e.sub)), sentAt := s.rawTotal }]))) ∧
  (∀ (s : State) (port : Nat) (frame f : List Byte), s.trafficWaits = false → s.resolution frame = some f →
      port < 512 ∧ s.portPresent port = true ∨ port = 512 ∧ s.reg Ix.t1sEnable 0 ≠ 0 →
    ∃ t : State, exec (.addressResolution port frame) s = .next t ∧ leaves s t port f) ∧
  (∀ s : State, s.plcaOn = true → s.reg Ix.t1sPlcaNodeId 0 ≠ 0 →
    (s.mp.fellBack = false → State.ns 400000 ≤ s.since s.mp.beacon →
      ∃ t : State, exec .plcaFallback s = .next t ∧ t.mp = { s.mp with fellBack := true } ∧ t.reg Ix.t1sMode 0 = 2 ∧
        t.reg Ix.t1sPlcaFallbacks 0 = min (s.reg Ix.t1sPlcaFallbacks 0 + 1) 0xFFFFFFFF ∧
        s.regsBut t [dictKey Ix.t1sPlcaFallbacks 0, dictKey Ix.t1sMode 0]) ∧
    (∃ t : State, exec .plcaBeacon s = .next t ∧ t.mp = { s.mp with fellBack := false, beacon := s.rawTotal } ∧ t.reg Ix.t1sMode 0 = 1 ∧
      s.regsBut t [dictKey Ix.t1sMode 0])) ∧
  (∀ s : State, s.plcaOn = true → s.reg Ix.t1sPlcaNodeId 0 = 0 →
    exec .plcaCoordinatorBeacon s = .next { s with mp := { s.mp with beacon := s.rawTotal, cycle := s.reg Ix.t1sPlcaNodeCount 0 } }) ∧
  (∀ (s : State) (n : Nat) (w : List Byte) (rest : List (List Byte)), s.mp.out = w :: rest → s.reg Ix.t1sEnable 0 ≠ 0 →
    ∃ t : State, exec (.t1sFrameSend n) s = .next t ∧ t.mp.out = rest ∧
      t.reg Ix.t1sCollisions 0 = (s.reg Ix.t1sCollisions 0 + min n 16) % 2 ^ 64 ∧
      (n < 16 → t.reg Ix.t1sExcessCollisions 0 = s.reg Ix.t1sExcessCollisions 0 ∧
        ∀ p, p = w ++ List.replicate (60 - w.length) 0#8 → t.mp.sent = p ++ fcsOf p) ∧
      (16 ≤ n → t.reg Ix.t1sExcessCollisions 0 = (s.reg Ix.t1sExcessCollisions 0 + 1) % 2 ^ 64 ∧ t.mp.sent = s.mp.sent) ∧
      s.regsBut t [dictKey Ix.t1sCollisions 0, dictKey Ix.t1sExcessCollisions 0] ∧ t = { s with dict := t.dict, mp := t.mp }) ∧
  (∀ (s : State) (frame w : List Byte), s.reg Ix.t1sEnable 0 ≠ 0 → s.sy.hold = none → s.sy.recovery = false →
      w = frame.take (frame.length - 4) →
    (fcsGood frame = false → exec (.t1sFrameReceive frame) s = .next s) ∧
    (fcsGood frame = true → s.cormusOf 512 w = none → s.resolution w = none →
      ((∀ n, n < 8 → s.patternMatches n frame = false) → exec (.t1sFrameReceive frame) s = .next s) ∧
      (∀ n, n < 8 → s.patternMatches n frame = true → (∀ m, m < 8 → m ≠ n → s.patternMatches m frame = false) →
          s.reg Ix.wakeAction (n + 1) < 2 →
        ∃ t : State, exec (.t1sFrameReceive frame) s = .next t ∧
          t.reg Ix.wakeMatches (n + 1) = (s.reg Ix.wakeMatches (n + 1) + 1) % 2 ^ 64 ∧
          s.regsBut t [dictKey Ix.wakeMatches (n + 1)] ∧ t = { s with dict := t.dict })) ∧
    (fcsGood frame = true → (∀ n, n < 8 → s.patternMatches n frame = false) →
      (s.cormusOf 512 w ≠ none → s.trafficWaits = true → s.co.waiting.length < 256 →
        ∃ t : State, exec (.t1sFrameReceive frame) s = .next t ∧ t.co = { s.co with waiting := s.co.waiting ++ [(512, w, s.cormusIds)] } ∧
          t.reg Ix.cormusRx 0 = (s.reg Ix.cormusRx 0 + 1) % 2 ^ 64 ∧ s.regsBut t [dictKey Ix.cormusRx 0]) ∧
      (∀ f, s.cormusOf 512 w = none → s.trafficWaits = false → s.resolution w = some f →
        exec (.t1sFrameReceive frame) s = .next { s with co := { s.co with reply := f }, mp := { s.mp with out := s.mp.out ++ [f] } })))

/-- R297, R381 to R386: the view answers only in D0 out of PERSTn; while it waits, reads are held and writes queued, up to 1,024, and read all ones
after 1 ms; an access of another size or alignment sets bit 5; a slot reads its object, and a wide one latches the mailbox; a slot's low bytes
write; upper bytes are staged; the indirect pair carries on over elements; a guarded value is held 1 ms for its complement. -/
def Obligations.MemoryView : Prop :=
  let failed (s t : State) (idx : Nat) : Prop :=
    ∃ u : State, t = u.event Ix.guardFailures 2 55 [(2, idx)] ∧
      u.mv = { s.mv with guarded := none, status := setBit s.mv.status 2 } ∧
      u.reg Ix.guardFailures 0 = (s.reg Ix.guardFailures 0 + 1) % 2 ^ 64 ∧ s.regsBut u [dictKey Ix.guardFailures 0] ∧
      u = { s with dict := u.dict, mv := u.mv }
  let pends (s t : State) (i idx sub v : Nat) : Prop :=
    t.island i = { s.island i with pend := (s.island i).pend ++ [⟨idx, sub, [(0, v)]⟩] } ∧ (∀ j, j ≠ i → t.island j = s.island j) ∧
      ∀ ix sb, t.reg ix sb = s.reg ix sb
  (∀ (s : State) (off n : Nat) (v : List Byte), s.viewOpen = false →
    exec (.mvSlotLowRead off n) s = .next s ∧ exec (.mvSlotLowWrite off v) s = .next s ∧ exec (.mvStageWrite off v) s = .next s ∧
    exec (.mvIndAddr off v) s = .next s ∧ exec (.mvIndDataRead n) s = .next s ∧ exec (.mvIndDataWrite v) s = .next s ∧
    exec (.guardedValueWrite off v) s = .next s ∧ exec (.guardedComplementWrite off v) s = .next s) ∧
  (∀ (s : State) (off n : Nat) (v : List Byte) (i : Instr), s.viewOpen = true → s.viewWaits = true → off < 0x4000000 → off ≠ 0x100008 →
    (i = .mvSlotLowRead off n ∨ i = .mvIndDataRead n → exec i s =
      .next { s with sy := { s.sy with heldReads := s.sy.heldReads ++ [(s.sy.held.length, i, s.rawTotal)] } }) ∧
    (i ∈ [.mvSlotLowWrite off v, .mvStageWrite off v, .mvIndAddr off v, .mvIndDataWrite v, .guardedValueWrite off v,
        .guardedComplementWrite off v] →
      (s.sy.held.length < 1024 → exec i s = .next { s with sy := { s.sy with held := s.sy.held ++ [i] } }) ∧
      (1024 ≤ s.sy.held.length → ∃ t : State, exec i s = .next t ∧ t.mv = { s.mv with status := setBit s.mv.status 4 } ∧ t.sy = s.sy ∧
        t.reg Ix.mvDroppedWrites 0 = (s.reg Ix.mvDroppedWrites 0 + 1) % 2 ^ 64 ∧ s.regsBut t [dictKey Ix.mvDroppedWrites 0]))) ∧
  (∀ (s : State) (off n : Nat), s.viewOpen = true → s.viewWaits = false → off < 0x4000000 → off ≠ 0x100008 → n ≠ 4 ∧ n ≠ 8 ∨ off % n ≠ 0 →
    exec (.mvSlotLowRead off n) s =
      .next (({ s with mv := { s.mv with status := setBit s.mv.status 5 } } : State).reply { data := List.replicate n 0#8 })) ∧
  (∀ (s : State) (off : Nat) (v : List Byte), s.viewOpen = true → s.viewWaits = false → 0x100050 ≤ off → off < 0x4000000 →
    exec (.mvStageWrite off v) s = .next { s with mv := { s.mv with status := setBit s.mv.status 5 } }) ∧
  (∀ (s : State) (o : ObjDesc) (off : Nat), s.viewOpen = true → s.viewWaits = false → off < 0xE0000 → off % 16 = 0 →
      s.slotObj (0x1000 + off / 16) = some o → o.acc = .ro ∨ o.acc = .rw ∨ o.acc = .rwb →
    (o.ty.width ≤ 4 → exec (.mvSlotLowRead off 4) s = .next (s.reply { data := bytesAt (s.elementImage o 0) 0 4 })) ∧
    (4 < o.ty.width → ∃ t : State, exec (.mvSlotLowRead off 4) s = .next t ∧ t.mv.mailbox = bytesAt (s.elementImage o 0) 0 32 ∧
      t.mv.valid = true ∧ t.mv.staging = false ∧ t.mv.object = 0x1000 + off / 16 ∧
      t.answer = { data := bytesAt (s.elementImage o 0) 0 4 } ∧ t = { s with mv := t.mv, answer := t.answer }) ∧
    (4 < o.ty.width → ∀ b, b = 4 ∨ b = 8 ∨ b = 12 →
      (s.mv.valid = true → s.mv.staging = false → s.mv.object = 0x1000 + off / 16 →
        exec (.mvSlotLowRead (off + b) 4) s = .next (s.reply { data := bytesAt s.mv.mailbox b 4 })) ∧
      (s.mv.valid = false ∨ s.mv.staging = true ∨ s.mv.object ≠ 0x1000 + off / 16 →
        exec (.mvSlotLowRead (off + b) 4) s = .next (({ s with mv := { s.mv with status := setBit s.mv.status 3 } } : State).reply
          { data := bytesAt (s.elementImage o 0) b 4 })))) ∧
  (∀ (s : State) (o : ObjDesc) (off : Nat) (v : List Byte), s.viewOpen = true → s.viewWaits = false → off < 0xE0000 → off % 16 = 0 →
      s.slotObj (0x1000 + off / 16) = some o → o.acc ≠ .rwg → v.length = 4 →
    (o.ty.width ≤ 4 →
      (o.acc = .rwb → s.valueOk o 0 (leNat (v.take o.ty.width)) = true → (s.island (ownerIsland o 0 0)).pend.length < 256 →
          (s.island (ownerIsland o 0 0)).pend.any (fun w => w.idx == 0x1000 + off / 16 && w.sub == 0) = false →
        ∃ t : State, exec (.mvSlotLowWrite off v) s = .next t ∧
          pends s t (ownerIsland o 0 0) (0x1000 + off / 16) 0 (leNat (v.take o.ty.width)) ∧ t.mv = s.mv ∧ t.answer = s.answer) ∧
      ((s.writeObject (0x1000 + off / 16) 0 (v.take o.ty.width)).2 = 0 →
        exec (.mvSlotLowWrite off v) s = .next (s.writeObject (0x1000 + off / 16) 0 (v.take o.ty.width)).1) ∧
      (o.acc = .ro → ∃ t : State, exec (.mvSlotLowWrite off v) s = .next t ∧
        t.mv = { s.mv with status := setBit s.mv.status 0, lastAbort := 0x0201 + 4294967296 * (0x1000 + off / 16) } ∧
        t.reg Ix.mvDroppedWrites 0 = (s.reg Ix.mvDroppedWrites 0 + 1) % 2 ^ 64 ∧ s.regsBut t [dictKey Ix.mvDroppedWrites 0])) ∧
    (4 < o.ty.width → ∀ b, b = 4 ∨ b = 8 ∨ b = 12 →
      ∃ t : State, exec (.mvStageWrite (off + b) v) s = .next t ∧ t.mv.valid = true ∧ t.mv.staging = true ∧
        t.mv.object = 0x1000 + off / 16 ∧
        t.mv.mailbox = patch (if s.mv.staging then s.mv.mailbox else List.replicate 32 0#8) b v ∧ t = { s with mv := t.mv })) ∧
  (∀ (s : State) (v : List Byte), s.viewOpen = true → s.viewWaits = false → v.length = 8 →
    ∃ t : State, exec (.mvIndAddr 0x100000 v) s = .next t ∧ t.mv.indAddr = leNat v ∧ t.mv.indStage = [] ∧
      t.mv.indStatus = s.mv.indStatus / 2 * 2 ∧
      t.mv.status = (if s.mv.indStage = [] then s.mv.status else setBit s.mv.status 6) ∧ t = { s with mv := t.mv }) ∧
  (∀ (s : State) (o : ObjDesc) (idx sub : Nat), s.viewOpen = true → s.viewWaits = false → s.sy.recovery = false → idx < 65536 → sub + 1 < 65536 →
      s.mv.indAddr = idx + 65536 * sub → objAt idx = some o → 1 ≤ sub → sub ≤ s.elementCount o → s.elementPresent o sub = true →
      o.cnt ≠ .scalar → o.acc = .rw ∨ o.acc = .rwb → o.ty.isTable = false → o.ty.width ≤ 4 →
    (∃ t : State, exec (.mvIndDataRead 4) s = .next t ∧ t.mv = { s.mv with indAddr := idx + 65536 * (sub + 1), indStatus := 0 } ∧
      t.answer = { data := bytesAt (s.elementImage o sub) 0 4 } ∧ t = { s with mv := t.mv, answer := t.answer }) ∧
    (∀ v : List Byte, o.acc = .rwb → v.length = 4 → s.elementWritable o sub = true → s.valueOk o sub (leNat (bytesAt v 0 o.ty.width)) = true →
        (s.island (ownerIsland o sub 0)).pend.length < 256 →
        (s.island (ownerIsland o sub 0)).pend.any (fun w => w.idx == idx && w.sub == sub) = false →
      ∃ t : State, exec (.mvIndDataWrite v) s = .next t ∧ pends s t (ownerIsland o sub 0) idx sub (leNat (bytesAt v 0 o.ty.width)) ∧
        t.mv = { s.mv with indAddr := idx + 65536 * (sub + 1), indStatus := 0 }) ∧
    (∀ (u : State) (v : List Byte), v.length = 4 → u = { s with mv := { s.mv with indStatus := 0 } } →
      (u.writeObject idx sub (bytesAt v 0 o.ty.width)).2 = 0 →
      exec (.mvIndDataWrite v) s = .next ((u.writeObject idx sub (bytesAt v 0 o.ty.width)).1.indGo idx (sub + 1) 0))) ∧
  (∀ (s : State) (o : ObjDesc) (off : Nat) (v : List Byte), s.viewOpen = true → s.viewWaits = false → off < 0xE0000 → off % 16 = 0 →
      s.slotObj (0x1000 + off / 16) = some o → o.acc = .rwg → v.length = 4 →
    (s.mv.guarded = none → exec (.guardedValueWrite off v) s =
      .next { s with mv := { s.mv with guarded := some (0x1000 + off / 16, leField v 0 1, s.rawTotal) } }) ∧
    (s.mv.guarded = none →
      ∃ t : State, exec (.guardedComplementWrite (off + 8) v) s = .next t ∧ failed s t (0x1000 + off / 16)) ∧
    (∀ (x : Nat) (t0 : Stamp) (u : State), s.mv.guarded = some (0x1000 + off / 16, x, t0) → u = { s with mv := { s.mv with guarded := none } } →
      (x + leField v 0 1 ≠ 255 ∨ 65536000000 < s.since t0 →
        ∃ t : State, exec (.guardedComplementWrite (off + 8) v) s = .next t ∧ failed s t (0x1000 + off / 16)) ∧
      (x + leField v 0 1 = 255 → s.since t0 ≤ 65536000000 →
        ((u.runGuarded (0x1000 + off / 16) x).2 = 0 →
          exec (.guardedComplementWrite (off + 8) v) s = .next (u.runGuarded (0x1000 + off / 16) x).1) ∧
        (0x1000 + off / 16 = Ix.fwMinSecurityRaise → s.nv.minSecurity < x → x ≤ fwSecurity s.booted → x ≤ 63 → s.reg Ix.supplyState 0 ≠ 1 →
          exec (.guardedComplementWrite (off + 8) v) s =
            .next (({ u with nv := { u.nv with minSecurity := x } } : State).event Ix.rootKeyRevoke 1 55 [(1, x)]))))) ∧
  (∀ (s : State) (idx x : Nat) (t0 : Stamp), s.mv.guarded = some (idx, x, t0) →
    (65536000000 ≤ s.since t0 → ∃ t : State, exec .guardTimeout s = .next t ∧ failed s t idx) ∧
    (s.since t0 < 65536000000 → exec .guardTimeout s = .next s))

/-! ### Chapter 12: images -/

/-- R368 to R372, R391: a command written while one runs is busy; SAVE, SELECT, ERASE and INSTALL start their job and show it, HELD while NV writes
are held; RESTORE, FACTORY and COMPARE act at once, RESTORE and COMPARE failing without an active slot; a command whose
units are all written ends DONE, one with a cause FAILED. -/
def Obligations.ImageCommands : Prop :=
  (∀ (s : State) (i : Instr), s.nv.imgJob.isSome = true →
      i ∈ [.imageSave, .imageSelect, .imageRestore, .imageFactory, .imageErase, .imageCompare, .imageInstall] →
    exec i s = .next (s.reply { abort := 0x0401 })) ∧
  (∀ (s : State) (i : Instr) (code shown : Nat), s.nv.imgJob = none →
      (i, code, shown) ∈ [(Instr.imageSave, 1, 1), (.imageSelect, 2, 7), (.imageErase, 5, 9), (.imageInstall, 7, 10)] →
    ∃ t : State, exec i s = .next t ∧ t.nv = { s.nv with imgJob := some (s.imgJobOf code) } ∧ t.answer = {} ∧
      t.reg Ix.imageStatus 0 =
        (if s.reg Ix.nvState 0 = 1 ∧ (s.imgJobOf code).left ≠ 0 ∧ (s.imgJobOf code).cause = 0 then 4 else shown) ∧
      s.regsBut t [dictKey Ix.imageStatus 0] ∧ t = { s with dict := t.dict, nv := t.nv, answer := t.answer }) ∧
  (∀ (s : State) (im : List Byte), im = buildImage s.variant.code s.imgNextSeq (fwVersion s.booted) s.savedList →
    (im.length ≤ 1048576 → s.imgJobOf 1 = { code := 1, data := im, left := nvUnits im.length }) ∧
    (1048576 < im.length → s.imgJobOf 1 = { code := 1, data := [], left := 0, cause := 1 })) ∧
  (∀ s : State,
    (s.activeImage ≠ none → imageValid (s.imgSlot s.imgTarget) = true →
      s.imgJobOf 2 = { code := 2, data := patch (s.imgSlot s.imgTarget) 12 (leBytes 4 s.imgNextSeq), left := 1 }) ∧
    (s.activeImage = none ∨ imageValid (s.imgSlot s.imgTarget) = false →
      s.imgJobOf 2 = { code := 2, data := [], left := 0, cause := 2 })) ∧
  (∀ s : State, s.imgJobOf 5 = { code := 5, data := noMagic (s.imgSlot s.imgTarget), left := 1 }) ∧
  (∀ (s : State) (n : Nat), s.nv.imgJob = none → s.reg Ix.imageActiveSlot 0 = n → n < 2 →
    (∀ u, u = s.loadImage true → ∃ t : State, exec .imageRestore s = .next t ∧
      t.nv = { u.nv with imgJob := some { code := 3, data := [], left := 0, cause := 0 } } ∧ t.reg Ix.imageStatus 0 = 2 ∧
      u.regsBut t [dictKey Ix.imageStatus 0]) ∧
    (∃ t : State, exec .imageCompare s = .next t ∧
      t.nv = { s.nv with imgJob := some { code := 6, data := [], left := 0, cause := 0 } } ∧ t.reg Ix.imageStatus 0 = 3 ∧
      t.reg Ix.imageDiffCount 0 = ((imageList (s.imgSlot n)).filter s.recordDiffers).length ∧
      (∀ r, ((imageList (s.imgSlot n)).filter s.recordDiffers).head? = some r → t.reg Ix.imageDiffFirst 0 = r.idx * 65536 + r.sub) ∧
      (((imageList (s.imgSlot n)).filter s.recordDiffers) = [] → t.reg Ix.imageDiffFirst 0 = 0xFFFFFFFF) ∧
      s.regsBut t [dictKey Ix.imageStatus 0, dictKey Ix.imageDiffCount 0, dictKey Ix.imageDiffFirst 0])) ∧
  (∀ s : State, s.nv.imgJob = none → 2 ≤ s.reg Ix.imageActiveSlot 0 →
    (∃ t : State, exec .imageRestore s = .next t ∧
      t.nv = { s.nv with imgJob := some { code := 3, data := [], left := 0, cause := 2 } } ∧ s.regsBut t [dictKey Ix.imageStatus 0]) ∧
    (∃ t : State, exec .imageCompare s = .next t ∧
      t.nv = { s.nv with imgJob := some { code := 6, data := [], left := 0, cause := 2 } } ∧ s.regsBut t [dictKey Ix.imageStatus 0])) ∧
  (∀ (s u : State), s.nv.imgJob = none → u = s.factoryAll →
    ∃ t : State, exec .imageFactory s = .next t ∧
      t.nv = { u.nv with imgJob := some { code := 4, data := [], left := 0, cause := 0 } } ∧ t.reg Ix.imageStatus 0 = 8 ∧
      u.regsBut t [dictKey Ix.imageStatus 0] ∧ (∀ k, (t.xmTable k).entries = [])) ∧
  (∀ (s : State) (j : NvJob), s.nv.imgJob = some j →
    (j.left ≠ 0 → j.cause = 0 → exec .imageCommandDone s = .next s) ∧
    (j.left = 0 → j.cause = 0 → ∃ t : State, exec .imageCommandDone s = .next t ∧ t.nv = { s.nv with imgJob := none } ∧
      t.reg Ix.imageStatus 0 = 5 ∧ s.regsBut t [dictKey Ix.imageStatus 0] ∧ t = { s with dict := t.dict, nv := t.nv }) ∧
    (j.cause ≠ 0 → ∃ t : State, exec .imageCommandDone s = .next t ∧ t.nv = { s.nv with imgJob := none } ∧
      t.reg Ix.imageStatus 0 = 6 ∧ t.reg Ix.imageFailCause 0 = j.cause ∧
      s.regsBut t [dictKey Ix.imageStatus 0, dictKey Ix.imageFailCause 0] ∧ t = { s with dict := t.dict, nv := t.nv }))

/-! ### Chapter 13: lanes -/

/-- R393, R396 to R399: a bad reference takes a sector's lanes to OFF and is counted, a good one lets them seek; signal starts adaptation from the
start code; converged coefficients become the anchors; a failure goes back to SEEK with a back-off of 1 to 64 ms; the ready lanes of a port enter
UP together; a lane that leaves UP counts it, zeroes its eye margin, starts the link-up timer and takes its port's other lanes to LOCK; the end of
the timer sets a status bit. -/
def Obligations.LaneBringUp : Prop :=
  let left (s t : State) (l st : Nat) : Prop :=
    t.laneState l = st ∧ t.reg Ix.laneEyeMargin (l + 1) = 0 ∧
      t.reg Ix.laneLinkDownCount (l + 1) = min (s.reg Ix.laneLinkDownCount (l + 1) + 1) 0xFFFFFFFF ∧
      (t.lane l).linkTimer = some s.rawTotal ∧ (t.lane l).signalSeen = false ∧ (t.lane l).guard = false ∧ (t.lane l).rxAsleep = false
  (∀ (s : State) (k : Nat), s.sectorPresent k = true →
    (s.reg Ix.laneRefStatus (k + 1) ≠ 0 →
      ∃ t : State, exec (.laneRefFail k) s = .next t ∧ t.reg Ix.laneRefStatus (k + 1) = 0 ∧
        t.reg Ix.laneRefLossCount (k + 1) = min (s.reg Ix.laneRefLossCount (k + 1) + 1) 0xFFFFFFFF ∧
        ∀ l ∈ State.sectorLanes k, t.laneState l = 0 ∧ (s.laneState l ≠ 0 → t.reg Ix.laneStatus (l + 1) = 0) ∧
          (s.laneState l ≠ 0 → s.laneState l ≠ 4 →
            t.lane l = { entered := s.rawTotal, failures := (s.lane l).failures, revertLogged := (s.lane l).revertLogged })) ∧
    (s.reg Ix.laneRefStatus (k + 1) = 0 → exec (.laneRefFail k) s = .next s) ∧
    (∃ t : State, exec (.laneRefGood k) s = .next t ∧ t.reg Ix.laneRefStatus (k + 1) = 1 ∧
      ∀ l p, l ∈ State.sectorLanes k → s.laneState l = 0 → s.lanePort l = some p → s.reg Ix.laneEnable (l + 1) ≠ 0 → s.running k = true →
        s.reg Ix.tsCalStatus (p + 1) ≠ 1 → s.sy.tap.tested = false → s.reg Ix.laneTestMode (l + 1) ∉ [1, 3] →
        t.laneState l = 1 ∧ (t.lane l).linkTimer = some s.rawTotal ∧ (t.lane l).signalSeen = false)) ∧
  (∀ (s : State) (l : Nat), s.portPresent l = true → s.laneState l = 1 → (s.lane l).backoff = none →
    ∃ t : State, exec (.laneSignalDetect l) s = .next t ∧ t.laneState l = 2 ∧
      t.lane l = { s.lane l with signalSeen := true, entered := s.rawTotal } ∧
      (s.reg Ix.laneRxCtleStart (l + 1) < 255 → t.reg Ix.laneRxCoeff (l + 1) % 256 = s.reg Ix.laneRxCtleStart (l + 1)) ∧
      t.reg Ix.laneRxCoeff (l + 1) < 65536 ∧
      s.regsBut t [dictKey Ix.laneState (l + 1), dictKey Ix.laneRxCoeff (l + 1)] ∧ t = { s with dict := t.dict, ln := t.ln }) ∧
  (∀ (s : State) (l n : Nat) (coeffs : List Byte), s.portPresent l = true → s.laneState l = 2 → coeffs.length = 14 →
      (coeffs.headD 0#8).toNat < 32 → n = (if s.laneMode l = 1 then 2 else if s.laneMode l = 2 then 7 else 14) →
    ∃ t : State, exec (.laneAdaptConverged l coeffs) s = .next t ∧ t.laneState l = 3 ∧ t.reg Ix.laneRxCoeff (l + 1) = leNat (coeffs.take n) ∧
      t.reg Ix.laneRxAnchor (l + 1) = leNat (coeffs.take n) ∧ t.lane l = { s.lane l with entered := s.rawTotal } ∧
      s.regsBut t [dictKey Ix.laneState (l + 1), dictKey Ix.laneRxCoeff (l + 1), dictKey Ix.laneRxAnchor (l + 1)] ∧
      t = { s with dict := t.dict, ln := t.ln }) ∧
  (∀ (s : State) (l : Nat) (i : Instr), s.portPresent l = true →
      (i = .laneSignalLoss l ∧ (s.laneState l = 2 ∨ s.laneState l = 3)) ∨
      (i = .laneAdaptTimeout l ∧ s.laneState l = 2 ∧
        State.ns (s.reg Ix.laneAdaptTimeout (l + 1) * 1000000) ≤ s.since (s.lane l).entered) ∨
      (i = .laneLockTimeout l ∧ s.laneState l = 3 ∧
        State.ns (s.reg Ix.laneLockTimeout (l + 1) * 1000000) ≤ s.since (s.lane l).entered) →
    ∃ t : State, exec i s = .next t ∧ t.laneState l = 1 ∧
      t.lane l = { s.lane l with
        backoff := some (s.rawTotal, 2 ^ min (s.lane l).failures 6), failures := (s.lane l).failures + 1, entered := s.rawTotal } ∧
      t.reg Ix.laneStatus (l + 1) = setBit (s.reg Ix.laneStatus (l + 1)) 5 ∧
      t.reg Ix.laneBackoffs (l + 1) = min (s.reg Ix.laneBackoffs (l + 1) + 1) 0xFFFFFFFF ∧
      s.regsBut t [dictKey Ix.laneState (l + 1), dictKey Ix.laneStatus (l + 1), dictKey Ix.laneBackoffs (l + 1)] ∧
      t = { s with dict := t.dict, ln := t.ln }) ∧
  (∀ (s : State) (p : Nat) (an : Bool), s.portPresent p = true → s.reg Ix.portMode (p + 1) ≠ 0 → s.reg Ix.portMode (p + 1) ≠ 8 →
      s.reg Ix.portMode (p + 1) ≠ 1 ∨ s.reg Ix.laneAnEnable (p + 1) = 0 ∨ an = true →
      (∀ l, l ∈ s.portLanes p → s.laneState l = 3 ∧ State.ns 1000000 ≤ s.since (s.lane l).entered) →
    ∃ t : State, exec (.laneReady p an) s = .next t ∧ t.linkUp p = true ∧ t.portLink p = { idleSince := s.rawTotal } ∧
      ∀ l ∈ s.portLanes p, t.laneState l = 4 ∧ (t.lane l).entered = s.rawTotal ∧ (t.lane l).linkTimer = none ∧ (t.lane l).backoff = none ∧
        (t.lane l).failures = 0 ∧ (t.lane l).refreshFrom = s.rawTotal ∧
        t.reg Ix.laneStatus (l + 1) = clearBit (clearBit (clearBit (s.reg Ix.laneStatus (l + 1)) 0) 1) 5) ∧
  (∀ (s : State) (l : Nat), s.portPresent l = true → s.laneState l = 4 →
    (s.inQuiet l = true → exec (.laneSignalLoss l) s = .next s) ∧
    (s.inQuiet l = false → ∃ t : State, exec (.laneSignalLoss l) s = .next t ∧ left s t l 1 ∧
      ∀ p m, s.lanePort l = some p → m ∈ s.portLanes p → m ≠ l → s.laneState m = 4 →
        left s t m 3 ∧ t.reg Ix.laneRxAnchor (m + 1) = s.reg Ix.laneRxCoeff (m + 1)) ∧
    (∃ t : State, exec (.laneBlockLockLoss l) s = .next t ∧ left s t l 2 ∧
      t.reg Ix.laneRxCoeff (l + 1) = s.reg Ix.laneRxAnchor (l + 1) ∧
      ∀ p m, s.lanePort l = some p → m ∈ s.portLanes p → m ≠ l → s.laneState m = 4 → left s t m 3)) ∧
  (∀ (s : State) (l ms : Nat) (t0 : Stamp), s.portPresent l = true → (s.lane l).backoff = some (t0, ms) →
      State.ns (ms * 1000000) ≤ s.since t0 →
    ∃ t : State, exec (.laneBackoffEnd l) s = .next t ∧ t.lane l = { s.lane l with backoff := none } ∧
      t.reg Ix.laneStatus (l + 1) = clearBit (s.reg Ix.laneStatus (l + 1)) 5 ∧ s.regsBut t [dictKey Ix.laneStatus (l + 1)] ∧
      t = { s with dict := t.dict, ln := t.ln }) ∧
  (∀ (s : State) (l : Nat) (t0 : Stamp), s.portPresent l = true → (s.lane l).linkTimer = some t0 →
      State.ns (s.reg Ix.laneLinkupTimeout (l + 1) * 1000000) ≤ s.since t0 →
    ∃ t : State, exec (.laneLinkupTimeout l) s = .next t ∧ t.lane l = { s.lane l with linkTimer := none } ∧
      t.reg Ix.laneStatus (l + 1) = setBit (s.reg Ix.laneStatus (l + 1)) (if (s.lane l).signalSeen then 1 else 0))

/-- R400 to R408: the idle guard begins without frame data; a refresh period records the anchors where guard time and code words were good; a
coefficient at its window's edge goes back to its anchor; a port's transmit direction sleeps only when it may and wakes when something waits;
native ports refresh their quiet; received sleep begins and ends; the eye margin and the PRBS checker follow the lane. -/
def Obligations.LaneUpkeepAndSleep : Prop :=
  let adapted (s t : State) (l : Nat) (coeffs : List Byte) : Prop :=
    ∀ i, i < 14 → t.reg Ix.laneRxCoeff (l + 1) / 256 ^ i % 256 =
      (if (s.reg Ix.laneAnchorWindow (l + 1) : Int) ≤
            (State.coeffAt (leNat coeffs) i - State.coeffAt (s.reg Ix.laneRxAnchor (l + 1)) i).natAbs
        then s.reg Ix.laneRxAnchor (l + 1) / 256 ^ i % 256 else (coeffs.getD i 0#8).toNat)
  let woken (s t : State) (l : Nat) : Prop :=
    (t.lane l).rxAsleep = false ∧ (t.lane l).quiet = none ∧
      ((s.lane l).rxAsleep = true → t.reg Ix.laneStatus (l + 1) = clearBit (s.reg Ix.laneStatus (l + 1)) 3 ∧
        t.reg Ix.laneRxSleepTime (l + 1) = (s.reg Ix.laneRxSleepTime (l + 1) + s.since (s.lane l).rxSince / 65536) % 2 ^ 64)
  (∀ (s : State) (l : Nat), s.portPresent l = true → s.laneState l = 4 → (s.lane l).guard = false →
      (∀ p ∈ s.portsOfLane l, s.rxFrame? (State.macKey p false) = none) →
      State.ns (s.reg Ix.laneIdleGuardTime (l + 1) * 1000) ≤ s.since (s.lane l).lastData →
    ∃ t : State, exec (.idleGuard l) s = .next t ∧ t.lane l = { s.lane l with guard := true, guardSince := s.rawTotal } ∧
      t.reg Ix.laneStatus (l + 1) = setBit (s.reg Ix.laneStatus (l + 1)) 2 ∧ s.regsBut t [dictKey Ix.laneStatus (l + 1)] ∧
      t = { s with dict := t.dict, ln := t.ln }) ∧
  (∀ (s : State) (l period : Nat) (coeffs : List Byte), s.portPresent l = true → s.laneState l = 4 →
      period = State.ns (s.reg Ix.laneAnchorRefresh (l + 1) * 1000000000) → period ≠ 0 → period ≤ s.since (s.lane l).refreshFrom →
      s.lanePort l = some l → s.laneMode l ∉ [1, 2] → coeffs.length = 14 → (coeffs.headD 0#8).toNat < 32 →
    ∃ t : State, exec (.laneAnchorRefresh l coeffs) s = .next t ∧
      (t.lane l).refreshFrom = s.rawTotal ∧ (t.lane l).guardTime = 0 ∧ (t.lane l).fecAt = s.reg Ix.fecUncorrectedCw (l + 1) ∧
      ((s.lane l).rxAsleep = true → t.reg Ix.laneRxCoeff (l + 1) = s.reg Ix.laneRxCoeff (l + 1)) ∧
      ((s.lane l).rxAsleep = false → adapted s t l coeffs) ∧
      t.reg Ix.laneRxAnchor (l + 1) =
        (if s.guardTotal l * 10 < period ∧ s.reg Ix.fecUncorrectedCw (l + 1) = (s.lane l).fecAt then t.reg Ix.laneRxCoeff (l + 1)
         else s.reg Ix.laneRxAnchor (l + 1))) ∧
  (∀ (s : State) (l : Nat), s.portPresent l = true → s.inReset (l / 32) = false →
    exec (.laneAnchorRetake l) s = .next ((s.setReg Ix.laneRxAnchor (l + 1) (s.reg Ix.laneRxCoeff (l + 1))).reply {})) ∧
  (∀ (s : State) (p : Nat), s.portPresent p = true →
    (s.maySleep p = false → exec (.portTxSleep p) s = .next s) ∧
    (s.maySleep p = true → s.reg Ix.portMode (p + 1) < 6 → s.reg Ix.portMode (p + 1) ≠ 0 →
      ∃ t : State, exec (.portTxSleep p) s = .next t ∧
        t.portLink p = { s.portLink p with asleep := true, wakeDone := none, quietFrom := s.rawTotal } ∧ (t.lane p).txSince = s.rawTotal ∧
        t.reg Ix.laneStatus (p + 1) = setBit (s.reg Ix.laneStatus (p + 1)) 4 ∧ s.regsBut t [dictKey Ix.laneStatus (p + 1)] ∧
        t = { s with dict := t.dict, ln := t.ln }) ∧
    (s.nothingToSend p = true → exec (.portTxWake p) s = .next s) ∧
    (s.nothingToSend p = false → (s.portLink p).asleep = true →
      ∃ t : State, exec (.portTxWake p) s = .next t ∧ t.reg Ix.portTxWakes (p + 1) = (s.reg Ix.portTxWakes (p + 1) + 1) % 2 ^ 64 ∧
        t.portLink p = { s.portLink p with
          asleep := false, wakeDone := some (s.rawTotal + State.ns (wakeNs (s.reg Ix.portMode (p + 1)))) } ∧
        (s.reg Ix.portMode (p + 1) < 6 → t.reg Ix.laneStatus (p + 1) = clearBit (s.reg Ix.laneStatus (p + 1)) 4 ∧
          t.reg Ix.laneTxSleepTime (p + 1) = (s.reg Ix.laneTxSleepTime (p + 1) + s.since (s.lane p).txSince / 65536) % 2 ^ 64)) ∧
    (s.nothingToSend p = false → (s.portLink p).asleep = false → exec (.portTxWake p) s = .next s) ∧
    (s.reg Ix.portMode (p + 1) = 5 → (s.portLink p).asleep = true →
        State.ns (s.reg Ix.portQuietPeriod (p + 1) * 1000) ≤ s.since (s.portLink p).quietFrom →
      exec (.quietRefresh p) s = .next (s.setPortLink p { s.portLink p with quietFrom := s.rawTotal + State.ns 2000 }))) ∧
  (∀ (s : State) (l tq : Nat), s.portPresent l = true → s.laneMode l = 5 → s.laneState l = 4 →
    ((s.portsOfLane l).any s.ringPort = false →
      ∃ t : State, exec (.quietReceive l tq false) s = .next t ∧ (t.lane l).quiet = some (tq, s.rawTotal) ∧ (t.lane l).rxAsleep = true ∧
        s.regsBut t [dictKey Ix.laneStatus (l + 1)]) ∧
    ((s.portsOfLane l).any s.ringPort = true → exec (.quietReceive l tq false) s = .next s) ∧
    (∀ q t0, (s.lane l).quiet = some (q, t0) →
      exec (.quietReceive l tq true) s = .next (s.setLane l { s.lane l with quiet := some (q, s.rawTotal) })) ∧
    (∃ t : State, exec (.wakeSetReceive l) s = .next t ∧ woken s t l)) ∧
  (∀ (s : State) (p : Nat), s.portPresent p = true → s.linkUp p = true → s.reg Ix.portMode (p + 1) ≠ 1 → s.reg Ix.portMode (p + 1) ≠ 5 →
    (s.ringPort p = false → ∃ t : State, exec (.receivedLpi p true) s = .next t ∧ ∀ l ∈ s.portLanes p, (t.lane l).rxAsleep = true ∧
      ((s.lane l).rxAsleep = false → (t.lane l).rxSince = s.rawTotal ∧
        t.reg Ix.laneStatus (l + 1) = setBit (s.reg Ix.laneStatus (l + 1)) 3)) ∧
    (s.ringPort p = true → exec (.receivedLpi p true) s = .next s) ∧
    (∃ t : State, exec (.receivedLpi p false) s = .next t ∧ ∀ l ∈ s.portLanes p, woken s t l)) ∧
  (∀ (s : State) (l v h : Nat) (coeffs : List Byte), s.portPresent l = true → s.laneState l = 4 → v < 65536 → h < 65536 →
      State.ns 100000000 ≤ s.since (s.lane l).eyeAt →
    ∃ t : State, exec (.eyeMarginUpdate l v h coeffs) s = .next t ∧ t.reg Ix.laneEyeMargin (l + 1) = v + 65536 * h ∧
      (t.lane l).eyeAt = s.rawTotal ∧
      ((s.lane l).rxAsleep = true → s.regsBut t [dictKey Ix.laneEyeMargin (l + 1)]) ∧
      ((s.lane l).rxAsleep = false → s.laneMode l ∉ [1, 2] → coeffs.length = 14 → (coeffs.headD 0#8).toNat < 32 → adapted s t l coeffs)) ∧
  (∀ (s : State) (l : Nat) (errors : List Bool), s.portPresent l = true → s.laneState l = 5 → s.reg Ix.laneTestMode (l + 1) = 1 →
    exec (.prbsCheck l errors) s = .next (errors.foldl (State.prbsBit l) s)) ∧
  (∀ (s : State) (l : Nat) (e : Bool), s.portPresent l = true → s.laneState l = 5 → s.reg Ix.laneTestMode (l + 1) = 1 →
    ∃ t : State, exec (.prbsCheck l [e]) s = .next t ∧
      (s.reg Ix.lanePrbsLock (l + 1) ≠ 0 →
        t.reg Ix.lanePrbsErrors (l + 1) =
          (if e then (s.reg Ix.lanePrbsErrors (l + 1) + 1) % 2 ^ 64 else s.reg Ix.lanePrbsErrors (l + 1)) ∧
        (t.reg Ix.lanePrbsLock (l + 1) = 0 ↔ 64 ≤ (((e :: (s.lane l).prbsWin).take 1024).filter id).length)) ∧
      (s.reg Ix.lanePrbsLock (l + 1) = 0 → t.reg Ix.lanePrbsErrors (l + 1) = s.reg Ix.lanePrbsErrors (l + 1) ∧
        (t.reg Ix.lanePrbsLock (l + 1) = 1 ↔ e = false ∧ 63 ≤ (s.lane l).prbsRun)))

/-! ### Chapters 14 to 17: memory, non-volatile store, ageing, supply -/

/-- R412, R413, R416 to R419: a drift above 2 % retrains, and the third failure in a row fails the channel; a failed channel is
counted, and MEM_STATE follows the channels; a restore ends OK with its poison, or fails; a temperature poll stores the code and
logs heat once a minute; a scrub pass counts what it corrects and repairs or marks what it cannot; a refresh changes nothing. -/
def Obligations.MemoryIsland : Prop :=
  let fails (s t : State) (c : Nat) : Prop :=
    t.reg Ix.memChState (c + 1) = 1 ∧ t.reg Ix.memChFails (c + 1) = min (s.reg Ix.memChFails (c + 1) + 1) 0xFFFFFFFF ∧
      (t.memChan c).retrainFails = 0 ∧ (t.memChan c).uncorrectable = [] ∧ State.partMem c ∈ t.isl.faultParts
  let shown (t : State) : Prop :=
    t.reg Ix.memState 0 =
      (if t.reg Ix.memChState 1 ≠ 0 ∧ t.reg Ix.memChState 2 ≠ 0 ∨ t.reg Ix.memChState 3 ≠ 0 ∧ t.reg Ix.memChState 4 ≠ 0 ∨
          t.reg Ix.memChState 5 ≠ 0 ∧ t.reg Ix.memChState 6 ≠ 0 ∨ t.reg Ix.memChState 7 ≠ 0 ∧ t.reg Ix.memChState 8 ≠ 0 then 4
       else if (List.range 8).any (fun k => t.reg Ix.memChState (k + 1) != 0) then 3 else 2)
  (∀ (s : State) (c drift : Nat) (ok : Bool), c < 8 → s.memServes c = true →
      State.ns (s.reg Ix.memRetrainPeriod 0 * 1000000) ≤ s.since (s.memChan c).checked →
    (drift ≤ 20000 → (s.memChan c).retrainFails < 3 →
      exec (.memRetrainCheck c drift ok) s = .next (s.setMemChan c { s.memChan c with checked := s.rawTotal })) ∧
    (20000 < drift → ok = true ∨ (s.memChan c).retrainFails < 2 →
      ∃ t : State, exec (.memRetrainCheck c drift ok) s = .next t ∧
        t.memChan c = { s.memChan c with checked := s.rawTotal, retrainFails := if ok then 0 else (s.memChan c).retrainFails + 1 } ∧
        t.reg Ix.memRetrains (c + 1) = min (s.reg Ix.memRetrains (c + 1) + 1) 0xFFFFFFFF ∧
        s.regsBut t [dictKey Ix.memRetrains (c + 1)] ∧ t = { s with dict := t.dict, mm := t.mm }) ∧
    (20000 < drift → ok = false → 2 ≤ (s.memChan c).retrainFails →
      ∃ t : State, exec (.memRetrainCheck c drift ok) s = .next t ∧ fails s t c ∧ shown t ∧
        t.reg Ix.memRetrains (c + 1) = min (s.reg Ix.memRetrains (c + 1) + 1) 0xFFFFFFFF)) ∧
  (∀ (s : State) (c code : Nat) (hot : Bool), c < 8 → code < 256 → s.memServes c = true → State.ns 16000000 ≤ s.since (s.memChan c).polled →
    ∃ t : State, exec (.memTempPoll c code hot) s = .next t ∧ t.reg Ix.memTemp (c + 1) = code ∧ (t.memChan c).polled = s.rawTotal ∧
      (hot = true → (s.memChan c).hotLogged = none → (t.memChan c).hotLogged = some s.rawTotal) ∧
      (∀ t0, hot = true → (s.memChan c).hotLogged = some t0 → 60 * State.second ≤ s.since t0 → (t.memChan c).hotLogged = some s.rawTotal) ∧
      (∀ t0, (s.memChan c).hotLogged = some t0 → s.since t0 < 60 * State.second → (t.memChan c).hotLogged = some t0) ∧
      (hot = false → (t.memChan c).hotLogged = (s.memChan c).hotLogged ∧ s.regsBut t [dictKey Ix.memTemp (c + 1)] ∧
        t = { s with dict := t.dict, mm := t.mm })) ∧
  (∀ (s : State) (c why : Nat), c < 8 →
    (s.reg Ix.memState 0 ≠ 0 → s.memFailed c = false →
        (why = 0 ∧ s.reg Ix.memState 0 = 1) ∨ (why = 1 ∧ 2 ≤ s.reg Ix.memState 0) ∨
        (why = 2 ∧ s.reg Ix.memChFailLimit 0 ≤ ((s.memChan c).uncorrectable.filter fun t => decide (s.since t ≤ State.second)).length) →
      ∃ t : State, exec (.memChannelFail c why) s = .next t ∧ fails s t c ∧ (2 ≤ s.reg Ix.memState 0 → shown t)) ∧
    (s.memFailed c = true → exec (.memChannelFail c why) s = .next s)) ∧
  (∀ (s : State) (c : Nat), c < 8 →
    exec (.memChRestore c) s = .next ((if s.memFailed c then s.setReg Ix.memChState (c + 1) 2 else s).reply {})) ∧
  (∀ (s : State) (c : Nat), c < 8 → s.reg Ix.memChState (c + 1) = 2 → s.sy.retaining = false →
    (exec (.memRestoreDone c false) s = .next (s.setReg Ix.memChState (c + 1) 1)) ∧
    (∃ t : State, exec (.memRestoreDone c true) s = .next t ∧ t.reg Ix.memChState (c + 1) = 0 ∧ (2 ≤ s.reg Ix.memState 0 → shown t) ∧
      t.isl.faultParts = s.isl.faultParts.filter (· ≠ State.partMem c) ∧ tget t.mm.poison c = some [] ∧
      (∀ w, s.mm.mirror ≤ 64 * w → s.memChannel (64 * w) = c → w ∉ t.mm.badWords) ∧
      (∀ w, 64 * w < s.mm.mirror ∨ s.memChannel (64 * w) ≠ c → (w ∈ t.mm.badWords ↔ w ∈ s.mm.badWords)))) ∧
  (∀ (s : State) (corrected : List (Nat × Nat)), 2 ≤ s.reg Ix.memState 0 → s.sy.retaining = false →
      s.mm.scrubbed + s.reg Ix.memScrubPeriod 0 * State.second ≤ s.rawTotal →
    ∃ t : State, exec (.memScrub corrected []) s = .next t ∧ t.mm = { s.mm with scrubbed := s.rawTotal } ∧
      t.reg Ix.memScrubPasses 0 = min (s.reg Ix.memScrubPasses 0 + 1) 0xFFFFFFFF ∧
      (∀ c, c < 8 → t.reg Ix.memCorrected (c + 1) =
        corrected.foldl (fun n p => if p.1 = c ∧ s.memServes c then (n + p.2) % 2 ^ 64 else n) (s.reg Ix.memCorrected (c + 1)))) ∧
  (∀ (s : State) (w copy c : Nat), s.reg Ix.memState 0 ≥ 2 → s.sy.retaining = false →
      s.mm.scrubbed + s.reg Ix.memScrubPeriod 0 * State.second ≤ s.rawTotal → 64 * w < s.memLimit → s.memServes c = true →
    (s.mm.mirror ≤ 64 * w → c = s.memChannel (64 * w) →
      ∃ t : State, exec (.memScrub [] [(w, copy)]) s = .next t ∧ w ∈ t.mm.badWords ∧
        t.reg Ix.memUncorrectable (c + 1) = (s.reg Ix.memUncorrectable (c + 1) + 1) % 2 ^ 64) ∧
    (64 * w < s.mm.mirror → c = s.memChannel (64 * w) + copy % 2 →
      ∃ t : State, exec (.memScrub [] [(w, copy)]) s = .next t ∧
        t.reg Ix.memUncorrectable (c + 1) = (s.reg Ix.memUncorrectable (c + 1) + 1) % 2 ^ 64 ∧
        (s.memUnserved (s.memChannel (64 * w) + (copy + 1) % 2) = false →
          t.mm.badWords = s.mm.badWords ∧ t.reg Ix.memMirrorRepairs (c + 1) = (s.reg Ix.memMirrorRepairs (c + 1) + 1) % 2 ^ 64) ∧
        (s.memUnserved (s.memChannel (64 * w) + (copy + 1) % 2) = true → w ∈ t.mm.badWords))) ∧
  (∀ (s : State) (c : Nat), exec (.memRefresh c) s = .next s)

/-- R423 to R426, R429, R430, R434, R435, R437 to R442, R446: a firmware command starts its job, a unit that reads back well moves it on and four differing read-backs
fail it, and it ends DONE or FAILED; a fuse burns only with its complement, within its bound and outside a supply warning; the
owner key locks; a quote is refused busy, limited or exhausted, latches its nonce and instants, commits the next leaf, and completes;
the next bottom tree is built when it is due. -/
def Obligations.NonVolatileAndQuotes : Prop :=
  (∀ (s : State) (i : Instr) (code : Nat), (i, code) ∈ [(Instr.fwInstall, 1), (.fwSelect, 2), (.fwErase, 3)] →
    (s.nv.fwJob.isSome = true → exec i s = .next (s.reply { abort := 0x0401 })) ∧
    (s.nv.fwJob = none → ∃ t : State, exec i s = .next t ∧ t.nv = { s.nv with fwJob := some (s.fwJobOf code) } ∧ t.answer = {} ∧
      t.reg Ix.fwStatus 0 = (if s.reg Ix.nvState 0 = 1 ∧ (s.fwJobOf code).left ≠ 0 ∧ (s.fwJobOf code).cause = 0 then 2 else 1) ∧
      s.regsBut t [dictKey Ix.fwStatus 0] ∧ t = { s with dict := t.dict, nv := t.nv, answer := t.answer })) ∧
  (∀ s : State, s.fwJobOf 3 = { code := 3, data := noMagic (s.fwSlot s.fwTarget), left := 1 } ∧
    (fwVerifies s.nv.revoked s.nv.minSecurity (s.fwSlot s.fwTarget) = true →
      s.fwJobOf 2 = { code := 2, data := withHead (s.fwSlot s.fwTarget) fwMagic s.fwNextSeq, left := 1 }) ∧
    (fwVerifies s.nv.revoked s.nv.minSecurity (s.fwSlot s.fwTarget) = false → s.fwJobOf 2 = { code := 2, data := [], left := 0, cause := 4 }) ∧
    (fwBodyMax < leNat ((s.tableBytes Ix.fwStage 12).drop 8) → s.fwJobOf 1 = { code := 1, data := [], left := 0, cause := 2 }) ∧
    (∀ im, leNat ((s.tableBytes Ix.fwStage 12).drop 8) ≤ fwBodyMax →
        im = s.tableBytes Ix.fwStage (132 + leNat ((s.tableBytes Ix.fwStage 12).drop 8) + hssBytes) →
      (fwVerifies s.nv.revoked s.nv.minSecurity im = false → s.fwJobOf 1 = { code := 1, data := [], left := 0, cause := 1 }) ∧
      (fwVerifies s.nv.revoked s.nv.minSecurity im = true →
        s.fwJobOf 1 = { code := 1, data := withHead im fwMagic s.fwNextSeq, left := nvUnits (fwLength im) }))) ∧
  (∀ (s : State) (j : NvJob), s.nv.fwJob = some j →
    (j.left = 0 → j.cause = 0 → ∃ t : State, exec .fwCommandDone s = .next t ∧ t.nv = { s.nv with fwJob := none } ∧
      t.reg Ix.fwStatus 0 = 3 ∧ s.regsBut t [dictKey Ix.fwStatus 0]) ∧
    (j.cause ≠ 0 → ∃ t : State, exec .fwCommandDone s = .next t ∧ t.nv = { s.nv with fwJob := none } ∧ t.reg Ix.fwStatus 0 = 4 ∧
      t.reg Ix.fwFailCause 0 = j.cause ∧ s.regsBut t [dictKey Ix.fwStatus 0, dictKey Ix.fwFailCause 0]) ∧
    (j.left ≠ 0 → j.cause = 0 → s.reg Ix.nvState 0 = 1 → exec (.nvUnitWrite .firmware true) s = .next s) ∧
    (j.left ≠ 0 → j.cause = 0 → s.reg Ix.nvState 0 ≠ 1 → ∀ ok : Bool,
      ∃ t : State, exec (.nvUnitWrite .firmware ok) s = .next t ∧
        t.nv.fwJob = some (if ok then { j with left := j.left - 1, retries := 0 }
          else if j.retries < 3 then { j with retries := j.retries + 1 } else { j with cause := 3 }) ∧
        (ok = true ∨ j.retries < 3 → t.reg Ix.nvBytesWritten 0 = (s.reg Ix.nvBytesWritten 0 + 32) % 2 ^ 64) ∧
        (ok = true → j.left = 1 → t.fwSlot s.fwTarget = j.data) ∧ (ok = false → t.nv.fwSlots = s.nv.fwSlots))) ∧
  (∀ (s : State) (j : NvJob), s.nv.imgJob = some j → j.left ≠ 0 → j.cause = 0 → s.reg Ix.nvState 0 ≠ 1 →
    ∃ t : State, exec (.nvUnitWrite .image true) s = .next t ∧ t.nv.imgJob = some { j with left := j.left - 1, retries := 0 } ∧
      (j.left = 1 → t.imgSlot s.imgTarget = j.data) ∧
      t.reg Ix.imageActiveSlot 0 = (if j.left = 1 ∧ (j.code = 1 ∨ j.code = 7) then s.imgTarget else s.reg Ix.imageActiveSlot 0)) ∧
  (∀ (s : State) (j : NvJob), s.nv.imgJob = some j → j.left ≠ 0 → j.cause = 0 → s.reg Ix.nvState 0 ≠ 1 →
    ∃ t : State, exec (.nvUnitWrite .image false) s = .next t ∧ t.nv.imgSlots = s.nv.imgSlots ∧
      t.nv.imgJob = some (if j.retries < 3 then { j with retries := j.retries + 1 } else { j with cause := 4 })) ∧
  (∀ (s : State) (v c : Nat), v + c ≠ 255 →
    exec (.rootKeyRevoke v c) s = .next (s.reply { abort := 0x0204 }) ∧
    exec (.fwMinSecurityRaise v c) s = .next (s.reply { abort := 0x0204 })) ∧
  (∀ (s : State) (v c : Nat), v + c = 255 →
    (fwRoot s.booted ≤ v → exec (.rootKeyRevoke v c) s = .next (s.reply { abort := 0x0301 })) ∧
    (v < fwRoot s.booted → s.reg Ix.supplyState 0 = 1 → exec (.rootKeyRevoke v c) s = .next (s.reply { abort := 0x0401 })) ∧
    (v < fwRoot s.booted → s.reg Ix.supplyState 0 ≠ 1 →
      ∃ t : State, exec (.rootKeyRevoke v c) s = .next t ∧ bit t.nv.revoked v = true ∧
        (∀ k, k ≠ v → bit t.nv.revoked k = bit s.nv.revoked k) ∧ t.answer = {} ∧
        (bit s.nv.revoked v = true → t = s.reply {}) ∧
        (bit s.nv.revoked v = false → t = (({ s with nv := { s.nv with revoked := setBit s.nv.revoked v } } : State).event
          Ix.rootKeyRevoke 1 55 [(1, v)]).reply {})) ∧
    (v < s.nv.minSecurity ∨ fwSecurity s.booted < v ∨ 63 < v → exec (.fwMinSecurityRaise v c) s = .next (s.reply { abort := 0x0301 })) ∧
    (s.nv.minSecurity ≤ v → v ≤ fwSecurity s.booted → v ≤ 63 → s.reg Ix.supplyState 0 = 1 →
      exec (.fwMinSecurityRaise v c) s = .next (s.reply { abort := 0x0401 })) ∧
    (s.nv.minSecurity ≤ v → v ≤ fwSecurity s.booted → v ≤ 63 → s.reg Ix.supplyState 0 ≠ 1 →
      ∃ t : State, exec (.fwMinSecurityRaise v c) s = .next t ∧ t.nv.minSecurity = v ∧ t.nv.revoked = s.nv.revoked ∧ t.answer = {} ∧
        (v = s.nv.minSecurity → t = s.reply {}) ∧
        (v ≠ s.nv.minSecurity → t = (({ s with nv := { s.nv with minSecurity := v } } : State).event Ix.rootKeyRevoke 1 55 [(1, v)]).reply {}))) ∧
  (∀ (s : State) (key : List Byte), Ix.ownerKey ∉ s.nv.locked → key.length = 60 →
    (hssKeyOk key = false → exec (.ownerKeyWrite key) s = .next (s.reply { abort := 0x0301 })) ∧
    (hssKeyOk key = true → ∃ t : State, exec (.ownerKeyWrite key) s = .next t ∧ t.reg Ix.ownerKey 0 = leNat key ∧ Ix.ownerKey ∈ t.nv.locked ∧
      s.regsBut t [dictKey Ix.ownerKey 0] ∧ ∀ again, exec (.ownerKeyWrite again) t = .next (t.reply { abort := 0x0203 }))) ∧
  (∀ s : State,
    (s.reg Ix.quoteStatus 0 ∈ [1, 2, 4] → exec .quoteRequest s = .next (s.reply { abort := 0x0401 })) ∧
    (s.reg Ix.quoteStatus 0 ∉ [1, 2, 4] →
      (∀ t0, s.nv.lastQuote = some t0 → s.since t0 < s.reg Ix.quoteMinInterval 0 * (State.second / 1000) →
        exec .quoteRequest s = .next ((s.setReg Ix.quoteStatus 0 5).reply {})) ∧
      ((∀ t0, s.nv.lastQuote = some t0 → s.reg Ix.quoteMinInterval 0 * (State.second / 1000) ≤ s.since t0) → s.nv.nextLeaf < 1073741824 →
        ∃ (t : State) (q : QuoteJob), exec .quoteRequest s = .next t ∧ t.nv = { s.nv with quote := some q } ∧
          q.nonce = leBytes 32 (s.reg Ix.quoteNonce 0) ∧ q.domain = s.reg Ix.quoteDomain 0 ∧ q.raw = s.raw ∧ q.sync = time96 (s.syncNow q.domain) ∧
          q.watch = s.quoteWatch ∧ q.leaf = none ∧ q.body = [] ∧
          t.reg Ix.quoteStatus 0 = 1 ∧ s.regsBut t [dictKey Ix.quoteStatus 0]) ∧
      ((∀ t0, s.nv.lastQuote = some t0 → s.reg Ix.quoteMinInterval 0 * (State.second / 1000) ≤ s.since t0) → 1073741824 ≤ s.nv.nextLeaf →
        ∃ t : State, exec .quoteRequest s = .next t ∧ t.reg Ix.quoteStatus 0 = 6 ∧ t.nv.quote = s.nv.quote))) ∧
  (∀ (s : State) (q : QuoteJob), s.nv.quote = some q → q.leaf = none → s.treeReady = true → s.reg Ix.nvState 0 ≠ 1 →
    ∃ t : State, exec (.nvUnitWrite .leaf true) s = .next t ∧ t.nv.nextLeaf = s.nv.nextLeaf + 1 ∧ t.reg Ix.quoteStatus 0 = 2 ∧
      (t.nv.quote.bind fun q => q.leaf) = some s.nv.nextLeaf) ∧
  (∀ (s : State) (q : QuoteJob), s.nv.quote = some q → q.leaf = none → s.treeReady = true → s.reg Ix.nvState 0 ≠ 1 →
    ∃ t : State, exec (.nvUnitWrite .leaf false) s = .next t ∧ t.nv.nextLeaf = s.nv.nextLeaf ∧
      (q.retries < 3 → t.reg Ix.quoteStatus 0 = 2 ∧ (t.nv.quote.map fun q => (q.leaf, q.retries)) = some (none, q.retries + 1)) ∧
      (3 ≤ q.retries → t.reg Ix.quoteStatus 0 = 7 ∧ t.nv.quote = none)) ∧
  (∀ (s : State) (q : QuoteJob) (leaf : Nat), s.nv.quote = some q → q.leaf = some leaf → s.reg Ix.nvState 0 ≠ 1 →
    ∃ t : State, exec .quoteSigned s = .next t ∧ t.nv.quote = none ∧ t.nv.lastQuote = some s.rawTotal ∧ t.reg Ix.quoteStatus 0 = 3 ∧
      t.nv.quoteOut = patch q.body 12 (leBytes 4 leaf) ++ leBytes 4 hssBytes ++
        (List.range hssBytes).map (Config.quoteSignature leaf (patch q.body 12 (leBytes 4 leaf))) ∧
      t.reg Ix.quoteCount 0 = (s.reg Ix.quoteCount 0 + 1) % 2 ^ 64 ∧ t.nv.nextLeaf = s.nv.nextLeaf ∧
      s.regsBut t [dictKey Ix.quoteStatus 0, dictKey Ix.quoteCount 0]) ∧
  (∀ s : State, s.treeDue = true ↔ (s.nv.builtTree < 32767 ∧ (s.nv.builtTree < s.nv.nextLeaf / 32768 ∨
    (s.nv.nextLeaf / 32768 = s.nv.builtTree ∧ 16384 < s.nv.nextLeaf % 32768)))) ∧
  (∀ (s : State) (q : QuoteJob) (ok : Bool), s.nv.quote = some q → q.leaf = none → s.treeReady = false → s.reg Ix.nvState 0 ≠ 1 →
    ∃ t : State, exec (.nvUnitWrite .leaf ok) s = .next t ∧ t.reg Ix.quoteStatus 0 = 2 ∧ (t.nv.quote.bind fun q => q.leaf) = none ∧
      t.nv.nextLeaf = s.nv.nextLeaf ∧ s.regsBut t [dictKey Ix.quoteStatus 0]) ∧
  (∀ s : State, (s.treeDue = true → s.reg Ix.nvState 0 ≠ 1 →
      ∃ t : State, exec .bottomTreeBuild s = .next t ∧ t.nv = { s.nv with builtTree := s.nv.builtTree + 1 } ∧
        t.reg Ix.nvBytesWritten 0 = (s.reg Ix.nvBytesWritten 0 + 32) % 2 ^ 64 ∧ s.regsBut t [dictKey Ix.nvBytesWritten 0]) ∧
    (s.treeDue = false ∨ s.reg Ix.nvState 0 = 1 → exec .bottomTreeBuild s = .next s))

/-- R424, R448 to R450, R454 to R457, R487: the benchmarks' largest degradation is an island's δ; each second adds its wear; the hourly write waits while writes are
held; the voltage loop steps by 5 mV within 700 to 820 mV; a sample below the warning level starts a dip and
holds NV writes, a dip ends above the level with its hysteresis, the reset level resets; heat warns with its hysteresis and trips. -/
def Obligations.AgeingAndSupply : Prop :=
  let down (s t : State) (r : Nat) (busy : Bool) : Prop :=
    t.sy.hold = some .rail ∧ (busy = false → t.nv.cause = 3 ∧ t.nv.causeRail = r) ∧ (busy = true → t.nv.cause = s.nv.cause)
  (∀ (s : State) (i : Nat) (a b : Int), s.islandPresent i = true → a ≤ b → -2147483648 ≤ b → b ≤ 2147483647 → s.sy.hold = none →
      State.hour ≤ s.since s.ag.benchAt →
    ∃ t : State, exec (.benchmarkMeasure [(i, a), (i, b)]) s = .next t ∧ t.regI Ix.islandBenchDelta (i + 1) 4 = b ∧
      s.regsBut t [dictKey Ix.islandBenchDelta (i + 1)] ∧ t = { s with dict := t.dict, ag := { s.ag with benchAt := s.rawTotal } }) ∧
  (∀ (s u : State) (temps : List Int) (rails : List Nat), u = (s.setSensors temps).setRails rails →
    (s.sy.hold = none → State.second ≤ s.since s.ag.secondAt →
      ∃ t : State, exec (.wearIntegrate temps rails) s = .next t ∧ t.ag.seconds = s.ag.seconds + 1 ∧ t.ag.secondAt = s.rawTotal ∧
        (∀ i, u.islandPresent i = true → tgetD t.ag.wear i 0 = tgetD s.ag.wear i 0 +
          wearFactor (u.regI Ix.islandTemp (i + 1) 2) (u.reg Ix.railVoltage ((wearRail i).1 + 1)) (wearRail i).2) ∧
        u.regsBut t [] ∧ t = { u with ag := t.ag }) ∧
    (s.sy.hold ≠ none ∨ s.since s.ag.secondAt < State.second → exec (.wearIntegrate temps rails) s = .next u)) ∧
  (∀ (s u : State), s.sy.hold = none → State.hour ≤ s.since s.ag.hourAt →
      u = { s with ag := { s.ag with hours := s.ag.hours + 1, hourAt := s.rawTotal } } →
    (s.reg Ix.nvState 0 = 1 → s.reg Ix.nvWritesHeld 0 + u.wearBytes ≤ 65536 →
      ∃ t : State, exec .wearHistoryWrite s = .next t ∧ t.nv = { s.nv with wearHeld := true } ∧ t.ag = u.ag ∧
        t.reg Ix.nvWritesHeld 0 = s.reg Ix.nvWritesHeld 0 + u.wearBytes ∧ s.regsBut t [dictKey Ix.nvWritesHeld 0]) ∧
    (s.reg Ix.nvState 0 = 1 → 65536 < s.reg Ix.nvWritesHeld 0 + u.wearBytes →
      ∃ t : State, exec .wearHistoryWrite s = .next t ∧ t.nv = s.nv ∧ t.ag = u.ag ∧
        t.reg Ix.nvHoldOverflow 0 = (s.reg Ix.nvHoldOverflow 0 + 1) % 2 ^ 64 ∧ s.regsBut t [dictKey Ix.nvHoldOverflow 0]) ∧
    (s.reg Ix.nvState 0 ≠ 1 →
      ∃ t : State, exec .wearHistoryWrite s = .next t ∧ t.nv.wear = s.wearNow ∧
        t.nv.days = (if (s.ag.hours + 1) % 24 = 0 then (s.wearNow :: s.nv.days).take 1020 else s.nv.days) ∧
        t.ag.wear = s.ag.wear ∧ t.ag.hours = s.ag.hours + 1 ∧ t.ag.hourAt = s.rawTotal ∧ t.ag.hour = [] ∧ t.ag.seconds = 0)) ∧
  (∀ (s : State) (m : Int) (naks v : Nat), 1 ≤ s.sectors → -32768 ≤ m → m ≤ 32767 → s.su.loopOff = false → s.sy.hold = none →
      s.sy.superDown = false → State.second ≤ s.since s.su.measuredAt → (∀ t0, s.su.moved = some t0 → 10 * State.second ≤ s.since t0) →
      s.reg Ix.avsSetpoint 0 = v →
    ∃ t : State, exec (.avsMeasure [m] naks) s = .next t ∧ t.regI Ix.avsMargin 0 2 = m ∧ t.su.measuredAt = s.rawTotal ∧
      (m < 100 * s.reg Ix.avsMarginTarget 0 → v ≤ 815 → naks < 4 →
        t.reg Ix.avsSetpoint 0 = v + 5 ∧ t.su.settling = some v ∧ t.su.moved = some s.rawTotal) ∧
      (m < 100 * s.reg Ix.avsMarginTarget 0 → 815 < v → t.reg Ix.avsSetpoint 0 = v ∧ t.su.limitLogged = true) ∧
      (100 * s.reg Ix.avsMarginTarget 0 + 200 < m → 705 ≤ v → naks < 4 →
        t.reg Ix.avsSetpoint 0 = v - 5 ∧ t.su.settling = some v ∧ t.su.moved = some s.rawTotal) ∧
      (4 ≤ naks → t.reg Ix.avsSetpoint 0 = v) ∧
      (100 * s.reg Ix.avsMarginTarget 0 ≤ m → m ≤ 100 * s.reg Ix.avsMarginTarget 0 + 200 ∨ v < 705 → t.reg Ix.avsSetpoint 0 = v)) ∧
  (∀ s : State,
    (100 * ((s.reg Ix.railVoltage 1 : Int) - (s.reg Ix.avsSetpoint 0 : Int)).natAbs ≤ s.reg Ix.avsSetpoint 0 →
        (∀ t0, s.su.moved = some t0 → State.second / 1000 ≤ s.since t0) →
      exec .avsStepSettled s = .next { s with su := { s.su with settling := none } }) ∧
    (s.reg Ix.avsSetpoint 0 < 100 * ((s.reg Ix.railVoltage 1 : Int) - (s.reg Ix.avsSetpoint 0 : Int)).natAbs ∨
        (∃ t0, s.su.moved = some t0 ∧ s.since t0 < State.second / 1000) →
      exec .avsStepSettled s = .next s)) ∧
  (∀ (s u : State) (r mv : Nat), r < 7 → s.sy.hold = none → u = s.setRail r mv →
    u.reg Ix.railVoltage (r + 1) = mv ∧
    (s.railLow r mv = false → exec (.railWarning r mv) s = .next u) ∧
    (s.railLow r mv = true → s.railDown r mv = false → s.su.dips = [] →
      ∃ t : State, exec (.railWarning r mv) s = .next t ∧ t.reg Ix.railVoltage (r + 1) = mv ∧
        tget t.su.dips r = some { start := s.rawTotal, least := min ({ start := s.rawTotal } : Dip).least mv, last := s.rawTotal } ∧
        t.reg Ix.supplyDipCount (r + 1) = min (s.reg Ix.supplyDipCount (r + 1) + 1) 0xFFFFFFFF ∧ t.reg Ix.supplyState 0 = 1 ∧ t.reg Ix.nvState 0 = 1) ∧
    (s.railLow r mv = true → s.railDown r mv = true → ∃ t : State, exec (.railWarning r mv) s = .next t ∧ down s t r false) ∧
    (∀ d, tget s.su.dips r = some d → s.railGood r mv = true → State.second / 1000 ≤ s.since d.last →
      ∃ t : State, exec (.railDipEnd r mv) s = .next t ∧
        (terase s.su.dips r ≠ [] → t.su.dips = terase s.su.dips r ∧ t.reg Ix.supplyState 0 = s.reg Ix.supplyState 0 ∧
          t.reg Ix.nvState 0 = s.reg Ix.nvState 0) ∧
        (terase s.su.dips r = [] → s.co.waiting = [] → t.su.dips = [] ∧ t.reg Ix.supplyState 0 = 0 ∧ t.reg Ix.nvState 0 = 0 ∧
          t.nv.heldEvents = [])) ∧
    (∀ d, tget s.su.dips r = some d → s.railGood r mv = false ∨ s.since d.last < State.second / 1000 →
      exec (.railDipEnd r mv) s = .next u) ∧
    (∀ busy, (s.railDown r mv = true → ∃ t : State, exec (.railResetLevel r mv busy) s = .next t ∧ down s t r busy) ∧
      (s.railDown r mv = false → exec (.railResetLevel r mv busy) s = .next u))) ∧
  (∀ (s u : State) (n : Nat) (x : Int), n < 48 → s.sy.hold = none → u = s.setSensor n x →
    ((sensorIslands n).any s.islandPresent = true → -32768 ≤ x → x ≤ 32767 → u.regI Ix.tempSensor (n + 1) 2 = x) ∧
    (16 * u.regI Ix.thermalWarn 0 1 ≤ u.hottest → s.su.hot = false →
      exec (.thermalWarn n x) s = .next (({ u with su := { u.su with hot := true, alert := true } } : State).event Ix.thermalWarn 2 55 [])) ∧
    (u.hottest < 16 * u.regI Ix.thermalWarn 0 1 ∨ s.su.hot = true → exec (.thermalWarn n x) s = .next u) ∧
    (u.hottest < u.tripLevel → exec (.thermalTrip n x) s = .next u) ∧
    (u.tripLevel ≤ u.hottest → ∃ t : State, exec (.thermalTrip n x) s = .next t ∧ t.sy.hold = some .thermal ∧ t.su.alert = true ∧
      t.reg Ix.thermalTrips 0 = min (s.reg Ix.thermalTrips 0 + 1) 0xFFFFFFFF ∧
      (s.reg Ix.nvState 0 ≠ 1 → t.nv.cause = 4 ∧ t.nv.causeRail = n ∧ t.nv.wear = u.wearNow))) ∧
  (∀ (s u : State) (temps : List Int), u = s.setSensors temps →
    exec (.thermalAlertRelease temps) s = .next (if u.hottest ≤ 16 * (u.regI Ix.thermalWarn 0 1 - 3)
      then { u with su := { u.su with hot := false, alert := false } } else u)) ∧
  (∀ (s : State) (w : Nat), s.sy.hold = none → s.sy.superDown = false →
    exec (.pmbusAlert w) s = .next (s.event Ix.avsSetpoint 1 55 [(2, w)]))

/-! ### Chapters 17 and 18: resets and the test port -/

/-- R409, R457, R458, R471 to R473, R479, R480, R496: PORn, RSTn and a requested reset hold the device in reset with what the NV store keeps; a
release with good rails starts it, its cause read, and one with bad rails goes on holding; the start-up apply ends the start; the retaining requests
act alike; a watchdog expiry restarts the supervisor, the fourth within 60 s the device; the reference's return lets a start go on; the test port
selects its instructions, and TEST_EN gates them. -/
def Obligations.ResetsAndTestPort : Prop :=
  let rom (s t : State) (straps : Nat) : Prop :=
    bit straps 3 = false → s.tm.refPresent = true → straps % 4 ∉ [1, 3] →
      (s.bootSlot = none → t.sy.recovery = true) ∧
      (∀ i, s.bootSlot = some i → t.reg Ix.startPhase 0 = 1 ∧ t.reg Ix.fwActiveSlot 0 = i ∧
        ∀ k, k ≠ 52 → s.islandPresent k = true → t.islandState k = 2)
  let starts (s t : State) (straps cause : Nat) (linear : Bool) : Prop :=
    t.sy.hold = none ∧ t.raw = 0 ∧ t.nv.boots = (s.nv.boots + 1) % 65536 ∧ t.reg Ix.bootNumber 0 = (s.nv.boots + 1) % 65536 ∧
      t.reg Ix.strapValues 0 = straps % 16 ∧ t.su.loopOff = !linear ∧
      t.reg Ix.resetCauseLast 0 = (if s.nv.cause ≠ 0 then s.nv.cause else cause) ∧ rom s t straps
  (∀ s : State, ∃ t : State, exec .powerOnReset s = .next t ∧ t.sy.hold = some .porn ∧ t.sy.porGood = s.railsUp ∧
    t.reg Ix.startPhase 0 = 0 ∧ t.isl = State.reset.isl ∧ t.fr = State.reset.fr ∧ t.rg = State.reset.rg ∧ t.eg = State.reset.eg ∧
    t.tm.domains = [] ∧ t.mm.host = s.mm.host ∧ t.mm.lpddr = State.reset.mm.lpddr ∧ t.nv.log = s.nv.log ∧ t.nv.revoked = s.nv.revoked ∧ t.nv.fwSlots = s.nv.fwSlots) ∧
  (∀ (s u : State) (straps : Nat) (linear : Bool) (rails : List Nat), s.sy.hold = some .porn → u = s.setRails rails →
    (u.railsGood = true → ∃ t : State, exec (.porRelease straps linear rails) s = .next t ∧
      starts s t straps (if s.sy.porGood then 1 else 5) linear) ∧
    (u.railsGood = false → exec (.porRelease straps linear rails) s = .next { u with sy := { u.sy with hold := some .rail, porGood := false } })) ∧
  (∀ (s : State) (failed : List Nat), s.sy.hold = none → s.reg Ix.startPhase 0 = 1 →
    ∃ t : State, exec (.startUpApply failed) s = .next t ∧ t.reg Ix.startPhase 0 = 3 ∧ t.mp.beacon = t.rawTotal ∧
      t.reg Ix.t1sMode 0 = (if t.reg Ix.t1sEnable 0 = 0 then 0 else if t.reg Ix.t1sPlcaEnable 0 ≠ 0 ∧ t.mp.fellBack = false then 1 else 2)) ∧
  (∀ s : State, (s.sy.hold ∈ [some .porn, some .rail, some .thermal] → exec .deviceReset s = .next s) ∧
    (s.sy.hold ∉ [some .porn, some .rail, some .thermal] →
      ∃ t : State, exec .deviceReset s = .next t ∧ t.sy.hold = some .rstn ∧ t.reg Ix.startPhase 0 = 0 ∧ t.nv.log = s.nv.log ∧
        (s.reg Ix.nvState 0 ≠ 1 → t.nv.cause = 2 ∧ t.nv.causeRail = 0xFF ∧ t.nv.wear = s.wearNow)) ∧
    (∃ t : State, exec .resetRequestDevice s = .next t ∧ t.sy.hold = some .request ∧ t.reg Ix.startPhase 0 = 0 ∧ t.answer = {} ∧
      (s.reg Ix.nvState 0 ≠ 1 → t.nv.cause = 2))) ∧
  (∀ s : State,
    (s.sy.hold = none → s.reg Ix.startPhase 0 = 3 ∨ s.sy.retaining = true →
      (∃ t : State, exec .rstnRetaining s = .next t ∧ t.sy.retaining = true ∧ t.sy.rstLow = true ∧ t.sy.resetFrom = s.rawTotal ∧
        ∀ i, s.islandPresent i = true → i ≠ 51 → t.islandState i = 1) ∧
      (∃ t : State, exec .resetRequestRetaining s = .next t ∧ t.sy.retaining = true ∧ t.sy.resetFrom = s.rawTotal ∧ t.answer = {} ∧
        ∀ i, s.islandPresent i = true → i ≠ 51 → t.islandState i = 1)) ∧
    (s.sy.hold = none → s.reg Ix.startPhase 0 ≠ 3 → s.sy.retaining = false →
      (∃ t : State, exec .rstnRetaining s = .next t ∧ t.sy.hold = some .request ∧ t.sy.retaining = false) ∧
      (∃ t : State, exec .resetRequestRetaining s = .next t ∧ t.sy.hold = some .request ∧ t.answer = {})) ∧
    (s.sy.hold ≠ none → exec .resetRequestRetaining s = .next (s.reply {}))) ∧
  (∀ (s u : State) (straps : Nat) (linear : Bool) (rails : List Nat) (temps : List Int), u = (s.setRails rails).setSensors temps →
    (s.sy.hold ∈ [some .rstn, some .request] ∨ s.sy.hold = some .rail ∧ u.railsGood = true ∨ s.sy.hold = some .thermal ∧ u.cooledDown = true →
      ∃ t : State, exec (.deviceResetRelease straps linear rails temps) s = .next t ∧ starts s t straps 5 linear) ∧
    (s.sy.hold = some .rail ∧ u.railsGood = false ∨ s.sy.hold = some .thermal ∧ u.cooledDown = false →
      exec (.deviceResetRelease straps linear rails temps) s = .next u) ∧
    (s.sy.hold = none → s.sy.rstLow = true →
      exec (.deviceResetRelease straps linear rails temps) s = .next { u with sy := { u.sy with rstLow := false, resetFrom := u.rawTotal } })) ∧
  (∀ s : State, s.sy.hold = none → s.sy.retaining = false → s.sy.superDown = false → s.reg Ix.startPhase 0 ≠ 0 →
      State.ns (s.reg Ix.supervisorWatchdogTime 0 * 1000000) ≤ s.since s.sy.upSince →
    (s.sy.restarts.length < 3 ∨ (∃ a b c, s.sy.restarts = [a, b, c] ∧ 60 * State.second ≤ s.since c) →
      ∃ t : State, exec .supervisorRestart s = .next t ∧ t.sy.superDown = true ∧ t.sy.restarts = (s.rawTotal :: s.sy.restarts).take 3 ∧
        t.reg Ix.supervisorRestartCount 0 = min (s.reg Ix.supervisorRestartCount 0 + 1) 0xFFFFFFFF ∧
        State.partSupervisor ∈ t.isl.faultParts ∧ t.nv.fwJob = none ∧ t.nv.imgJob = none) ∧
    (∀ a b c, s.sy.restarts = [a, b, c] → s.since c < 60 * State.second → s.reg Ix.startPhase 0 = 3 →
      ∃ t : State, exec .supervisorRestart s = .next t ∧ t.sy.retaining = true ∧ t.sy.restarts = [] ∧
        t = ((({ s with sy := { s.sy with restarts := [] } } : State).event Ix.startPhase 4 55 []).requestRetaining))) ∧
  (∀ s : State, s.sy.superDown = true → s.sy.held = [] → s.sy.heldReads = [] → s.co.waiting = [] →
    ∃ t : State, exec .supervisorRestartEnd s = .next t ∧ t.sy.superDown = false ∧ t.sy.upSince = s.rawTotal ∧
      t.isl.faultParts = s.isl.faultParts.filter (· ≠ State.partSupervisor)) ∧
  (∀ s u : State, exec (.meridianReferenceLoss false) s = .next { s with tm := { s.tm with refPresent := false } } ∧
    (u = { s with tm := { s.tm with refPresent := true } } →
      (s.tm.refPresent = true ∨ s.sy.hold ≠ none ∨ s.reg Ix.startPhase 0 ≠ 0 ∨ s.sy.recovery = true →
        exec (.meridianReferenceLoss true) s = .next u) ∧
      (s.tm.refPresent = false → s.sy.hold = none → s.reg Ix.startPhase 0 = 0 → s.sy.recovery = false →
        ∃ t : State, exec (.meridianReferenceLoss true) s = .next t ∧ t.tm.refPresent = true ∧ rom u t (s.reg Ix.strapValues 0)))) ∧
  (∀ (s : State) (i : Instr) (code : Nat), (i, code) ∈ [(Instr.extest, 0x00), (.idcode, 0x01), (.samplePreload, 0x02),
      (.extestPulse, 0x08), (.extestTrain, 0x09), (.highz, 0x0A), (.clamp, 0x0B)] ∨
      code = 0xFF ∧ (∃ c, i = .bypass c ∧ c ∉ [0x00, 0x01, 0x02, 0x08, 0x09, 0x0A, 0x0B]) →
    (code ∈ [0x01, 0x02, 0xFF] → ∃ t : State, exec i s = .next t ∧ t.sy.tap.ir = code ∧ t.sy.tap.inReset = false ∧
      t.sy.tap.limited = (s.sy.tap.limited || s.sy.tap.inReset && !bit (s.reg Ix.strapValues 0) 3) ∧
      t.sy.tap.captured = (if code = 0x01 then some s.tapIdentity else if code = 0xFF then some 0 else none) ∧
      t.sy.tap.tested = s.sy.tap.tested ∧ t = { s with sy := { s.sy with tap := t.sy.tap } }) ∧
    (code ∉ [0x01, 0x02, 0xFF] → s.sy.tap.limited = true ∨ s.sy.tap.inReset = true ∧ bit (s.reg Ix.strapValues 0) 3 = false →
      exec i s = .next { s with sy := { s.sy with tap := { s.sy.tap with inReset := false, limited := true } } }) ∧
    (code ∉ [0x01, 0x02, 0xFF] → s.sy.tap.limited = false → s.sy.tap.inReset = false ∨ bit (s.reg Ix.strapValues 0) 3 = true →
      (s.sy.tap.tested = true → exec i s = .next { s with sy := { s.sy with
        tap := { ir := code, inReset := false, limited := false, tested := true, captured := none } } }) ∧
      (s.sy.tap.tested = false → ∃ t : State, exec i s = .next t ∧
        t.sy.tap = { ir := code, inReset := false, limited := false, tested := true, captured := none } ∧
        ∀ l, l < 32 * s.sectors → t.laneState l = 0))) ∧
  (∀ (s : State) (c : Nat), c ∈ [0x00, 0x01, 0x02, 0x08, 0x09, 0x0A, 0x0B] → exec (.bypass c) s = .next s) ∧
  (∀ s : State, exec .testLogicReset s = .next { s with sy := { s.sy with
    tap := { s.sy.tap with ir := 0x01, inReset := true, captured := some s.tapIdentity } } })

/-! ### The whole block -/

/-- A step takes the command at the front of the queue and is exec of it on the state with the queue's rest; on an empty queue one meridian
clock passes, which moves raw time while the reference is there, takes islands in RESET to INIT, and completes reads of the memory view that have
waited 1 ms (the model's choice: notes/assumptions/2.md). -/
def Obligations.StepRunsFrontCommand : Prop :=
  (∀ (c : Instr) (rest : List Instr) (s : State), s.pending = c :: rest → step s = exec c { s with pending := rest }) ∧
  (∀ s : State, s.pending = [] →
    ∃ t : State, step s = .next t ∧ (s.tm.refPresent = false → t.raw = s.raw ∧ t.sy.heldReads = s.sy.heldReads) ∧
      (∀ i, i < 56 → t.islandState i =
        (if s.sy.hold = none ∧ s.sy.retaining = false ∧ s.reg Ix.startPhase 0 = 3 ∧ s.resettable i = true ∧ s.islandState i = 1 then 2
         else s.islandState i)) ∧
      (s.tm.refPresent = true → ∃ n : Nat, t.rawTotal = s.rawTotal + n ∧
        (s.tm.refFreq = 0 → n = 6553600) ∧ (s.tm.refFreq = 1 → n = 2621440) ∧ (s.tm.refFreq = 2 → n = 524288) ∧
        (s.tm.refFreq = 3 → n ≤ 419431 ∧ (s.raw.toNat % 2097152 ∈ [0, 419430, 838860, 1258291, 1677721] → 419430 ≤ n)) ∧
        t.sy.heldReads = s.sy.heldReads.filter (fun e => decide (t.rawTotal < e.2.2 + 65536000000)))) ∧
  (∀ (s : State) (nbits w : Nat), decodeTableWord nbits w = none ∧ s.withFetchWord nbits w = s)

/-- R366, R468, R471: right after power-on reset no command waits, every object holds its factory value, every island reads RESET, the start
has not begun, nothing is queued and both memories list nothing. The variant, the temperature grade and the open factory values are the
model's choice (notes/assumptions/3.md, 4.md). -/
def Obligations.ResetState : Prop :=
  State.reset.pending = [] ∧
  (∀ ix sub, State.reset.reg ix sub = factory State.reset.variant State.reset.gradeI ix sub) ∧
  (∀ i, i < 56 → State.reset.islandState i = 1) ∧
  State.reset.reg Ix.startPhase 0 = 0 ∧ State.reset.sy.hold = some .porn ∧ State.reset.raw = 0 ∧
  State.reset.fr.queues = [] ∧ State.reset.fr.pkts = [] ∧ State.reset.rg.awls = [] ∧ State.reset.nv.log = [] ∧
  State.reset.mm.host = [] ∧ State.reset.mm.lpddr = [] ∧
  State.reset.memoriesOk = true ∧ State.reset.storesOk = true ∧ State.reset.awlsOk = true ∧ State.reset.commandsOk

/-- R83, R105, R106: every step that runs an awl's instruction keeps every awl within its limits: a window of at most 256 bytes, 64 metadata bytes,
and at most 64 copies and 64 effects; State.reset keeps them (ResetState). -/
def Obligations.AwlLimitsAreKept : Prop :=
  ∀ (s t : State) (c : Instr) (rest : List Instr) (w : Nat) (o : AwlOp), s.pending = c :: rest →
      c ∈ [.nop w o, .add w o, .sub w o, .and w o, .or w o, .xor w o, .shl w o, .shr w o, .sar w o, .mul w o, .movi w o, .movh w o,
        .cmp w o, .cka w o, .hsh w o, .hex w o, .hin w o, .mld w o, .mst w o, .hins w o, .hdel w o, .sld w o, .sst w o, .sadd w o,
        .xlk w o, .tlk w o, .crd w o, .xwrInsert w o, .xwrDelete w o, .cntAdd w o, .cntFrame w o, .mtr w o, .fwd w o, .rep w o,
        .mir w o, .drop w o, .spl w o, .rcv w o, .pcd w o, .svi w o, .tsr w o, .br w o, .bz w o, .bnz w o, .bf w o, .bnf w o,
        .call w o, .jr w o, .yld w o] →
      s.awlsOk = true → step s = .next t → t.awlsOk = true
end

