-- ==== Sys2Proof/Laws/Store.lean ====
section
/-! SUPPORT. What the reader and the writers of a sparse table do, and that the writers keep its keys rising. -/

namespace Sys2Proof.Laws
open Sys2Proof.Machine

variable {α : Type}

@[simp] theorem tget_tset_same (t : Tbl α) (k : Nat) (v : α) : tget (tset t k v) k = some v := by
  induction t with
  | nil => simp [tset, tget]
  | cons e t ih =>
    obtain ⟨j, w⟩ := e
    simp only [tset]
    split
    · simp [tget]
    · split
      · simp [tget]
      · have : j ≠ k := fun h => by simp_all
        simp [tget, this, ih]

theorem tget_tset_ne (t : Tbl α) {k k' : Nat} (v : α) (h : k' ≠ k) : tget (tset t k v) k' = tget t k' := by
  induction t with
  | nil => simp [tset, tget, Ne.symm h]
  | cons e t ih =>
    obtain ⟨j, w⟩ := e
    simp only [tset]
    split
    · simp [tget, Ne.symm h]
    · split
      · rename_i hk; subst hk; simp [tget, Ne.symm h]
      · simp [tget, ih]

@[simp] theorem tget_terase_same (t : Tbl α) (k : Nat) : tget (terase t k) k = none := by
  induction t with
  | nil => simp [terase, tget]
  | cons e t ih =>
    obtain ⟨j, w⟩ := e
    simp only [terase]
    split
    · exact ih
    · simp [tget, *]

theorem tget_terase_ne (t : Tbl α) {k k' : Nat} (h : k' ≠ k) : tget (terase t k) k' = tget t k' := by
  induction t with
  | nil => simp [terase]
  | cons e t ih =>
    obtain ⟨j, w⟩ := e
    simp only [terase]
    split
    · rename_i hj; subst hj; simp [tget, Ne.symm h, ih]
    · simp [tget, ih]

@[simp] theorem tgetD_tset_same (t : Tbl α) (k : Nat) (v d : α) : tgetD (tset t k v) k d = v := by simp [tgetD]

theorem tgetD_tset_ne (t : Tbl α) {k k' : Nat} (v d : α) (h : k' ≠ k) : tgetD (tset t k v) k' d = tgetD t k' d := by
  simp [tgetD, tget_tset_ne t v h]

@[simp] theorem tgetD_tput_same [DecidableEq α] (d : α) (t : Tbl α) (k : Nat) (v : α) : tgetD (tput d t k v) k d = v := by
  unfold tput
  split
  · simp [tgetD, *]
  · simp

theorem tgetD_tput_ne [DecidableEq α] (d d' : α) (t : Tbl α) {k k' : Nat} (v : α) (h : k' ≠ k) :
    tgetD (tput d t k v) k' d' = tgetD t k' d' := by
  unfold tput
  split
  · simp [tgetD, tget_terase_ne t h]
  · exact tgetD_tset_ne t v d' h

/-! ### The canonical order -/

/-- Every key of a table with rising keys lies above a key set before it. -/
theorem tsorted_cons {j : Nat} {w : α} {t : Tbl α} :
    tsorted ((j, w) :: t) = true ↔ (∀ e ∈ t, j < e.1) ∧ tsorted t = true := by
  induction t generalizing j w with
  | nil => simp [tsorted]
  | cons e t ih =>
    obtain ⟨k, x⟩ := e
    simp only [tsorted, Bool.and_eq_true, decide_eq_true_eq, List.mem_cons, forall_eq_or_imp]
    constructor
    · rintro ⟨h1, h2⟩
      refine ⟨⟨h1, fun e he => ?_⟩, h2⟩
      exact Nat.lt_trans h1 ((ih.mp h2).1 e he)
    · rintro ⟨⟨h1, -⟩, h2⟩
      exact ⟨h1, h2⟩

theorem mem_terase {e : Nat × α} {t : Tbl α} {k : Nat} (h : e ∈ terase t k) : e ∈ t := by
  induction t with
  | nil => simp [terase] at h
  | cons x t ih =>
    obtain ⟨j, w⟩ := x
    simp only [terase] at h
    split at h
    · exact List.mem_cons_of_mem _ (ih h)
    · rcases List.mem_cons.mp h with h | h
      · simp [h]
      · exact List.mem_cons_of_mem _ (ih h)

theorem mem_tset {e : Nat × α} {t : Tbl α} {k : Nat} {v : α} (h : e ∈ tset t k v) : e = (k, v) ∨ e ∈ t := by
  induction t with
  | nil => simpa [tset] using h
  | cons x t ih =>
    obtain ⟨j, w⟩ := x
    simp only [tset] at h
    split at h
    · simpa using h
    · split at h
      · rcases List.mem_cons.mp h with h | h
        · exact .inl h
        · exact .inr (List.mem_cons_of_mem _ h)
      · rcases List.mem_cons.mp h with h | h
        · simp [h]
        · rcases ih h with h | h
          · exact .inl h
          · exact .inr (List.mem_cons_of_mem _ h)

theorem terase_sorted (t : Tbl α) (k : Nat) (h : tsorted t = true) : tsorted (terase t k) = true := by
  induction t with
  | nil => simp [terase, tsorted]
  | cons e t ih =>
    obtain ⟨j, w⟩ := e
    rw [tsorted_cons] at h
    simp only [terase]
    split
    · exact ih h.2
    · rw [tsorted_cons]
      exact ⟨fun e he => h.1 e (mem_terase he), ih h.2⟩

theorem tset_sorted (t : Tbl α) (k : Nat) (v : α) (h : tsorted t = true) : tsorted (tset t k v) = true := by
  induction t with
  | nil => simp [tset, tsorted]
  | cons e t ih =>
    obtain ⟨j, w⟩ := e
    have h' := tsorted_cons.mp h
    simp only [tset]
    split
    · rw [tsorted_cons]
      refine ⟨fun e he => ?_, h⟩
      rcases List.mem_cons.mp he with rfl | he
      · assumption
      · exact Nat.lt_trans ‹_› (h'.1 e he)
    · split
      · rename_i hk; subst hk
        exact tsorted_cons.mpr h'
      · rw [tsorted_cons]
        refine ⟨fun e he => ?_, ih h'.2⟩
        rcases mem_tset he with rfl | he
        · show j < k; omega
        · exact h'.1 e he

/-- The canonical write keeps keys rising and the default unlisted. -/
theorem tput_keeps [DecidableEq α] (d : α) (t : Tbl α) (k : Nat) (v : α) (h : tsorted t = true)
    (hd : ∀ e ∈ t, e.2 ≠ d) : tsorted (tput d t k v) = true ∧ ∀ e ∈ tput d t k v, e.2 ≠ d := by
  unfold tput
  split
  · exact ⟨terase_sorted t k h, fun e he => hd e (mem_terase he)⟩
  · refine ⟨tset_sorted t k v h, fun e he => ?_⟩
    rcases mem_tset he with rfl | he
    · assumption
    · exact hd e he

end Sys2Proof.Laws
end

