-- ==== Sys2Proof/Laws/State.lean ====
section
/-! SUPPORT. The small lemmas of State: what every named update leaves of every other field (true by computation), and what
each accessor reads after its own update. Generated by one pattern, a lemma per field per update. -/

namespace Sys2Proof.Laws
open Sys2Proof.Machine

variable (s : State)

/-! ### setReg -/

@[simp] theorem setReg_raw (i j v : Nat) : (s.setReg i j v).raw = s.raw := rfl
@[simp] theorem setReg_variant (i j v : Nat) : (s.setReg i j v).variant = s.variant := rfl
@[simp] theorem setReg_gradeI (i j v : Nat) : (s.setReg i j v).gradeI = s.gradeI := rfl
@[simp] theorem setReg_tabs (i j v : Nat) : (s.setReg i j v).tabs = s.tabs := rfl
@[simp] theorem setReg_lens (i j v : Nat) : (s.setReg i j v).lens = s.lens := rfl
@[simp] theorem setReg_isl (i j v : Nat) : (s.setReg i j v).isl = s.isl := rfl
@[simp] theorem setReg_fr (i j v : Nat) : (s.setReg i j v).fr = s.fr := rfl
@[simp] theorem setReg_rg (i j v : Nat) : (s.setReg i j v).rg = s.rg := rfl
@[simp] theorem setReg_tb (i j v : Nat) : (s.setReg i j v).tb = s.tb := rfl
@[simp] theorem setReg_eg (i j v : Nat) : (s.setReg i j v).eg = s.eg := rfl
@[simp] theorem setReg_tm (i j v : Nat) : (s.setReg i j v).tm = s.tm := rfl
@[simp] theorem setReg_ho (i j v : Nat) : (s.setReg i j v).ho = s.ho := rfl
@[simp] theorem setReg_ln (i j v : Nat) : (s.setReg i j v).ln = s.ln := rfl
@[simp] theorem setReg_mm (i j v : Nat) : (s.setReg i j v).mm = s.mm := rfl
@[simp] theorem setReg_nv (i j v : Nat) : (s.setReg i j v).nv = s.nv := rfl
@[simp] theorem setReg_sy (i j v : Nat) : (s.setReg i j v).sy = s.sy := rfl
@[simp] theorem setReg_ri (i j v : Nat) : (s.setReg i j v).ri = s.ri := rfl
@[simp] theorem setReg_mv (i j v : Nat) : (s.setReg i j v).mv = s.mv := rfl
@[simp] theorem setReg_co (i j v : Nat) : (s.setReg i j v).co = s.co := rfl
@[simp] theorem setReg_mp (i j v : Nat) : (s.setReg i j v).mp = s.mp := rfl
@[simp] theorem setReg_su (i j v : Nat) : (s.setReg i j v).su = s.su := rfl
@[simp] theorem setReg_ag (i j v : Nat) : (s.setReg i j v).ag = s.ag := rfl
@[simp] theorem setReg_answer (i j v : Nat) : (s.setReg i j v).answer = s.answer := rfl
@[simp] theorem setReg_draws (i j v : Nat) : (s.setReg i j v).draws = s.draws := rfl
@[simp] theorem setReg_pending (i j v : Nat) : (s.setReg i j v).pending = s.pending := rfl
@[simp] theorem setReg_record (i j v : Nat) (ix sub rn : Nat) : (s.setReg i j v).record ix sub rn = s.record ix sub rn := rfl

/-! ### setRegI -/

@[simp] theorem setRegI_raw (i j w : Nat) (v : Int) : (s.setRegI i j w v).raw = s.raw := rfl
@[simp] theorem setRegI_variant (i j w : Nat) (v : Int) : (s.setRegI i j w v).variant = s.variant := rfl
@[simp] theorem setRegI_gradeI (i j w : Nat) (v : Int) : (s.setRegI i j w v).gradeI = s.gradeI := rfl
@[simp] theorem setRegI_tabs (i j w : Nat) (v : Int) : (s.setRegI i j w v).tabs = s.tabs := rfl
@[simp] theorem setRegI_lens (i j w : Nat) (v : Int) : (s.setRegI i j w v).lens = s.lens := rfl
@[simp] theorem setRegI_isl (i j w : Nat) (v : Int) : (s.setRegI i j w v).isl = s.isl := rfl
@[simp] theorem setRegI_fr (i j w : Nat) (v : Int) : (s.setRegI i j w v).fr = s.fr := rfl
@[simp] theorem setRegI_rg (i j w : Nat) (v : Int) : (s.setRegI i j w v).rg = s.rg := rfl
@[simp] theorem setRegI_tb (i j w : Nat) (v : Int) : (s.setRegI i j w v).tb = s.tb := rfl
@[simp] theorem setRegI_eg (i j w : Nat) (v : Int) : (s.setRegI i j w v).eg = s.eg := rfl
@[simp] theorem setRegI_tm (i j w : Nat) (v : Int) : (s.setRegI i j w v).tm = s.tm := rfl
@[simp] theorem setRegI_ho (i j w : Nat) (v : Int) : (s.setRegI i j w v).ho = s.ho := rfl
@[simp] theorem setRegI_ln (i j w : Nat) (v : Int) : (s.setRegI i j w v).ln = s.ln := rfl
@[simp] theorem setRegI_mm (i j w : Nat) (v : Int) : (s.setRegI i j w v).mm = s.mm := rfl
@[simp] theorem setRegI_nv (i j w : Nat) (v : Int) : (s.setRegI i j w v).nv = s.nv := rfl
@[simp] theorem setRegI_sy (i j w : Nat) (v : Int) : (s.setRegI i j w v).sy = s.sy := rfl
@[simp] theorem setRegI_ri (i j w : Nat) (v : Int) : (s.setRegI i j w v).ri = s.ri := rfl
@[simp] theorem setRegI_mv (i j w : Nat) (v : Int) : (s.setRegI i j w v).mv = s.mv := rfl
@[simp] theorem setRegI_co (i j w : Nat) (v : Int) : (s.setRegI i j w v).co = s.co := rfl
@[simp] theorem setRegI_mp (i j w : Nat) (v : Int) : (s.setRegI i j w v).mp = s.mp := rfl
@[simp] theorem setRegI_su (i j w : Nat) (v : Int) : (s.setRegI i j w v).su = s.su := rfl
@[simp] theorem setRegI_ag (i j w : Nat) (v : Int) : (s.setRegI i j w v).ag = s.ag := rfl
@[simp] theorem setRegI_answer (i j w : Nat) (v : Int) : (s.setRegI i j w v).answer = s.answer := rfl
@[simp] theorem setRegI_draws (i j w : Nat) (v : Int) : (s.setRegI i j w v).draws = s.draws := rfl
@[simp] theorem setRegI_pending (i j w : Nat) (v : Int) : (s.setRegI i j w v).pending = s.pending := rfl
@[simp] theorem setRegI_record (i j w : Nat) (v : Int) (ix sub rn : Nat) : (s.setRegI i j w v).record ix sub rn = s.record ix sub rn := rfl

/-! ### count -/

@[simp] theorem count_raw (i j n : Nat) : (s.count i j n).raw = s.raw := rfl
@[simp] theorem count_variant (i j n : Nat) : (s.count i j n).variant = s.variant := rfl
@[simp] theorem count_gradeI (i j n : Nat) : (s.count i j n).gradeI = s.gradeI := rfl
@[simp] theorem count_tabs (i j n : Nat) : (s.count i j n).tabs = s.tabs := rfl
@[simp] theorem count_lens (i j n : Nat) : (s.count i j n).lens = s.lens := rfl
@[simp] theorem count_isl (i j n : Nat) : (s.count i j n).isl = s.isl := rfl
@[simp] theorem count_fr (i j n : Nat) : (s.count i j n).fr = s.fr := rfl
@[simp] theorem count_rg (i j n : Nat) : (s.count i j n).rg = s.rg := rfl
@[simp] theorem count_tb (i j n : Nat) : (s.count i j n).tb = s.tb := rfl
@[simp] theorem count_eg (i j n : Nat) : (s.count i j n).eg = s.eg := rfl
@[simp] theorem count_tm (i j n : Nat) : (s.count i j n).tm = s.tm := rfl
@[simp] theorem count_ho (i j n : Nat) : (s.count i j n).ho = s.ho := rfl
@[simp] theorem count_ln (i j n : Nat) : (s.count i j n).ln = s.ln := rfl
@[simp] theorem count_mm (i j n : Nat) : (s.count i j n).mm = s.mm := rfl
@[simp] theorem count_nv (i j n : Nat) : (s.count i j n).nv = s.nv := rfl
@[simp] theorem count_sy (i j n : Nat) : (s.count i j n).sy = s.sy := rfl
@[simp] theorem count_ri (i j n : Nat) : (s.count i j n).ri = s.ri := rfl
@[simp] theorem count_mv (i j n : Nat) : (s.count i j n).mv = s.mv := rfl
@[simp] theorem count_co (i j n : Nat) : (s.count i j n).co = s.co := rfl
@[simp] theorem count_mp (i j n : Nat) : (s.count i j n).mp = s.mp := rfl
@[simp] theorem count_su (i j n : Nat) : (s.count i j n).su = s.su := rfl
@[simp] theorem count_ag (i j n : Nat) : (s.count i j n).ag = s.ag := rfl
@[simp] theorem count_answer (i j n : Nat) : (s.count i j n).answer = s.answer := rfl
@[simp] theorem count_draws (i j n : Nat) : (s.count i j n).draws = s.draws := rfl
@[simp] theorem count_pending (i j n : Nat) : (s.count i j n).pending = s.pending := rfl
@[simp] theorem count_record (i j n : Nat) (ix sub rn : Nat) : (s.count i j n).record ix sub rn = s.record ix sub rn := rfl

/-! ### count32 -/

@[simp] theorem count32_raw (i j n : Nat) : (s.count32 i j n).raw = s.raw := rfl
@[simp] theorem count32_variant (i j n : Nat) : (s.count32 i j n).variant = s.variant := rfl
@[simp] theorem count32_gradeI (i j n : Nat) : (s.count32 i j n).gradeI = s.gradeI := rfl
@[simp] theorem count32_tabs (i j n : Nat) : (s.count32 i j n).tabs = s.tabs := rfl
@[simp] theorem count32_lens (i j n : Nat) : (s.count32 i j n).lens = s.lens := rfl
@[simp] theorem count32_isl (i j n : Nat) : (s.count32 i j n).isl = s.isl := rfl
@[simp] theorem count32_fr (i j n : Nat) : (s.count32 i j n).fr = s.fr := rfl
@[simp] theorem count32_rg (i j n : Nat) : (s.count32 i j n).rg = s.rg := rfl
@[simp] theorem count32_tb (i j n : Nat) : (s.count32 i j n).tb = s.tb := rfl
@[simp] theorem count32_eg (i j n : Nat) : (s.count32 i j n).eg = s.eg := rfl
@[simp] theorem count32_tm (i j n : Nat) : (s.count32 i j n).tm = s.tm := rfl
@[simp] theorem count32_ho (i j n : Nat) : (s.count32 i j n).ho = s.ho := rfl
@[simp] theorem count32_ln (i j n : Nat) : (s.count32 i j n).ln = s.ln := rfl
@[simp] theorem count32_mm (i j n : Nat) : (s.count32 i j n).mm = s.mm := rfl
@[simp] theorem count32_nv (i j n : Nat) : (s.count32 i j n).nv = s.nv := rfl
@[simp] theorem count32_sy (i j n : Nat) : (s.count32 i j n).sy = s.sy := rfl
@[simp] theorem count32_ri (i j n : Nat) : (s.count32 i j n).ri = s.ri := rfl
@[simp] theorem count32_mv (i j n : Nat) : (s.count32 i j n).mv = s.mv := rfl
@[simp] theorem count32_co (i j n : Nat) : (s.count32 i j n).co = s.co := rfl
@[simp] theorem count32_mp (i j n : Nat) : (s.count32 i j n).mp = s.mp := rfl
@[simp] theorem count32_su (i j n : Nat) : (s.count32 i j n).su = s.su := rfl
@[simp] theorem count32_ag (i j n : Nat) : (s.count32 i j n).ag = s.ag := rfl
@[simp] theorem count32_answer (i j n : Nat) : (s.count32 i j n).answer = s.answer := rfl
@[simp] theorem count32_draws (i j n : Nat) : (s.count32 i j n).draws = s.draws := rfl
@[simp] theorem count32_pending (i j n : Nat) : (s.count32 i j n).pending = s.pending := rfl
@[simp] theorem count32_record (i j n : Nat) (ix sub rn : Nat) : (s.count32 i j n).record ix sub rn = s.record ix sub rn := rfl

/-! ### countSat -/

@[simp] theorem countSat_raw (i j n : Nat) : (s.countSat i j n).raw = s.raw := rfl
@[simp] theorem countSat_variant (i j n : Nat) : (s.countSat i j n).variant = s.variant := rfl
@[simp] theorem countSat_gradeI (i j n : Nat) : (s.countSat i j n).gradeI = s.gradeI := rfl
@[simp] theorem countSat_tabs (i j n : Nat) : (s.countSat i j n).tabs = s.tabs := rfl
@[simp] theorem countSat_lens (i j n : Nat) : (s.countSat i j n).lens = s.lens := rfl
@[simp] theorem countSat_isl (i j n : Nat) : (s.countSat i j n).isl = s.isl := rfl
@[simp] theorem countSat_fr (i j n : Nat) : (s.countSat i j n).fr = s.fr := rfl
@[simp] theorem countSat_rg (i j n : Nat) : (s.countSat i j n).rg = s.rg := rfl
@[simp] theorem countSat_tb (i j n : Nat) : (s.countSat i j n).tb = s.tb := rfl
@[simp] theorem countSat_eg (i j n : Nat) : (s.countSat i j n).eg = s.eg := rfl
@[simp] theorem countSat_tm (i j n : Nat) : (s.countSat i j n).tm = s.tm := rfl
@[simp] theorem countSat_ho (i j n : Nat) : (s.countSat i j n).ho = s.ho := rfl
@[simp] theorem countSat_ln (i j n : Nat) : (s.countSat i j n).ln = s.ln := rfl
@[simp] theorem countSat_mm (i j n : Nat) : (s.countSat i j n).mm = s.mm := rfl
@[simp] theorem countSat_nv (i j n : Nat) : (s.countSat i j n).nv = s.nv := rfl
@[simp] theorem countSat_sy (i j n : Nat) : (s.countSat i j n).sy = s.sy := rfl
@[simp] theorem countSat_ri (i j n : Nat) : (s.countSat i j n).ri = s.ri := rfl
@[simp] theorem countSat_mv (i j n : Nat) : (s.countSat i j n).mv = s.mv := rfl
@[simp] theorem countSat_co (i j n : Nat) : (s.countSat i j n).co = s.co := rfl
@[simp] theorem countSat_mp (i j n : Nat) : (s.countSat i j n).mp = s.mp := rfl
@[simp] theorem countSat_su (i j n : Nat) : (s.countSat i j n).su = s.su := rfl
@[simp] theorem countSat_ag (i j n : Nat) : (s.countSat i j n).ag = s.ag := rfl
@[simp] theorem countSat_answer (i j n : Nat) : (s.countSat i j n).answer = s.answer := rfl
@[simp] theorem countSat_draws (i j n : Nat) : (s.countSat i j n).draws = s.draws := rfl
@[simp] theorem countSat_pending (i j n : Nat) : (s.countSat i j n).pending = s.pending := rfl
@[simp] theorem countSat_record (i j n : Nat) (ix sub rn : Nat) : (s.countSat i j n).record ix sub rn = s.record ix sub rn := rfl

/-! ### setIslandState -/

@[simp] theorem setIslandState_raw (i v : Nat) : (s.setIslandState i v).raw = s.raw := rfl
@[simp] theorem setIslandState_variant (i v : Nat) : (s.setIslandState i v).variant = s.variant := rfl
@[simp] theorem setIslandState_gradeI (i v : Nat) : (s.setIslandState i v).gradeI = s.gradeI := rfl
@[simp] theorem setIslandState_tabs (i v : Nat) : (s.setIslandState i v).tabs = s.tabs := rfl
@[simp] theorem setIslandState_lens (i v : Nat) : (s.setIslandState i v).lens = s.lens := rfl
@[simp] theorem setIslandState_isl (i v : Nat) : (s.setIslandState i v).isl = s.isl := rfl
@[simp] theorem setIslandState_fr (i v : Nat) : (s.setIslandState i v).fr = s.fr := rfl
@[simp] theorem setIslandState_rg (i v : Nat) : (s.setIslandState i v).rg = s.rg := rfl
@[simp] theorem setIslandState_tb (i v : Nat) : (s.setIslandState i v).tb = s.tb := rfl
@[simp] theorem setIslandState_eg (i v : Nat) : (s.setIslandState i v).eg = s.eg := rfl
@[simp] theorem setIslandState_tm (i v : Nat) : (s.setIslandState i v).tm = s.tm := rfl
@[simp] theorem setIslandState_ho (i v : Nat) : (s.setIslandState i v).ho = s.ho := rfl
@[simp] theorem setIslandState_ln (i v : Nat) : (s.setIslandState i v).ln = s.ln := rfl
@[simp] theorem setIslandState_mm (i v : Nat) : (s.setIslandState i v).mm = s.mm := rfl
@[simp] theorem setIslandState_nv (i v : Nat) : (s.setIslandState i v).nv = s.nv := rfl
@[simp] theorem setIslandState_sy (i v : Nat) : (s.setIslandState i v).sy = s.sy := rfl
@[simp] theorem setIslandState_ri (i v : Nat) : (s.setIslandState i v).ri = s.ri := rfl
@[simp] theorem setIslandState_mv (i v : Nat) : (s.setIslandState i v).mv = s.mv := rfl
@[simp] theorem setIslandState_co (i v : Nat) : (s.setIslandState i v).co = s.co := rfl
@[simp] theorem setIslandState_mp (i v : Nat) : (s.setIslandState i v).mp = s.mp := rfl
@[simp] theorem setIslandState_su (i v : Nat) : (s.setIslandState i v).su = s.su := rfl
@[simp] theorem setIslandState_ag (i v : Nat) : (s.setIslandState i v).ag = s.ag := rfl
@[simp] theorem setIslandState_answer (i v : Nat) : (s.setIslandState i v).answer = s.answer := rfl
@[simp] theorem setIslandState_draws (i v : Nat) : (s.setIslandState i v).draws = s.draws := rfl
@[simp] theorem setIslandState_pending (i v : Nat) : (s.setIslandState i v).pending = s.pending := rfl
@[simp] theorem setIslandState_record (i v : Nat) (ix sub rn : Nat) : (s.setIslandState i v).record ix sub rn = s.record ix sub rn := rfl

/-! ### setRecord -/

@[simp] theorem setRecord_raw (i j r v : Nat) : (s.setRecord i j r v).raw = s.raw := rfl
@[simp] theorem setRecord_variant (i j r v : Nat) : (s.setRecord i j r v).variant = s.variant := rfl
@[simp] theorem setRecord_gradeI (i j r v : Nat) : (s.setRecord i j r v).gradeI = s.gradeI := rfl
@[simp] theorem setRecord_dict (i j r v : Nat) : (s.setRecord i j r v).dict = s.dict := rfl
@[simp] theorem setRecord_lens (i j r v : Nat) : (s.setRecord i j r v).lens = s.lens := rfl
@[simp] theorem setRecord_isl (i j r v : Nat) : (s.setRecord i j r v).isl = s.isl := rfl
@[simp] theorem setRecord_fr (i j r v : Nat) : (s.setRecord i j r v).fr = s.fr := rfl
@[simp] theorem setRecord_rg (i j r v : Nat) : (s.setRecord i j r v).rg = s.rg := rfl
@[simp] theorem setRecord_tb (i j r v : Nat) : (s.setRecord i j r v).tb = s.tb := rfl
@[simp] theorem setRecord_eg (i j r v : Nat) : (s.setRecord i j r v).eg = s.eg := rfl
@[simp] theorem setRecord_tm (i j r v : Nat) : (s.setRecord i j r v).tm = s.tm := rfl
@[simp] theorem setRecord_ho (i j r v : Nat) : (s.setRecord i j r v).ho = s.ho := rfl
@[simp] theorem setRecord_ln (i j r v : Nat) : (s.setRecord i j r v).ln = s.ln := rfl
@[simp] theorem setRecord_mm (i j r v : Nat) : (s.setRecord i j r v).mm = s.mm := rfl
@[simp] theorem setRecord_nv (i j r v : Nat) : (s.setRecord i j r v).nv = s.nv := rfl
@[simp] theorem setRecord_sy (i j r v : Nat) : (s.setRecord i j r v).sy = s.sy := rfl
@[simp] theorem setRecord_ri (i j r v : Nat) : (s.setRecord i j r v).ri = s.ri := rfl
@[simp] theorem setRecord_mv (i j r v : Nat) : (s.setRecord i j r v).mv = s.mv := rfl
@[simp] theorem setRecord_co (i j r v : Nat) : (s.setRecord i j r v).co = s.co := rfl
@[simp] theorem setRecord_mp (i j r v : Nat) : (s.setRecord i j r v).mp = s.mp := rfl
@[simp] theorem setRecord_su (i j r v : Nat) : (s.setRecord i j r v).su = s.su := rfl
@[simp] theorem setRecord_ag (i j r v : Nat) : (s.setRecord i j r v).ag = s.ag := rfl
@[simp] theorem setRecord_answer (i j r v : Nat) : (s.setRecord i j r v).answer = s.answer := rfl
@[simp] theorem setRecord_draws (i j r v : Nat) : (s.setRecord i j r v).draws = s.draws := rfl
@[simp] theorem setRecord_pending (i j r v : Nat) : (s.setRecord i j r v).pending = s.pending := rfl
@[simp] theorem setRecord_reg (i j r v : Nat) (ix sub : Nat) : (s.setRecord i j r v).reg ix sub = s.reg ix sub := rfl

/-! ### setRecField -/

@[simp] theorem setRecField_raw (i j r b n v : Nat) : (s.setRecField i j r b n v).raw = s.raw := rfl
@[simp] theorem setRecField_variant (i j r b n v : Nat) : (s.setRecField i j r b n v).variant = s.variant := rfl
@[simp] theorem setRecField_gradeI (i j r b n v : Nat) : (s.setRecField i j r b n v).gradeI = s.gradeI := rfl
@[simp] theorem setRecField_dict (i j r b n v : Nat) : (s.setRecField i j r b n v).dict = s.dict := rfl
@[simp] theorem setRecField_lens (i j r b n v : Nat) : (s.setRecField i j r b n v).lens = s.lens := rfl
@[simp] theorem setRecField_isl (i j r b n v : Nat) : (s.setRecField i j r b n v).isl = s.isl := rfl
@[simp] theorem setRecField_fr (i j r b n v : Nat) : (s.setRecField i j r b n v).fr = s.fr := rfl
@[simp] theorem setRecField_rg (i j r b n v : Nat) : (s.setRecField i j r b n v).rg = s.rg := rfl
@[simp] theorem setRecField_tb (i j r b n v : Nat) : (s.setRecField i j r b n v).tb = s.tb := rfl
@[simp] theorem setRecField_eg (i j r b n v : Nat) : (s.setRecField i j r b n v).eg = s.eg := rfl
@[simp] theorem setRecField_tm (i j r b n v : Nat) : (s.setRecField i j r b n v).tm = s.tm := rfl
@[simp] theorem setRecField_ho (i j r b n v : Nat) : (s.setRecField i j r b n v).ho = s.ho := rfl
@[simp] theorem setRecField_ln (i j r b n v : Nat) : (s.setRecField i j r b n v).ln = s.ln := rfl
@[simp] theorem setRecField_mm (i j r b n v : Nat) : (s.setRecField i j r b n v).mm = s.mm := rfl
@[simp] theorem setRecField_nv (i j r b n v : Nat) : (s.setRecField i j r b n v).nv = s.nv := rfl
@[simp] theorem setRecField_sy (i j r b n v : Nat) : (s.setRecField i j r b n v).sy = s.sy := rfl
@[simp] theorem setRecField_ri (i j r b n v : Nat) : (s.setRecField i j r b n v).ri = s.ri := rfl
@[simp] theorem setRecField_mv (i j r b n v : Nat) : (s.setRecField i j r b n v).mv = s.mv := rfl
@[simp] theorem setRecField_co (i j r b n v : Nat) : (s.setRecField i j r b n v).co = s.co := rfl
@[simp] theorem setRecField_mp (i j r b n v : Nat) : (s.setRecField i j r b n v).mp = s.mp := rfl
@[simp] theorem setRecField_su (i j r b n v : Nat) : (s.setRecField i j r b n v).su = s.su := rfl
@[simp] theorem setRecField_ag (i j r b n v : Nat) : (s.setRecField i j r b n v).ag = s.ag := rfl
@[simp] theorem setRecField_answer (i j r b n v : Nat) : (s.setRecField i j r b n v).answer = s.answer := rfl
@[simp] theorem setRecField_draws (i j r b n v : Nat) : (s.setRecField i j r b n v).draws = s.draws := rfl
@[simp] theorem setRecField_pending (i j r b n v : Nat) : (s.setRecField i j r b n v).pending = s.pending := rfl
@[simp] theorem setRecField_reg (i j r b n v : Nat) (ix sub : Nat) : (s.setRecField i j r b n v).reg ix sub = s.reg ix sub := rfl

/-! ### countRec -/

@[simp] theorem countRec_raw (i j r b n : Nat) : (s.countRec i j r b n).raw = s.raw := rfl
@[simp] theorem countRec_variant (i j r b n : Nat) : (s.countRec i j r b n).variant = s.variant := rfl
@[simp] theorem countRec_gradeI (i j r b n : Nat) : (s.countRec i j r b n).gradeI = s.gradeI := rfl
@[simp] theorem countRec_dict (i j r b n : Nat) : (s.countRec i j r b n).dict = s.dict := rfl
@[simp] theorem countRec_lens (i j r b n : Nat) : (s.countRec i j r b n).lens = s.lens := rfl
@[simp] theorem countRec_isl (i j r b n : Nat) : (s.countRec i j r b n).isl = s.isl := rfl
@[simp] theorem countRec_fr (i j r b n : Nat) : (s.countRec i j r b n).fr = s.fr := rfl
@[simp] theorem countRec_rg (i j r b n : Nat) : (s.countRec i j r b n).rg = s.rg := rfl
@[simp] theorem countRec_tb (i j r b n : Nat) : (s.countRec i j r b n).tb = s.tb := rfl
@[simp] theorem countRec_eg (i j r b n : Nat) : (s.countRec i j r b n).eg = s.eg := rfl
@[simp] theorem countRec_tm (i j r b n : Nat) : (s.countRec i j r b n).tm = s.tm := rfl
@[simp] theorem countRec_ho (i j r b n : Nat) : (s.countRec i j r b n).ho = s.ho := rfl
@[simp] theorem countRec_ln (i j r b n : Nat) : (s.countRec i j r b n).ln = s.ln := rfl
@[simp] theorem countRec_mm (i j r b n : Nat) : (s.countRec i j r b n).mm = s.mm := rfl
@[simp] theorem countRec_nv (i j r b n : Nat) : (s.countRec i j r b n).nv = s.nv := rfl
@[simp] theorem countRec_sy (i j r b n : Nat) : (s.countRec i j r b n).sy = s.sy := rfl
@[simp] theorem countRec_ri (i j r b n : Nat) : (s.countRec i j r b n).ri = s.ri := rfl
@[simp] theorem countRec_mv (i j r b n : Nat) : (s.countRec i j r b n).mv = s.mv := rfl
@[simp] theorem countRec_co (i j r b n : Nat) : (s.countRec i j r b n).co = s.co := rfl
@[simp] theorem countRec_mp (i j r b n : Nat) : (s.countRec i j r b n).mp = s.mp := rfl
@[simp] theorem countRec_su (i j r b n : Nat) : (s.countRec i j r b n).su = s.su := rfl
@[simp] theorem countRec_ag (i j r b n : Nat) : (s.countRec i j r b n).ag = s.ag := rfl
@[simp] theorem countRec_answer (i j r b n : Nat) : (s.countRec i j r b n).answer = s.answer := rfl
@[simp] theorem countRec_draws (i j r b n : Nat) : (s.countRec i j r b n).draws = s.draws := rfl
@[simp] theorem countRec_pending (i j r b n : Nat) : (s.countRec i j r b n).pending = s.pending := rfl
@[simp] theorem countRec_reg (i j r b n : Nat) (ix sub : Nat) : (s.countRec i j r b n).reg ix sub = s.reg ix sub := rfl

/-! ### setIsland -/

@[simp] theorem setIsland_raw (i : Nat) (x : Island) : (s.setIsland i x).raw = s.raw := rfl
@[simp] theorem setIsland_variant (i : Nat) (x : Island) : (s.setIsland i x).variant = s.variant := rfl
@[simp] theorem setIsland_gradeI (i : Nat) (x : Island) : (s.setIsland i x).gradeI = s.gradeI := rfl
@[simp] theorem setIsland_dict (i : Nat) (x : Island) : (s.setIsland i x).dict = s.dict := rfl
@[simp] theorem setIsland_tabs (i : Nat) (x : Island) : (s.setIsland i x).tabs = s.tabs := rfl
@[simp] theorem setIsland_lens (i : Nat) (x : Island) : (s.setIsland i x).lens = s.lens := rfl
@[simp] theorem setIsland_fr (i : Nat) (x : Island) : (s.setIsland i x).fr = s.fr := rfl
@[simp] theorem setIsland_rg (i : Nat) (x : Island) : (s.setIsland i x).rg = s.rg := rfl
@[simp] theorem setIsland_tb (i : Nat) (x : Island) : (s.setIsland i x).tb = s.tb := rfl
@[simp] theorem setIsland_eg (i : Nat) (x : Island) : (s.setIsland i x).eg = s.eg := rfl
@[simp] theorem setIsland_tm (i : Nat) (x : Island) : (s.setIsland i x).tm = s.tm := rfl
@[simp] theorem setIsland_ho (i : Nat) (x : Island) : (s.setIsland i x).ho = s.ho := rfl
@[simp] theorem setIsland_ln (i : Nat) (x : Island) : (s.setIsland i x).ln = s.ln := rfl
@[simp] theorem setIsland_mm (i : Nat) (x : Island) : (s.setIsland i x).mm = s.mm := rfl
@[simp] theorem setIsland_nv (i : Nat) (x : Island) : (s.setIsland i x).nv = s.nv := rfl
@[simp] theorem setIsland_sy (i : Nat) (x : Island) : (s.setIsland i x).sy = s.sy := rfl
@[simp] theorem setIsland_ri (i : Nat) (x : Island) : (s.setIsland i x).ri = s.ri := rfl
@[simp] theorem setIsland_mv (i : Nat) (x : Island) : (s.setIsland i x).mv = s.mv := rfl
@[simp] theorem setIsland_co (i : Nat) (x : Island) : (s.setIsland i x).co = s.co := rfl
@[simp] theorem setIsland_mp (i : Nat) (x : Island) : (s.setIsland i x).mp = s.mp := rfl
@[simp] theorem setIsland_su (i : Nat) (x : Island) : (s.setIsland i x).su = s.su := rfl
@[simp] theorem setIsland_ag (i : Nat) (x : Island) : (s.setIsland i x).ag = s.ag := rfl
@[simp] theorem setIsland_answer (i : Nat) (x : Island) : (s.setIsland i x).answer = s.answer := rfl
@[simp] theorem setIsland_draws (i : Nat) (x : Island) : (s.setIsland i x).draws = s.draws := rfl
@[simp] theorem setIsland_pending (i : Nat) (x : Island) : (s.setIsland i x).pending = s.pending := rfl
@[simp] theorem setIsland_reg (i : Nat) (x : Island) (ix sub : Nat) : (s.setIsland i x).reg ix sub = s.reg ix sub := rfl
@[simp] theorem setIsland_record (i : Nat) (x : Island) (ix sub rn : Nat) : (s.setIsland i x).record ix sub rn = s.record ix sub rn := rfl

/-! ### setGroup -/

@[simp] theorem setGroup_raw (g : Nat) (x : ApplyGroup) : (s.setGroup g x).raw = s.raw := rfl
@[simp] theorem setGroup_variant (g : Nat) (x : ApplyGroup) : (s.setGroup g x).variant = s.variant := rfl
@[simp] theorem setGroup_gradeI (g : Nat) (x : ApplyGroup) : (s.setGroup g x).gradeI = s.gradeI := rfl
@[simp] theorem setGroup_dict (g : Nat) (x : ApplyGroup) : (s.setGroup g x).dict = s.dict := rfl
@[simp] theorem setGroup_tabs (g : Nat) (x : ApplyGroup) : (s.setGroup g x).tabs = s.tabs := rfl
@[simp] theorem setGroup_lens (g : Nat) (x : ApplyGroup) : (s.setGroup g x).lens = s.lens := rfl
@[simp] theorem setGroup_fr (g : Nat) (x : ApplyGroup) : (s.setGroup g x).fr = s.fr := rfl
@[simp] theorem setGroup_rg (g : Nat) (x : ApplyGroup) : (s.setGroup g x).rg = s.rg := rfl
@[simp] theorem setGroup_tb (g : Nat) (x : ApplyGroup) : (s.setGroup g x).tb = s.tb := rfl
@[simp] theorem setGroup_eg (g : Nat) (x : ApplyGroup) : (s.setGroup g x).eg = s.eg := rfl
@[simp] theorem setGroup_tm (g : Nat) (x : ApplyGroup) : (s.setGroup g x).tm = s.tm := rfl
@[simp] theorem setGroup_ho (g : Nat) (x : ApplyGroup) : (s.setGroup g x).ho = s.ho := rfl
@[simp] theorem setGroup_ln (g : Nat) (x : ApplyGroup) : (s.setGroup g x).ln = s.ln := rfl
@[simp] theorem setGroup_mm (g : Nat) (x : ApplyGroup) : (s.setGroup g x).mm = s.mm := rfl
@[simp] theorem setGroup_nv (g : Nat) (x : ApplyGroup) : (s.setGroup g x).nv = s.nv := rfl
@[simp] theorem setGroup_sy (g : Nat) (x : ApplyGroup) : (s.setGroup g x).sy = s.sy := rfl
@[simp] theorem setGroup_ri (g : Nat) (x : ApplyGroup) : (s.setGroup g x).ri = s.ri := rfl
@[simp] theorem setGroup_mv (g : Nat) (x : ApplyGroup) : (s.setGroup g x).mv = s.mv := rfl
@[simp] theorem setGroup_co (g : Nat) (x : ApplyGroup) : (s.setGroup g x).co = s.co := rfl
@[simp] theorem setGroup_mp (g : Nat) (x : ApplyGroup) : (s.setGroup g x).mp = s.mp := rfl
@[simp] theorem setGroup_su (g : Nat) (x : ApplyGroup) : (s.setGroup g x).su = s.su := rfl
@[simp] theorem setGroup_ag (g : Nat) (x : ApplyGroup) : (s.setGroup g x).ag = s.ag := rfl
@[simp] theorem setGroup_answer (g : Nat) (x : ApplyGroup) : (s.setGroup g x).answer = s.answer := rfl
@[simp] theorem setGroup_draws (g : Nat) (x : ApplyGroup) : (s.setGroup g x).draws = s.draws := rfl
@[simp] theorem setGroup_pending (g : Nat) (x : ApplyGroup) : (s.setGroup g x).pending = s.pending := rfl
@[simp] theorem setGroup_reg (g : Nat) (x : ApplyGroup) (ix sub : Nat) : (s.setGroup g x).reg ix sub = s.reg ix sub := rfl
@[simp] theorem setGroup_record (g : Nat) (x : ApplyGroup) (ix sub rn : Nat) : (s.setGroup g x).record ix sub rn = s.record ix sub rn := rfl

/-! ### setVec -/

@[simp] theorem setVec_raw (v : Nat) (x : Vec) : (s.setVec v x).raw = s.raw := rfl
@[simp] theorem setVec_variant (v : Nat) (x : Vec) : (s.setVec v x).variant = s.variant := rfl
@[simp] theorem setVec_gradeI (v : Nat) (x : Vec) : (s.setVec v x).gradeI = s.gradeI := rfl
@[simp] theorem setVec_dict (v : Nat) (x : Vec) : (s.setVec v x).dict = s.dict := rfl
@[simp] theorem setVec_tabs (v : Nat) (x : Vec) : (s.setVec v x).tabs = s.tabs := rfl
@[simp] theorem setVec_lens (v : Nat) (x : Vec) : (s.setVec v x).lens = s.lens := rfl
@[simp] theorem setVec_isl (v : Nat) (x : Vec) : (s.setVec v x).isl = s.isl := rfl
@[simp] theorem setVec_fr (v : Nat) (x : Vec) : (s.setVec v x).fr = s.fr := rfl
@[simp] theorem setVec_rg (v : Nat) (x : Vec) : (s.setVec v x).rg = s.rg := rfl
@[simp] theorem setVec_tb (v : Nat) (x : Vec) : (s.setVec v x).tb = s.tb := rfl
@[simp] theorem setVec_eg (v : Nat) (x : Vec) : (s.setVec v x).eg = s.eg := rfl
@[simp] theorem setVec_tm (v : Nat) (x : Vec) : (s.setVec v x).tm = s.tm := rfl
@[simp] theorem setVec_ln (v : Nat) (x : Vec) : (s.setVec v x).ln = s.ln := rfl
@[simp] theorem setVec_mm (v : Nat) (x : Vec) : (s.setVec v x).mm = s.mm := rfl
@[simp] theorem setVec_nv (v : Nat) (x : Vec) : (s.setVec v x).nv = s.nv := rfl
@[simp] theorem setVec_sy (v : Nat) (x : Vec) : (s.setVec v x).sy = s.sy := rfl
@[simp] theorem setVec_ri (v : Nat) (x : Vec) : (s.setVec v x).ri = s.ri := rfl
@[simp] theorem setVec_mv (v : Nat) (x : Vec) : (s.setVec v x).mv = s.mv := rfl
@[simp] theorem setVec_co (v : Nat) (x : Vec) : (s.setVec v x).co = s.co := rfl
@[simp] theorem setVec_mp (v : Nat) (x : Vec) : (s.setVec v x).mp = s.mp := rfl
@[simp] theorem setVec_su (v : Nat) (x : Vec) : (s.setVec v x).su = s.su := rfl
@[simp] theorem setVec_ag (v : Nat) (x : Vec) : (s.setVec v x).ag = s.ag := rfl
@[simp] theorem setVec_answer (v : Nat) (x : Vec) : (s.setVec v x).answer = s.answer := rfl
@[simp] theorem setVec_draws (v : Nat) (x : Vec) : (s.setVec v x).draws = s.draws := rfl
@[simp] theorem setVec_pending (v : Nat) (x : Vec) : (s.setVec v x).pending = s.pending := rfl
@[simp] theorem setVec_reg (v : Nat) (x : Vec) (ix sub : Nat) : (s.setVec v x).reg ix sub = s.reg ix sub := rfl
@[simp] theorem setVec_record (v : Nat) (x : Vec) (ix sub rn : Nat) : (s.setVec v x).record ix sub rn = s.record ix sub rn := rfl

/-! ### setChannel -/

@[simp] theorem setChannel_raw (c : Nat) (x : Channel) : (s.setChannel c x).raw = s.raw := rfl
@[simp] theorem setChannel_variant (c : Nat) (x : Channel) : (s.setChannel c x).variant = s.variant := rfl
@[simp] theorem setChannel_gradeI (c : Nat) (x : Channel) : (s.setChannel c x).gradeI = s.gradeI := rfl
@[simp] theorem setChannel_dict (c : Nat) (x : Channel) : (s.setChannel c x).dict = s.dict := rfl
@[simp] theorem setChannel_tabs (c : Nat) (x : Channel) : (s.setChannel c x).tabs = s.tabs := rfl
@[simp] theorem setChannel_lens (c : Nat) (x : Channel) : (s.setChannel c x).lens = s.lens := rfl
@[simp] theorem setChannel_isl (c : Nat) (x : Channel) : (s.setChannel c x).isl = s.isl := rfl
@[simp] theorem setChannel_fr (c : Nat) (x : Channel) : (s.setChannel c x).fr = s.fr := rfl
@[simp] theorem setChannel_rg (c : Nat) (x : Channel) : (s.setChannel c x).rg = s.rg := rfl
@[simp] theorem setChannel_tb (c : Nat) (x : Channel) : (s.setChannel c x).tb = s.tb := rfl
@[simp] theorem setChannel_eg (c : Nat) (x : Channel) : (s.setChannel c x).eg = s.eg := rfl
@[simp] theorem setChannel_tm (c : Nat) (x : Channel) : (s.setChannel c x).tm = s.tm := rfl
@[simp] theorem setChannel_ln (c : Nat) (x : Channel) : (s.setChannel c x).ln = s.ln := rfl
@[simp] theorem setChannel_mm (c : Nat) (x : Channel) : (s.setChannel c x).mm = s.mm := rfl
@[simp] theorem setChannel_nv (c : Nat) (x : Channel) : (s.setChannel c x).nv = s.nv := rfl
@[simp] theorem setChannel_sy (c : Nat) (x : Channel) : (s.setChannel c x).sy = s.sy := rfl
@[simp] theorem setChannel_ri (c : Nat) (x : Channel) : (s.setChannel c x).ri = s.ri := rfl
@[simp] theorem setChannel_mv (c : Nat) (x : Channel) : (s.setChannel c x).mv = s.mv := rfl
@[simp] theorem setChannel_co (c : Nat) (x : Channel) : (s.setChannel c x).co = s.co := rfl
@[simp] theorem setChannel_mp (c : Nat) (x : Channel) : (s.setChannel c x).mp = s.mp := rfl
@[simp] theorem setChannel_su (c : Nat) (x : Channel) : (s.setChannel c x).su = s.su := rfl
@[simp] theorem setChannel_ag (c : Nat) (x : Channel) : (s.setChannel c x).ag = s.ag := rfl
@[simp] theorem setChannel_answer (c : Nat) (x : Channel) : (s.setChannel c x).answer = s.answer := rfl
@[simp] theorem setChannel_draws (c : Nat) (x : Channel) : (s.setChannel c x).draws = s.draws := rfl
@[simp] theorem setChannel_pending (c : Nat) (x : Channel) : (s.setChannel c x).pending = s.pending := rfl
@[simp] theorem setChannel_reg (c : Nat) (x : Channel) (ix sub : Nat) : (s.setChannel c x).reg ix sub = s.reg ix sub := rfl
@[simp] theorem setChannel_record (c : Nat) (x : Channel) (ix sub rn : Nat) : (s.setChannel c x).record ix sub rn = s.record ix sub rn := rfl

/-! ### setCring -/

@[simp] theorem setCring_raw (r : Nat) (x : CRing) : (s.setCring r x).raw = s.raw := rfl
@[simp] theorem setCring_variant (r : Nat) (x : CRing) : (s.setCring r x).variant = s.variant := rfl
@[simp] theorem setCring_gradeI (r : Nat) (x : CRing) : (s.setCring r x).gradeI = s.gradeI := rfl
@[simp] theorem setCring_dict (r : Nat) (x : CRing) : (s.setCring r x).dict = s.dict := rfl
@[simp] theorem setCring_tabs (r : Nat) (x : CRing) : (s.setCring r x).tabs = s.tabs := rfl
@[simp] theorem setCring_lens (r : Nat) (x : CRing) : (s.setCring r x).lens = s.lens := rfl
@[simp] theorem setCring_isl (r : Nat) (x : CRing) : (s.setCring r x).isl = s.isl := rfl
@[simp] theorem setCring_fr (r : Nat) (x : CRing) : (s.setCring r x).fr = s.fr := rfl
@[simp] theorem setCring_rg (r : Nat) (x : CRing) : (s.setCring r x).rg = s.rg := rfl
@[simp] theorem setCring_tb (r : Nat) (x : CRing) : (s.setCring r x).tb = s.tb := rfl
@[simp] theorem setCring_eg (r : Nat) (x : CRing) : (s.setCring r x).eg = s.eg := rfl
@[simp] theorem setCring_tm (r : Nat) (x : CRing) : (s.setCring r x).tm = s.tm := rfl
@[simp] theorem setCring_ln (r : Nat) (x : CRing) : (s.setCring r x).ln = s.ln := rfl
@[simp] theorem setCring_mm (r : Nat) (x : CRing) : (s.setCring r x).mm = s.mm := rfl
@[simp] theorem setCring_nv (r : Nat) (x : CRing) : (s.setCring r x).nv = s.nv := rfl
@[simp] theorem setCring_sy (r : Nat) (x : CRing) : (s.setCring r x).sy = s.sy := rfl
@[simp] theorem setCring_ri (r : Nat) (x : CRing) : (s.setCring r x).ri = s.ri := rfl
@[simp] theorem setCring_mv (r : Nat) (x : CRing) : (s.setCring r x).mv = s.mv := rfl
@[simp] theorem setCring_co (r : Nat) (x : CRing) : (s.setCring r x).co = s.co := rfl
@[simp] theorem setCring_mp (r : Nat) (x : CRing) : (s.setCring r x).mp = s.mp := rfl
@[simp] theorem setCring_su (r : Nat) (x : CRing) : (s.setCring r x).su = s.su := rfl
@[simp] theorem setCring_ag (r : Nat) (x : CRing) : (s.setCring r x).ag = s.ag := rfl
@[simp] theorem setCring_answer (r : Nat) (x : CRing) : (s.setCring r x).answer = s.answer := rfl
@[simp] theorem setCring_draws (r : Nat) (x : CRing) : (s.setCring r x).draws = s.draws := rfl
@[simp] theorem setCring_pending (r : Nat) (x : CRing) : (s.setCring r x).pending = s.pending := rfl
@[simp] theorem setCring_reg (r : Nat) (x : CRing) (ix sub : Nat) : (s.setCring r x).reg ix sub = s.reg ix sub := rfl
@[simp] theorem setCring_record (r : Nat) (x : CRing) (ix sub rn : Nat) : (s.setCring r x).record ix sub rn = s.record ix sub rn := rfl

/-! ### setDom -/

@[simp] theorem setDom_raw (d : Nat) (x : TDomain) : (s.setDom d x).raw = s.raw := rfl
@[simp] theorem setDom_variant (d : Nat) (x : TDomain) : (s.setDom d x).variant = s.variant := rfl
@[simp] theorem setDom_gradeI (d : Nat) (x : TDomain) : (s.setDom d x).gradeI = s.gradeI := rfl
@[simp] theorem setDom_dict (d : Nat) (x : TDomain) : (s.setDom d x).dict = s.dict := rfl
@[simp] theorem setDom_tabs (d : Nat) (x : TDomain) : (s.setDom d x).tabs = s.tabs := rfl
@[simp] theorem setDom_lens (d : Nat) (x : TDomain) : (s.setDom d x).lens = s.lens := rfl
@[simp] theorem setDom_isl (d : Nat) (x : TDomain) : (s.setDom d x).isl = s.isl := rfl
@[simp] theorem setDom_fr (d : Nat) (x : TDomain) : (s.setDom d x).fr = s.fr := rfl
@[simp] theorem setDom_rg (d : Nat) (x : TDomain) : (s.setDom d x).rg = s.rg := rfl
@[simp] theorem setDom_tb (d : Nat) (x : TDomain) : (s.setDom d x).tb = s.tb := rfl
@[simp] theorem setDom_eg (d : Nat) (x : TDomain) : (s.setDom d x).eg = s.eg := rfl
@[simp] theorem setDom_ho (d : Nat) (x : TDomain) : (s.setDom d x).ho = s.ho := rfl
@[simp] theorem setDom_ln (d : Nat) (x : TDomain) : (s.setDom d x).ln = s.ln := rfl
@[simp] theorem setDom_mm (d : Nat) (x : TDomain) : (s.setDom d x).mm = s.mm := rfl
@[simp] theorem setDom_nv (d : Nat) (x : TDomain) : (s.setDom d x).nv = s.nv := rfl
@[simp] theorem setDom_sy (d : Nat) (x : TDomain) : (s.setDom d x).sy = s.sy := rfl
@[simp] theorem setDom_ri (d : Nat) (x : TDomain) : (s.setDom d x).ri = s.ri := rfl
@[simp] theorem setDom_mv (d : Nat) (x : TDomain) : (s.setDom d x).mv = s.mv := rfl
@[simp] theorem setDom_co (d : Nat) (x : TDomain) : (s.setDom d x).co = s.co := rfl
@[simp] theorem setDom_mp (d : Nat) (x : TDomain) : (s.setDom d x).mp = s.mp := rfl
@[simp] theorem setDom_su (d : Nat) (x : TDomain) : (s.setDom d x).su = s.su := rfl
@[simp] theorem setDom_ag (d : Nat) (x : TDomain) : (s.setDom d x).ag = s.ag := rfl
@[simp] theorem setDom_answer (d : Nat) (x : TDomain) : (s.setDom d x).answer = s.answer := rfl
@[simp] theorem setDom_draws (d : Nat) (x : TDomain) : (s.setDom d x).draws = s.draws := rfl
@[simp] theorem setDom_pending (d : Nat) (x : TDomain) : (s.setDom d x).pending = s.pending := rfl
@[simp] theorem setDom_reg (d : Nat) (x : TDomain) (ix sub : Nat) : (s.setDom d x).reg ix sub = s.reg ix sub := rfl
@[simp] theorem setDom_record (d : Nat) (x : TDomain) (ix sub rn : Nat) : (s.setDom d x).record ix sub rn = s.record ix sub rn := rfl

/-! ### setServo -/

@[simp] theorem setServo_raw (d : Nat) (x : Servo) : (s.setServo d x).raw = s.raw := rfl
@[simp] theorem setServo_variant (d : Nat) (x : Servo) : (s.setServo d x).variant = s.variant := rfl
@[simp] theorem setServo_gradeI (d : Nat) (x : Servo) : (s.setServo d x).gradeI = s.gradeI := rfl
@[simp] theorem setServo_dict (d : Nat) (x : Servo) : (s.setServo d x).dict = s.dict := rfl
@[simp] theorem setServo_tabs (d : Nat) (x : Servo) : (s.setServo d x).tabs = s.tabs := rfl
@[simp] theorem setServo_lens (d : Nat) (x : Servo) : (s.setServo d x).lens = s.lens := rfl
@[simp] theorem setServo_isl (d : Nat) (x : Servo) : (s.setServo d x).isl = s.isl := rfl
@[simp] theorem setServo_fr (d : Nat) (x : Servo) : (s.setServo d x).fr = s.fr := rfl
@[simp] theorem setServo_rg (d : Nat) (x : Servo) : (s.setServo d x).rg = s.rg := rfl
@[simp] theorem setServo_tb (d : Nat) (x : Servo) : (s.setServo d x).tb = s.tb := rfl
@[simp] theorem setServo_eg (d : Nat) (x : Servo) : (s.setServo d x).eg = s.eg := rfl
@[simp] theorem setServo_ho (d : Nat) (x : Servo) : (s.setServo d x).ho = s.ho := rfl
@[simp] theorem setServo_ln (d : Nat) (x : Servo) : (s.setServo d x).ln = s.ln := rfl
@[simp] theorem setServo_mm (d : Nat) (x : Servo) : (s.setServo d x).mm = s.mm := rfl
@[simp] theorem setServo_nv (d : Nat) (x : Servo) : (s.setServo d x).nv = s.nv := rfl
@[simp] theorem setServo_sy (d : Nat) (x : Servo) : (s.setServo d x).sy = s.sy := rfl
@[simp] theorem setServo_ri (d : Nat) (x : Servo) : (s.setServo d x).ri = s.ri := rfl
@[simp] theorem setServo_mv (d : Nat) (x : Servo) : (s.setServo d x).mv = s.mv := rfl
@[simp] theorem setServo_co (d : Nat) (x : Servo) : (s.setServo d x).co = s.co := rfl
@[simp] theorem setServo_mp (d : Nat) (x : Servo) : (s.setServo d x).mp = s.mp := rfl
@[simp] theorem setServo_su (d : Nat) (x : Servo) : (s.setServo d x).su = s.su := rfl
@[simp] theorem setServo_ag (d : Nat) (x : Servo) : (s.setServo d x).ag = s.ag := rfl
@[simp] theorem setServo_answer (d : Nat) (x : Servo) : (s.setServo d x).answer = s.answer := rfl
@[simp] theorem setServo_draws (d : Nat) (x : Servo) : (s.setServo d x).draws = s.draws := rfl
@[simp] theorem setServo_pending (d : Nat) (x : Servo) : (s.setServo d x).pending = s.pending := rfl
@[simp] theorem setServo_reg (d : Nat) (x : Servo) (ix sub : Nat) : (s.setServo d x).reg ix sub = s.reg ix sub := rfl
@[simp] theorem setServo_record (d : Nat) (x : Servo) (ix sub rn : Nat) : (s.setServo d x).record ix sub rn = s.record ix sub rn := rfl

/-! ### setQuorum -/

@[simp] theorem setQuorum_raw (d : Nat) (x : Quorum) : (s.setQuorum d x).raw = s.raw := rfl
@[simp] theorem setQuorum_variant (d : Nat) (x : Quorum) : (s.setQuorum d x).variant = s.variant := rfl
@[simp] theorem setQuorum_gradeI (d : Nat) (x : Quorum) : (s.setQuorum d x).gradeI = s.gradeI := rfl
@[simp] theorem setQuorum_dict (d : Nat) (x : Quorum) : (s.setQuorum d x).dict = s.dict := rfl
@[simp] theorem setQuorum_tabs (d : Nat) (x : Quorum) : (s.setQuorum d x).tabs = s.tabs := rfl
@[simp] theorem setQuorum_lens (d : Nat) (x : Quorum) : (s.setQuorum d x).lens = s.lens := rfl
@[simp] theorem setQuorum_isl (d : Nat) (x : Quorum) : (s.setQuorum d x).isl = s.isl := rfl
@[simp] theorem setQuorum_fr (d : Nat) (x : Quorum) : (s.setQuorum d x).fr = s.fr := rfl
@[simp] theorem setQuorum_rg (d : Nat) (x : Quorum) : (s.setQuorum d x).rg = s.rg := rfl
@[simp] theorem setQuorum_tb (d : Nat) (x : Quorum) : (s.setQuorum d x).tb = s.tb := rfl
@[simp] theorem setQuorum_eg (d : Nat) (x : Quorum) : (s.setQuorum d x).eg = s.eg := rfl
@[simp] theorem setQuorum_ho (d : Nat) (x : Quorum) : (s.setQuorum d x).ho = s.ho := rfl
@[simp] theorem setQuorum_ln (d : Nat) (x : Quorum) : (s.setQuorum d x).ln = s.ln := rfl
@[simp] theorem setQuorum_mm (d : Nat) (x : Quorum) : (s.setQuorum d x).mm = s.mm := rfl
@[simp] theorem setQuorum_nv (d : Nat) (x : Quorum) : (s.setQuorum d x).nv = s.nv := rfl
@[simp] theorem setQuorum_sy (d : Nat) (x : Quorum) : (s.setQuorum d x).sy = s.sy := rfl
@[simp] theorem setQuorum_ri (d : Nat) (x : Quorum) : (s.setQuorum d x).ri = s.ri := rfl
@[simp] theorem setQuorum_mv (d : Nat) (x : Quorum) : (s.setQuorum d x).mv = s.mv := rfl
@[simp] theorem setQuorum_co (d : Nat) (x : Quorum) : (s.setQuorum d x).co = s.co := rfl
@[simp] theorem setQuorum_mp (d : Nat) (x : Quorum) : (s.setQuorum d x).mp = s.mp := rfl
@[simp] theorem setQuorum_su (d : Nat) (x : Quorum) : (s.setQuorum d x).su = s.su := rfl
@[simp] theorem setQuorum_ag (d : Nat) (x : Quorum) : (s.setQuorum d x).ag = s.ag := rfl
@[simp] theorem setQuorum_answer (d : Nat) (x : Quorum) : (s.setQuorum d x).answer = s.answer := rfl
@[simp] theorem setQuorum_draws (d : Nat) (x : Quorum) : (s.setQuorum d x).draws = s.draws := rfl
@[simp] theorem setQuorum_pending (d : Nat) (x : Quorum) : (s.setQuorum d x).pending = s.pending := rfl
@[simp] theorem setQuorum_reg (d : Nat) (x : Quorum) (ix sub : Nat) : (s.setQuorum d x).reg ix sub = s.reg ix sub := rfl
@[simp] theorem setQuorum_record (d : Nat) (x : Quorum) (ix sub rn : Nat) : (s.setQuorum d x).record ix sub rn = s.record ix sub rn := rfl

/-! ### setPtp -/

@[simp] theorem setPtp_raw (p d : Nat) (x : PtpPort) : (s.setPtp p d x).raw = s.raw := rfl
@[simp] theorem setPtp_variant (p d : Nat) (x : PtpPort) : (s.setPtp p d x).variant = s.variant := rfl
@[simp] theorem setPtp_gradeI (p d : Nat) (x : PtpPort) : (s.setPtp p d x).gradeI = s.gradeI := rfl
@[simp] theorem setPtp_dict (p d : Nat) (x : PtpPort) : (s.setPtp p d x).dict = s.dict := rfl
@[simp] theorem setPtp_tabs (p d : Nat) (x : PtpPort) : (s.setPtp p d x).tabs = s.tabs := rfl
@[simp] theorem setPtp_lens (p d : Nat) (x : PtpPort) : (s.setPtp p d x).lens = s.lens := rfl
@[simp] theorem setPtp_isl (p d : Nat) (x : PtpPort) : (s.setPtp p d x).isl = s.isl := rfl
@[simp] theorem setPtp_fr (p d : Nat) (x : PtpPort) : (s.setPtp p d x).fr = s.fr := rfl
@[simp] theorem setPtp_rg (p d : Nat) (x : PtpPort) : (s.setPtp p d x).rg = s.rg := rfl
@[simp] theorem setPtp_tb (p d : Nat) (x : PtpPort) : (s.setPtp p d x).tb = s.tb := rfl
@[simp] theorem setPtp_eg (p d : Nat) (x : PtpPort) : (s.setPtp p d x).eg = s.eg := rfl
@[simp] theorem setPtp_ho (p d : Nat) (x : PtpPort) : (s.setPtp p d x).ho = s.ho := rfl
@[simp] theorem setPtp_ln (p d : Nat) (x : PtpPort) : (s.setPtp p d x).ln = s.ln := rfl
@[simp] theorem setPtp_mm (p d : Nat) (x : PtpPort) : (s.setPtp p d x).mm = s.mm := rfl
@[simp] theorem setPtp_nv (p d : Nat) (x : PtpPort) : (s.setPtp p d x).nv = s.nv := rfl
@[simp] theorem setPtp_sy (p d : Nat) (x : PtpPort) : (s.setPtp p d x).sy = s.sy := rfl
@[simp] theorem setPtp_ri (p d : Nat) (x : PtpPort) : (s.setPtp p d x).ri = s.ri := rfl
@[simp] theorem setPtp_mv (p d : Nat) (x : PtpPort) : (s.setPtp p d x).mv = s.mv := rfl
@[simp] theorem setPtp_co (p d : Nat) (x : PtpPort) : (s.setPtp p d x).co = s.co := rfl
@[simp] theorem setPtp_mp (p d : Nat) (x : PtpPort) : (s.setPtp p d x).mp = s.mp := rfl
@[simp] theorem setPtp_su (p d : Nat) (x : PtpPort) : (s.setPtp p d x).su = s.su := rfl
@[simp] theorem setPtp_ag (p d : Nat) (x : PtpPort) : (s.setPtp p d x).ag = s.ag := rfl
@[simp] theorem setPtp_answer (p d : Nat) (x : PtpPort) : (s.setPtp p d x).answer = s.answer := rfl
@[simp] theorem setPtp_draws (p d : Nat) (x : PtpPort) : (s.setPtp p d x).draws = s.draws := rfl
@[simp] theorem setPtp_pending (p d : Nat) (x : PtpPort) : (s.setPtp p d x).pending = s.pending := rfl
@[simp] theorem setPtp_reg (p d : Nat) (x : PtpPort) (ix sub : Nat) : (s.setPtp p d x).reg ix sub = s.reg ix sub := rfl
@[simp] theorem setPtp_record (p d : Nat) (x : PtpPort) (ix sub rn : Nat) : (s.setPtp p d x).record ix sub rn = s.record ix sub rn := rfl

/-! ### setPin -/

@[simp] theorem setPin_raw (n : Nat) (x : Pin) : (s.setPin n x).raw = s.raw := rfl
@[simp] theorem setPin_variant (n : Nat) (x : Pin) : (s.setPin n x).variant = s.variant := rfl
@[simp] theorem setPin_gradeI (n : Nat) (x : Pin) : (s.setPin n x).gradeI = s.gradeI := rfl
@[simp] theorem setPin_dict (n : Nat) (x : Pin) : (s.setPin n x).dict = s.dict := rfl
@[simp] theorem setPin_tabs (n : Nat) (x : Pin) : (s.setPin n x).tabs = s.tabs := rfl
@[simp] theorem setPin_lens (n : Nat) (x : Pin) : (s.setPin n x).lens = s.lens := rfl
@[simp] theorem setPin_isl (n : Nat) (x : Pin) : (s.setPin n x).isl = s.isl := rfl
@[simp] theorem setPin_fr (n : Nat) (x : Pin) : (s.setPin n x).fr = s.fr := rfl
@[simp] theorem setPin_rg (n : Nat) (x : Pin) : (s.setPin n x).rg = s.rg := rfl
@[simp] theorem setPin_tb (n : Nat) (x : Pin) : (s.setPin n x).tb = s.tb := rfl
@[simp] theorem setPin_eg (n : Nat) (x : Pin) : (s.setPin n x).eg = s.eg := rfl
@[simp] theorem setPin_ho (n : Nat) (x : Pin) : (s.setPin n x).ho = s.ho := rfl
@[simp] theorem setPin_ln (n : Nat) (x : Pin) : (s.setPin n x).ln = s.ln := rfl
@[simp] theorem setPin_mm (n : Nat) (x : Pin) : (s.setPin n x).mm = s.mm := rfl
@[simp] theorem setPin_nv (n : Nat) (x : Pin) : (s.setPin n x).nv = s.nv := rfl
@[simp] theorem setPin_sy (n : Nat) (x : Pin) : (s.setPin n x).sy = s.sy := rfl
@[simp] theorem setPin_ri (n : Nat) (x : Pin) : (s.setPin n x).ri = s.ri := rfl
@[simp] theorem setPin_mv (n : Nat) (x : Pin) : (s.setPin n x).mv = s.mv := rfl
@[simp] theorem setPin_co (n : Nat) (x : Pin) : (s.setPin n x).co = s.co := rfl
@[simp] theorem setPin_mp (n : Nat) (x : Pin) : (s.setPin n x).mp = s.mp := rfl
@[simp] theorem setPin_su (n : Nat) (x : Pin) : (s.setPin n x).su = s.su := rfl
@[simp] theorem setPin_ag (n : Nat) (x : Pin) : (s.setPin n x).ag = s.ag := rfl
@[simp] theorem setPin_answer (n : Nat) (x : Pin) : (s.setPin n x).answer = s.answer := rfl
@[simp] theorem setPin_draws (n : Nat) (x : Pin) : (s.setPin n x).draws = s.draws := rfl
@[simp] theorem setPin_pending (n : Nat) (x : Pin) : (s.setPin n x).pending = s.pending := rfl
@[simp] theorem setPin_reg (n : Nat) (x : Pin) (ix sub : Nat) : (s.setPin n x).reg ix sub = s.reg ix sub := rfl
@[simp] theorem setPin_record (n : Nat) (x : Pin) (ix sub rn : Nat) : (s.setPin n x).record ix sub rn = s.record ix sub rn := rfl

/-! ### setGate -/

@[simp] theorem setGate_raw (k : Nat) (x : Gate) : (s.setGate k x).raw = s.raw := rfl
@[simp] theorem setGate_variant (k : Nat) (x : Gate) : (s.setGate k x).variant = s.variant := rfl
@[simp] theorem setGate_gradeI (k : Nat) (x : Gate) : (s.setGate k x).gradeI = s.gradeI := rfl
@[simp] theorem setGate_dict (k : Nat) (x : Gate) : (s.setGate k x).dict = s.dict := rfl
@[simp] theorem setGate_tabs (k : Nat) (x : Gate) : (s.setGate k x).tabs = s.tabs := rfl
@[simp] theorem setGate_lens (k : Nat) (x : Gate) : (s.setGate k x).lens = s.lens := rfl
@[simp] theorem setGate_isl (k : Nat) (x : Gate) : (s.setGate k x).isl = s.isl := rfl
@[simp] theorem setGate_fr (k : Nat) (x : Gate) : (s.setGate k x).fr = s.fr := rfl
@[simp] theorem setGate_rg (k : Nat) (x : Gate) : (s.setGate k x).rg = s.rg := rfl
@[simp] theorem setGate_tb (k : Nat) (x : Gate) : (s.setGate k x).tb = s.tb := rfl
@[simp] theorem setGate_tm (k : Nat) (x : Gate) : (s.setGate k x).tm = s.tm := rfl
@[simp] theorem setGate_ho (k : Nat) (x : Gate) : (s.setGate k x).ho = s.ho := rfl
@[simp] theorem setGate_ln (k : Nat) (x : Gate) : (s.setGate k x).ln = s.ln := rfl
@[simp] theorem setGate_mm (k : Nat) (x : Gate) : (s.setGate k x).mm = s.mm := rfl
@[simp] theorem setGate_nv (k : Nat) (x : Gate) : (s.setGate k x).nv = s.nv := rfl
@[simp] theorem setGate_sy (k : Nat) (x : Gate) : (s.setGate k x).sy = s.sy := rfl
@[simp] theorem setGate_ri (k : Nat) (x : Gate) : (s.setGate k x).ri = s.ri := rfl
@[simp] theorem setGate_mv (k : Nat) (x : Gate) : (s.setGate k x).mv = s.mv := rfl
@[simp] theorem setGate_co (k : Nat) (x : Gate) : (s.setGate k x).co = s.co := rfl
@[simp] theorem setGate_mp (k : Nat) (x : Gate) : (s.setGate k x).mp = s.mp := rfl
@[simp] theorem setGate_su (k : Nat) (x : Gate) : (s.setGate k x).su = s.su := rfl
@[simp] theorem setGate_ag (k : Nat) (x : Gate) : (s.setGate k x).ag = s.ag := rfl
@[simp] theorem setGate_answer (k : Nat) (x : Gate) : (s.setGate k x).answer = s.answer := rfl
@[simp] theorem setGate_draws (k : Nat) (x : Gate) : (s.setGate k x).draws = s.draws := rfl
@[simp] theorem setGate_pending (k : Nat) (x : Gate) : (s.setGate k x).pending = s.pending := rfl
@[simp] theorem setGate_reg (k : Nat) (x : Gate) (ix sub : Nat) : (s.setGate k x).reg ix sub = s.reg ix sub := rfl
@[simp] theorem setGate_record (k : Nat) (x : Gate) (ix sub rn : Nat) : (s.setGate k x).record ix sub rn = s.record ix sub rn := rfl

/-! ### setShaper -/

@[simp] theorem setShaper_raw (q : Nat) (x : Shaper) : (s.setShaper q x).raw = s.raw := rfl
@[simp] theorem setShaper_variant (q : Nat) (x : Shaper) : (s.setShaper q x).variant = s.variant := rfl
@[simp] theorem setShaper_gradeI (q : Nat) (x : Shaper) : (s.setShaper q x).gradeI = s.gradeI := rfl
@[simp] theorem setShaper_dict (q : Nat) (x : Shaper) : (s.setShaper q x).dict = s.dict := rfl
@[simp] theorem setShaper_tabs (q : Nat) (x : Shaper) : (s.setShaper q x).tabs = s.tabs := rfl
@[simp] theorem setShaper_lens (q : Nat) (x : Shaper) : (s.setShaper q x).lens = s.lens := rfl
@[simp] theorem setShaper_isl (q : Nat) (x : Shaper) : (s.setShaper q x).isl = s.isl := rfl
@[simp] theorem setShaper_fr (q : Nat) (x : Shaper) : (s.setShaper q x).fr = s.fr := rfl
@[simp] theorem setShaper_rg (q : Nat) (x : Shaper) : (s.setShaper q x).rg = s.rg := rfl
@[simp] theorem setShaper_tb (q : Nat) (x : Shaper) : (s.setShaper q x).tb = s.tb := rfl
@[simp] theorem setShaper_tm (q : Nat) (x : Shaper) : (s.setShaper q x).tm = s.tm := rfl
@[simp] theorem setShaper_ho (q : Nat) (x : Shaper) : (s.setShaper q x).ho = s.ho := rfl
@[simp] theorem setShaper_ln (q : Nat) (x : Shaper) : (s.setShaper q x).ln = s.ln := rfl
@[simp] theorem setShaper_mm (q : Nat) (x : Shaper) : (s.setShaper q x).mm = s.mm := rfl
@[simp] theorem setShaper_nv (q : Nat) (x : Shaper) : (s.setShaper q x).nv = s.nv := rfl
@[simp] theorem setShaper_sy (q : Nat) (x : Shaper) : (s.setShaper q x).sy = s.sy := rfl
@[simp] theorem setShaper_ri (q : Nat) (x : Shaper) : (s.setShaper q x).ri = s.ri := rfl
@[simp] theorem setShaper_mv (q : Nat) (x : Shaper) : (s.setShaper q x).mv = s.mv := rfl
@[simp] theorem setShaper_co (q : Nat) (x : Shaper) : (s.setShaper q x).co = s.co := rfl
@[simp] theorem setShaper_mp (q : Nat) (x : Shaper) : (s.setShaper q x).mp = s.mp := rfl
@[simp] theorem setShaper_su (q : Nat) (x : Shaper) : (s.setShaper q x).su = s.su := rfl
@[simp] theorem setShaper_ag (q : Nat) (x : Shaper) : (s.setShaper q x).ag = s.ag := rfl
@[simp] theorem setShaper_answer (q : Nat) (x : Shaper) : (s.setShaper q x).answer = s.answer := rfl
@[simp] theorem setShaper_draws (q : Nat) (x : Shaper) : (s.setShaper q x).draws = s.draws := rfl
@[simp] theorem setShaper_pending (q : Nat) (x : Shaper) : (s.setShaper q x).pending = s.pending := rfl
@[simp] theorem setShaper_reg (q : Nat) (x : Shaper) (ix sub : Nat) : (s.setShaper q x).reg ix sub = s.reg ix sub := rfl
@[simp] theorem setShaper_record (q : Nat) (x : Shaper) (ix sub rn : Nat) : (s.setShaper q x).record ix sub rn = s.record ix sub rn := rfl

/-! ### setPkt -/

@[simp] theorem setPkt_raw (h : Nat) (x : Packet) : (s.setPkt h x).raw = s.raw := rfl
@[simp] theorem setPkt_variant (h : Nat) (x : Packet) : (s.setPkt h x).variant = s.variant := rfl
@[simp] theorem setPkt_gradeI (h : Nat) (x : Packet) : (s.setPkt h x).gradeI = s.gradeI := rfl
@[simp] theorem setPkt_dict (h : Nat) (x : Packet) : (s.setPkt h x).dict = s.dict := rfl
@[simp] theorem setPkt_tabs (h : Nat) (x : Packet) : (s.setPkt h x).tabs = s.tabs := rfl
@[simp] theorem setPkt_lens (h : Nat) (x : Packet) : (s.setPkt h x).lens = s.lens := rfl
@[simp] theorem setPkt_isl (h : Nat) (x : Packet) : (s.setPkt h x).isl = s.isl := rfl
@[simp] theorem setPkt_rg (h : Nat) (x : Packet) : (s.setPkt h x).rg = s.rg := rfl
@[simp] theorem setPkt_tb (h : Nat) (x : Packet) : (s.setPkt h x).tb = s.tb := rfl
@[simp] theorem setPkt_eg (h : Nat) (x : Packet) : (s.setPkt h x).eg = s.eg := rfl
@[simp] theorem setPkt_tm (h : Nat) (x : Packet) : (s.setPkt h x).tm = s.tm := rfl
@[simp] theorem setPkt_ho (h : Nat) (x : Packet) : (s.setPkt h x).ho = s.ho := rfl
@[simp] theorem setPkt_ln (h : Nat) (x : Packet) : (s.setPkt h x).ln = s.ln := rfl
@[simp] theorem setPkt_mm (h : Nat) (x : Packet) : (s.setPkt h x).mm = s.mm := rfl
@[simp] theorem setPkt_nv (h : Nat) (x : Packet) : (s.setPkt h x).nv = s.nv := rfl
@[simp] theorem setPkt_sy (h : Nat) (x : Packet) : (s.setPkt h x).sy = s.sy := rfl
@[simp] theorem setPkt_ri (h : Nat) (x : Packet) : (s.setPkt h x).ri = s.ri := rfl
@[simp] theorem setPkt_mv (h : Nat) (x : Packet) : (s.setPkt h x).mv = s.mv := rfl
@[simp] theorem setPkt_co (h : Nat) (x : Packet) : (s.setPkt h x).co = s.co := rfl
@[simp] theorem setPkt_mp (h : Nat) (x : Packet) : (s.setPkt h x).mp = s.mp := rfl
@[simp] theorem setPkt_su (h : Nat) (x : Packet) : (s.setPkt h x).su = s.su := rfl
@[simp] theorem setPkt_ag (h : Nat) (x : Packet) : (s.setPkt h x).ag = s.ag := rfl
@[simp] theorem setPkt_answer (h : Nat) (x : Packet) : (s.setPkt h x).answer = s.answer := rfl
@[simp] theorem setPkt_draws (h : Nat) (x : Packet) : (s.setPkt h x).draws = s.draws := rfl
@[simp] theorem setPkt_pending (h : Nat) (x : Packet) : (s.setPkt h x).pending = s.pending := rfl
@[simp] theorem setPkt_reg (h : Nat) (x : Packet) (ix sub : Nat) : (s.setPkt h x).reg ix sub = s.reg ix sub := rfl
@[simp] theorem setPkt_record (h : Nat) (x : Packet) (ix sub rn : Nat) : (s.setPkt h x).record ix sub rn = s.record ix sub rn := rfl

/-! ### dropPkt -/

@[simp] theorem dropPkt_raw (h : Nat) : (s.dropPkt h).raw = s.raw := rfl
@[simp] theorem dropPkt_variant (h : Nat) : (s.dropPkt h).variant = s.variant := rfl
@[simp] theorem dropPkt_gradeI (h : Nat) : (s.dropPkt h).gradeI = s.gradeI := rfl
@[simp] theorem dropPkt_dict (h : Nat) : (s.dropPkt h).dict = s.dict := rfl
@[simp] theorem dropPkt_tabs (h : Nat) : (s.dropPkt h).tabs = s.tabs := rfl
@[simp] theorem dropPkt_lens (h : Nat) : (s.dropPkt h).lens = s.lens := rfl
@[simp] theorem dropPkt_isl (h : Nat) : (s.dropPkt h).isl = s.isl := rfl
@[simp] theorem dropPkt_rg (h : Nat) : (s.dropPkt h).rg = s.rg := rfl
@[simp] theorem dropPkt_tb (h : Nat) : (s.dropPkt h).tb = s.tb := rfl
@[simp] theorem dropPkt_eg (h : Nat) : (s.dropPkt h).eg = s.eg := rfl
@[simp] theorem dropPkt_tm (h : Nat) : (s.dropPkt h).tm = s.tm := rfl
@[simp] theorem dropPkt_ho (h : Nat) : (s.dropPkt h).ho = s.ho := rfl
@[simp] theorem dropPkt_ln (h : Nat) : (s.dropPkt h).ln = s.ln := rfl
@[simp] theorem dropPkt_mm (h : Nat) : (s.dropPkt h).mm = s.mm := rfl
@[simp] theorem dropPkt_nv (h : Nat) : (s.dropPkt h).nv = s.nv := rfl
@[simp] theorem dropPkt_sy (h : Nat) : (s.dropPkt h).sy = s.sy := rfl
@[simp] theorem dropPkt_ri (h : Nat) : (s.dropPkt h).ri = s.ri := rfl
@[simp] theorem dropPkt_mv (h : Nat) : (s.dropPkt h).mv = s.mv := rfl
@[simp] theorem dropPkt_co (h : Nat) : (s.dropPkt h).co = s.co := rfl
@[simp] theorem dropPkt_mp (h : Nat) : (s.dropPkt h).mp = s.mp := rfl
@[simp] theorem dropPkt_su (h : Nat) : (s.dropPkt h).su = s.su := rfl
@[simp] theorem dropPkt_ag (h : Nat) : (s.dropPkt h).ag = s.ag := rfl
@[simp] theorem dropPkt_answer (h : Nat) : (s.dropPkt h).answer = s.answer := rfl
@[simp] theorem dropPkt_draws (h : Nat) : (s.dropPkt h).draws = s.draws := rfl
@[simp] theorem dropPkt_pending (h : Nat) : (s.dropPkt h).pending = s.pending := rfl
@[simp] theorem dropPkt_reg (h : Nat) (ix sub : Nat) : (s.dropPkt h).reg ix sub = s.reg ix sub := rfl
@[simp] theorem dropPkt_record (h : Nat) (ix sub rn : Nat) : (s.dropPkt h).record ix sub rn = s.record ix sub rn := rfl

/-! ### setQueue -/

@[simp] theorem setQueue_raw (q : Nat) (l : List QCopy) : (s.setQueue q l).raw = s.raw := rfl
@[simp] theorem setQueue_variant (q : Nat) (l : List QCopy) : (s.setQueue q l).variant = s.variant := rfl
@[simp] theorem setQueue_gradeI (q : Nat) (l : List QCopy) : (s.setQueue q l).gradeI = s.gradeI := rfl
@[simp] theorem setQueue_dict (q : Nat) (l : List QCopy) : (s.setQueue q l).dict = s.dict := rfl
@[simp] theorem setQueue_tabs (q : Nat) (l : List QCopy) : (s.setQueue q l).tabs = s.tabs := rfl
@[simp] theorem setQueue_lens (q : Nat) (l : List QCopy) : (s.setQueue q l).lens = s.lens := rfl
@[simp] theorem setQueue_isl (q : Nat) (l : List QCopy) : (s.setQueue q l).isl = s.isl := rfl
@[simp] theorem setQueue_rg (q : Nat) (l : List QCopy) : (s.setQueue q l).rg = s.rg := rfl
@[simp] theorem setQueue_tb (q : Nat) (l : List QCopy) : (s.setQueue q l).tb = s.tb := rfl
@[simp] theorem setQueue_eg (q : Nat) (l : List QCopy) : (s.setQueue q l).eg = s.eg := rfl
@[simp] theorem setQueue_tm (q : Nat) (l : List QCopy) : (s.setQueue q l).tm = s.tm := rfl
@[simp] theorem setQueue_ho (q : Nat) (l : List QCopy) : (s.setQueue q l).ho = s.ho := rfl
@[simp] theorem setQueue_ln (q : Nat) (l : List QCopy) : (s.setQueue q l).ln = s.ln := rfl
@[simp] theorem setQueue_mm (q : Nat) (l : List QCopy) : (s.setQueue q l).mm = s.mm := rfl
@[simp] theorem setQueue_nv (q : Nat) (l : List QCopy) : (s.setQueue q l).nv = s.nv := rfl
@[simp] theorem setQueue_sy (q : Nat) (l : List QCopy) : (s.setQueue q l).sy = s.sy := rfl
@[simp] theorem setQueue_ri (q : Nat) (l : List QCopy) : (s.setQueue q l).ri = s.ri := rfl
@[simp] theorem setQueue_mv (q : Nat) (l : List QCopy) : (s.setQueue q l).mv = s.mv := rfl
@[simp] theorem setQueue_co (q : Nat) (l : List QCopy) : (s.setQueue q l).co = s.co := rfl
@[simp] theorem setQueue_mp (q : Nat) (l : List QCopy) : (s.setQueue q l).mp = s.mp := rfl
@[simp] theorem setQueue_su (q : Nat) (l : List QCopy) : (s.setQueue q l).su = s.su := rfl
@[simp] theorem setQueue_ag (q : Nat) (l : List QCopy) : (s.setQueue q l).ag = s.ag := rfl
@[simp] theorem setQueue_answer (q : Nat) (l : List QCopy) : (s.setQueue q l).answer = s.answer := rfl
@[simp] theorem setQueue_draws (q : Nat) (l : List QCopy) : (s.setQueue q l).draws = s.draws := rfl
@[simp] theorem setQueue_pending (q : Nat) (l : List QCopy) : (s.setQueue q l).pending = s.pending := rfl
@[simp] theorem setQueue_reg (q : Nat) (l : List QCopy) (ix sub : Nat) : (s.setQueue q l).reg ix sub = s.reg ix sub := rfl
@[simp] theorem setQueue_record (q : Nat) (l : List QCopy) (ix sub rn : Nat) : (s.setQueue q l).record ix sub rn = s.record ix sub rn := rfl

/-! ### setPmac -/

@[simp] theorem setPmac_raw (p : Nat) (x : PMac) : (s.setPmac p x).raw = s.raw := rfl
@[simp] theorem setPmac_variant (p : Nat) (x : PMac) : (s.setPmac p x).variant = s.variant := rfl
@[simp] theorem setPmac_gradeI (p : Nat) (x : PMac) : (s.setPmac p x).gradeI = s.gradeI := rfl
@[simp] theorem setPmac_dict (p : Nat) (x : PMac) : (s.setPmac p x).dict = s.dict := rfl
@[simp] theorem setPmac_tabs (p : Nat) (x : PMac) : (s.setPmac p x).tabs = s.tabs := rfl
@[simp] theorem setPmac_lens (p : Nat) (x : PMac) : (s.setPmac p x).lens = s.lens := rfl
@[simp] theorem setPmac_isl (p : Nat) (x : PMac) : (s.setPmac p x).isl = s.isl := rfl
@[simp] theorem setPmac_rg (p : Nat) (x : PMac) : (s.setPmac p x).rg = s.rg := rfl
@[simp] theorem setPmac_tb (p : Nat) (x : PMac) : (s.setPmac p x).tb = s.tb := rfl
@[simp] theorem setPmac_eg (p : Nat) (x : PMac) : (s.setPmac p x).eg = s.eg := rfl
@[simp] theorem setPmac_tm (p : Nat) (x : PMac) : (s.setPmac p x).tm = s.tm := rfl
@[simp] theorem setPmac_ho (p : Nat) (x : PMac) : (s.setPmac p x).ho = s.ho := rfl
@[simp] theorem setPmac_ln (p : Nat) (x : PMac) : (s.setPmac p x).ln = s.ln := rfl
@[simp] theorem setPmac_mm (p : Nat) (x : PMac) : (s.setPmac p x).mm = s.mm := rfl
@[simp] theorem setPmac_nv (p : Nat) (x : PMac) : (s.setPmac p x).nv = s.nv := rfl
@[simp] theorem setPmac_sy (p : Nat) (x : PMac) : (s.setPmac p x).sy = s.sy := rfl
@[simp] theorem setPmac_ri (p : Nat) (x : PMac) : (s.setPmac p x).ri = s.ri := rfl
@[simp] theorem setPmac_mv (p : Nat) (x : PMac) : (s.setPmac p x).mv = s.mv := rfl
@[simp] theorem setPmac_co (p : Nat) (x : PMac) : (s.setPmac p x).co = s.co := rfl
@[simp] theorem setPmac_mp (p : Nat) (x : PMac) : (s.setPmac p x).mp = s.mp := rfl
@[simp] theorem setPmac_su (p : Nat) (x : PMac) : (s.setPmac p x).su = s.su := rfl
@[simp] theorem setPmac_ag (p : Nat) (x : PMac) : (s.setPmac p x).ag = s.ag := rfl
@[simp] theorem setPmac_answer (p : Nat) (x : PMac) : (s.setPmac p x).answer = s.answer := rfl
@[simp] theorem setPmac_draws (p : Nat) (x : PMac) : (s.setPmac p x).draws = s.draws := rfl
@[simp] theorem setPmac_pending (p : Nat) (x : PMac) : (s.setPmac p x).pending = s.pending := rfl
@[simp] theorem setPmac_reg (p : Nat) (x : PMac) (ix sub : Nat) : (s.setPmac p x).reg ix sub = s.reg ix sub := rfl
@[simp] theorem setPmac_record (p : Nat) (x : PMac) (ix sub rn : Nat) : (s.setPmac p x).record ix sub rn = s.record ix sub rn := rfl

/-! ### setKeeper -/

@[simp] theorem setKeeper_raw (k : Nat) (x : Keeper) : (s.setKeeper k x).raw = s.raw := rfl
@[simp] theorem setKeeper_variant (k : Nat) (x : Keeper) : (s.setKeeper k x).variant = s.variant := rfl
@[simp] theorem setKeeper_gradeI (k : Nat) (x : Keeper) : (s.setKeeper k x).gradeI = s.gradeI := rfl
@[simp] theorem setKeeper_dict (k : Nat) (x : Keeper) : (s.setKeeper k x).dict = s.dict := rfl
@[simp] theorem setKeeper_tabs (k : Nat) (x : Keeper) : (s.setKeeper k x).tabs = s.tabs := rfl
@[simp] theorem setKeeper_lens (k : Nat) (x : Keeper) : (s.setKeeper k x).lens = s.lens := rfl
@[simp] theorem setKeeper_isl (k : Nat) (x : Keeper) : (s.setKeeper k x).isl = s.isl := rfl
@[simp] theorem setKeeper_rg (k : Nat) (x : Keeper) : (s.setKeeper k x).rg = s.rg := rfl
@[simp] theorem setKeeper_tb (k : Nat) (x : Keeper) : (s.setKeeper k x).tb = s.tb := rfl
@[simp] theorem setKeeper_eg (k : Nat) (x : Keeper) : (s.setKeeper k x).eg = s.eg := rfl
@[simp] theorem setKeeper_tm (k : Nat) (x : Keeper) : (s.setKeeper k x).tm = s.tm := rfl
@[simp] theorem setKeeper_ho (k : Nat) (x : Keeper) : (s.setKeeper k x).ho = s.ho := rfl
@[simp] theorem setKeeper_ln (k : Nat) (x : Keeper) : (s.setKeeper k x).ln = s.ln := rfl
@[simp] theorem setKeeper_mm (k : Nat) (x : Keeper) : (s.setKeeper k x).mm = s.mm := rfl
@[simp] theorem setKeeper_nv (k : Nat) (x : Keeper) : (s.setKeeper k x).nv = s.nv := rfl
@[simp] theorem setKeeper_sy (k : Nat) (x : Keeper) : (s.setKeeper k x).sy = s.sy := rfl
@[simp] theorem setKeeper_ri (k : Nat) (x : Keeper) : (s.setKeeper k x).ri = s.ri := rfl
@[simp] theorem setKeeper_mv (k : Nat) (x : Keeper) : (s.setKeeper k x).mv = s.mv := rfl
@[simp] theorem setKeeper_co (k : Nat) (x : Keeper) : (s.setKeeper k x).co = s.co := rfl
@[simp] theorem setKeeper_mp (k : Nat) (x : Keeper) : (s.setKeeper k x).mp = s.mp := rfl
@[simp] theorem setKeeper_su (k : Nat) (x : Keeper) : (s.setKeeper k x).su = s.su := rfl
@[simp] theorem setKeeper_ag (k : Nat) (x : Keeper) : (s.setKeeper k x).ag = s.ag := rfl
@[simp] theorem setKeeper_answer (k : Nat) (x : Keeper) : (s.setKeeper k x).answer = s.answer := rfl
@[simp] theorem setKeeper_draws (k : Nat) (x : Keeper) : (s.setKeeper k x).draws = s.draws := rfl
@[simp] theorem setKeeper_pending (k : Nat) (x : Keeper) : (s.setKeeper k x).pending = s.pending := rfl
@[simp] theorem setKeeper_reg (k : Nat) (x : Keeper) (ix sub : Nat) : (s.setKeeper k x).reg ix sub = s.reg ix sub := rfl
@[simp] theorem setKeeper_record (k : Nat) (x : Keeper) (ix sub rn : Nat) : (s.setKeeper k x).record ix sub rn = s.record ix sub rn := rfl

/-! ### setOrderDomain -/

@[simp] theorem setOrderDomain_raw (d : Nat) (x : OrderDomain) : (s.setOrderDomain d x).raw = s.raw := rfl
@[simp] theorem setOrderDomain_variant (d : Nat) (x : OrderDomain) : (s.setOrderDomain d x).variant = s.variant := rfl
@[simp] theorem setOrderDomain_gradeI (d : Nat) (x : OrderDomain) : (s.setOrderDomain d x).gradeI = s.gradeI := rfl
@[simp] theorem setOrderDomain_dict (d : Nat) (x : OrderDomain) : (s.setOrderDomain d x).dict = s.dict := rfl
@[simp] theorem setOrderDomain_tabs (d : Nat) (x : OrderDomain) : (s.setOrderDomain d x).tabs = s.tabs := rfl
@[simp] theorem setOrderDomain_lens (d : Nat) (x : OrderDomain) : (s.setOrderDomain d x).lens = s.lens := rfl
@[simp] theorem setOrderDomain_isl (d : Nat) (x : OrderDomain) : (s.setOrderDomain d x).isl = s.isl := rfl
@[simp] theorem setOrderDomain_rg (d : Nat) (x : OrderDomain) : (s.setOrderDomain d x).rg = s.rg := rfl
@[simp] theorem setOrderDomain_tb (d : Nat) (x : OrderDomain) : (s.setOrderDomain d x).tb = s.tb := rfl
@[simp] theorem setOrderDomain_eg (d : Nat) (x : OrderDomain) : (s.setOrderDomain d x).eg = s.eg := rfl
@[simp] theorem setOrderDomain_tm (d : Nat) (x : OrderDomain) : (s.setOrderDomain d x).tm = s.tm := rfl
@[simp] theorem setOrderDomain_ho (d : Nat) (x : OrderDomain) : (s.setOrderDomain d x).ho = s.ho := rfl
@[simp] theorem setOrderDomain_ln (d : Nat) (x : OrderDomain) : (s.setOrderDomain d x).ln = s.ln := rfl
@[simp] theorem setOrderDomain_mm (d : Nat) (x : OrderDomain) : (s.setOrderDomain d x).mm = s.mm := rfl
@[simp] theorem setOrderDomain_nv (d : Nat) (x : OrderDomain) : (s.setOrderDomain d x).nv = s.nv := rfl
@[simp] theorem setOrderDomain_sy (d : Nat) (x : OrderDomain) : (s.setOrderDomain d x).sy = s.sy := rfl
@[simp] theorem setOrderDomain_ri (d : Nat) (x : OrderDomain) : (s.setOrderDomain d x).ri = s.ri := rfl
@[simp] theorem setOrderDomain_mv (d : Nat) (x : OrderDomain) : (s.setOrderDomain d x).mv = s.mv := rfl
@[simp] theorem setOrderDomain_co (d : Nat) (x : OrderDomain) : (s.setOrderDomain d x).co = s.co := rfl
@[simp] theorem setOrderDomain_mp (d : Nat) (x : OrderDomain) : (s.setOrderDomain d x).mp = s.mp := rfl
@[simp] theorem setOrderDomain_su (d : Nat) (x : OrderDomain) : (s.setOrderDomain d x).su = s.su := rfl
@[simp] theorem setOrderDomain_ag (d : Nat) (x : OrderDomain) : (s.setOrderDomain d x).ag = s.ag := rfl
@[simp] theorem setOrderDomain_answer (d : Nat) (x : OrderDomain) : (s.setOrderDomain d x).answer = s.answer := rfl
@[simp] theorem setOrderDomain_draws (d : Nat) (x : OrderDomain) : (s.setOrderDomain d x).draws = s.draws := rfl
@[simp] theorem setOrderDomain_pending (d : Nat) (x : OrderDomain) : (s.setOrderDomain d x).pending = s.pending := rfl
@[simp] theorem setOrderDomain_reg (d : Nat) (x : OrderDomain) (ix sub : Nat) : (s.setOrderDomain d x).reg ix sub = s.reg ix sub := rfl
@[simp] theorem setOrderDomain_record (d : Nat) (x : OrderDomain) (ix sub rn : Nat) : (s.setOrderDomain d x).record ix sub rn = s.record ix sub rn := rfl

/-! ### setHoldTimer -/

@[simp] theorem setHoldTimer_raw (p : Nat) (x : HoldTimer) : (s.setHoldTimer p x).raw = s.raw := rfl
@[simp] theorem setHoldTimer_variant (p : Nat) (x : HoldTimer) : (s.setHoldTimer p x).variant = s.variant := rfl
@[simp] theorem setHoldTimer_gradeI (p : Nat) (x : HoldTimer) : (s.setHoldTimer p x).gradeI = s.gradeI := rfl
@[simp] theorem setHoldTimer_dict (p : Nat) (x : HoldTimer) : (s.setHoldTimer p x).dict = s.dict := rfl
@[simp] theorem setHoldTimer_tabs (p : Nat) (x : HoldTimer) : (s.setHoldTimer p x).tabs = s.tabs := rfl
@[simp] theorem setHoldTimer_lens (p : Nat) (x : HoldTimer) : (s.setHoldTimer p x).lens = s.lens := rfl
@[simp] theorem setHoldTimer_isl (p : Nat) (x : HoldTimer) : (s.setHoldTimer p x).isl = s.isl := rfl
@[simp] theorem setHoldTimer_rg (p : Nat) (x : HoldTimer) : (s.setHoldTimer p x).rg = s.rg := rfl
@[simp] theorem setHoldTimer_tb (p : Nat) (x : HoldTimer) : (s.setHoldTimer p x).tb = s.tb := rfl
@[simp] theorem setHoldTimer_eg (p : Nat) (x : HoldTimer) : (s.setHoldTimer p x).eg = s.eg := rfl
@[simp] theorem setHoldTimer_tm (p : Nat) (x : HoldTimer) : (s.setHoldTimer p x).tm = s.tm := rfl
@[simp] theorem setHoldTimer_ho (p : Nat) (x : HoldTimer) : (s.setHoldTimer p x).ho = s.ho := rfl
@[simp] theorem setHoldTimer_ln (p : Nat) (x : HoldTimer) : (s.setHoldTimer p x).ln = s.ln := rfl
@[simp] theorem setHoldTimer_mm (p : Nat) (x : HoldTimer) : (s.setHoldTimer p x).mm = s.mm := rfl
@[simp] theorem setHoldTimer_nv (p : Nat) (x : HoldTimer) : (s.setHoldTimer p x).nv = s.nv := rfl
@[simp] theorem setHoldTimer_sy (p : Nat) (x : HoldTimer) : (s.setHoldTimer p x).sy = s.sy := rfl
@[simp] theorem setHoldTimer_ri (p : Nat) (x : HoldTimer) : (s.setHoldTimer p x).ri = s.ri := rfl
@[simp] theorem setHoldTimer_mv (p : Nat) (x : HoldTimer) : (s.setHoldTimer p x).mv = s.mv := rfl
@[simp] theorem setHoldTimer_co (p : Nat) (x : HoldTimer) : (s.setHoldTimer p x).co = s.co := rfl
@[simp] theorem setHoldTimer_mp (p : Nat) (x : HoldTimer) : (s.setHoldTimer p x).mp = s.mp := rfl
@[simp] theorem setHoldTimer_su (p : Nat) (x : HoldTimer) : (s.setHoldTimer p x).su = s.su := rfl
@[simp] theorem setHoldTimer_ag (p : Nat) (x : HoldTimer) : (s.setHoldTimer p x).ag = s.ag := rfl
@[simp] theorem setHoldTimer_answer (p : Nat) (x : HoldTimer) : (s.setHoldTimer p x).answer = s.answer := rfl
@[simp] theorem setHoldTimer_draws (p : Nat) (x : HoldTimer) : (s.setHoldTimer p x).draws = s.draws := rfl
@[simp] theorem setHoldTimer_pending (p : Nat) (x : HoldTimer) : (s.setHoldTimer p x).pending = s.pending := rfl
@[simp] theorem setHoldTimer_reg (p : Nat) (x : HoldTimer) (ix sub : Nat) : (s.setHoldTimer p x).reg ix sub = s.reg ix sub := rfl
@[simp] theorem setHoldTimer_record (p : Nat) (x : HoldTimer) (ix sub rn : Nat) : (s.setHoldTimer p x).record ix sub rn = s.record ix sub rn := rfl

/-! ### setCellMark -/

@[simp] theorem setCellMark_raw (c : Nat) (x : CellMark) : (s.setCellMark c x).raw = s.raw := rfl
@[simp] theorem setCellMark_variant (c : Nat) (x : CellMark) : (s.setCellMark c x).variant = s.variant := rfl
@[simp] theorem setCellMark_gradeI (c : Nat) (x : CellMark) : (s.setCellMark c x).gradeI = s.gradeI := rfl
@[simp] theorem setCellMark_dict (c : Nat) (x : CellMark) : (s.setCellMark c x).dict = s.dict := rfl
@[simp] theorem setCellMark_tabs (c : Nat) (x : CellMark) : (s.setCellMark c x).tabs = s.tabs := rfl
@[simp] theorem setCellMark_lens (c : Nat) (x : CellMark) : (s.setCellMark c x).lens = s.lens := rfl
@[simp] theorem setCellMark_isl (c : Nat) (x : CellMark) : (s.setCellMark c x).isl = s.isl := rfl
@[simp] theorem setCellMark_rg (c : Nat) (x : CellMark) : (s.setCellMark c x).rg = s.rg := rfl
@[simp] theorem setCellMark_tb (c : Nat) (x : CellMark) : (s.setCellMark c x).tb = s.tb := rfl
@[simp] theorem setCellMark_eg (c : Nat) (x : CellMark) : (s.setCellMark c x).eg = s.eg := rfl
@[simp] theorem setCellMark_tm (c : Nat) (x : CellMark) : (s.setCellMark c x).tm = s.tm := rfl
@[simp] theorem setCellMark_ho (c : Nat) (x : CellMark) : (s.setCellMark c x).ho = s.ho := rfl
@[simp] theorem setCellMark_ln (c : Nat) (x : CellMark) : (s.setCellMark c x).ln = s.ln := rfl
@[simp] theorem setCellMark_mm (c : Nat) (x : CellMark) : (s.setCellMark c x).mm = s.mm := rfl
@[simp] theorem setCellMark_nv (c : Nat) (x : CellMark) : (s.setCellMark c x).nv = s.nv := rfl
@[simp] theorem setCellMark_sy (c : Nat) (x : CellMark) : (s.setCellMark c x).sy = s.sy := rfl
@[simp] theorem setCellMark_ri (c : Nat) (x : CellMark) : (s.setCellMark c x).ri = s.ri := rfl
@[simp] theorem setCellMark_mv (c : Nat) (x : CellMark) : (s.setCellMark c x).mv = s.mv := rfl
@[simp] theorem setCellMark_co (c : Nat) (x : CellMark) : (s.setCellMark c x).co = s.co := rfl
@[simp] theorem setCellMark_mp (c : Nat) (x : CellMark) : (s.setCellMark c x).mp = s.mp := rfl
@[simp] theorem setCellMark_su (c : Nat) (x : CellMark) : (s.setCellMark c x).su = s.su := rfl
@[simp] theorem setCellMark_ag (c : Nat) (x : CellMark) : (s.setCellMark c x).ag = s.ag := rfl
@[simp] theorem setCellMark_answer (c : Nat) (x : CellMark) : (s.setCellMark c x).answer = s.answer := rfl
@[simp] theorem setCellMark_draws (c : Nat) (x : CellMark) : (s.setCellMark c x).draws = s.draws := rfl
@[simp] theorem setCellMark_pending (c : Nat) (x : CellMark) : (s.setCellMark c x).pending = s.pending := rfl
@[simp] theorem setCellMark_reg (c : Nat) (x : CellMark) (ix sub : Nat) : (s.setCellMark c x).reg ix sub = s.reg ix sub := rfl
@[simp] theorem setCellMark_record (c : Nat) (x : CellMark) (ix sub rn : Nat) : (s.setCellMark c x).record ix sub rn = s.record ix sub rn := rfl

/-! ### setRx -/

@[simp] theorem setRx_raw (k : Nat) (x : RxFrame) : (s.setRx k x).raw = s.raw := rfl
@[simp] theorem setRx_variant (k : Nat) (x : RxFrame) : (s.setRx k x).variant = s.variant := rfl
@[simp] theorem setRx_gradeI (k : Nat) (x : RxFrame) : (s.setRx k x).gradeI = s.gradeI := rfl
@[simp] theorem setRx_dict (k : Nat) (x : RxFrame) : (s.setRx k x).dict = s.dict := rfl
@[simp] theorem setRx_tabs (k : Nat) (x : RxFrame) : (s.setRx k x).tabs = s.tabs := rfl
@[simp] theorem setRx_lens (k : Nat) (x : RxFrame) : (s.setRx k x).lens = s.lens := rfl
@[simp] theorem setRx_isl (k : Nat) (x : RxFrame) : (s.setRx k x).isl = s.isl := rfl
@[simp] theorem setRx_rg (k : Nat) (x : RxFrame) : (s.setRx k x).rg = s.rg := rfl
@[simp] theorem setRx_tb (k : Nat) (x : RxFrame) : (s.setRx k x).tb = s.tb := rfl
@[simp] theorem setRx_eg (k : Nat) (x : RxFrame) : (s.setRx k x).eg = s.eg := rfl
@[simp] theorem setRx_tm (k : Nat) (x : RxFrame) : (s.setRx k x).tm = s.tm := rfl
@[simp] theorem setRx_ho (k : Nat) (x : RxFrame) : (s.setRx k x).ho = s.ho := rfl
@[simp] theorem setRx_ln (k : Nat) (x : RxFrame) : (s.setRx k x).ln = s.ln := rfl
@[simp] theorem setRx_mm (k : Nat) (x : RxFrame) : (s.setRx k x).mm = s.mm := rfl
@[simp] theorem setRx_nv (k : Nat) (x : RxFrame) : (s.setRx k x).nv = s.nv := rfl
@[simp] theorem setRx_sy (k : Nat) (x : RxFrame) : (s.setRx k x).sy = s.sy := rfl
@[simp] theorem setRx_ri (k : Nat) (x : RxFrame) : (s.setRx k x).ri = s.ri := rfl
@[simp] theorem setRx_mv (k : Nat) (x : RxFrame) : (s.setRx k x).mv = s.mv := rfl
@[simp] theorem setRx_co (k : Nat) (x : RxFrame) : (s.setRx k x).co = s.co := rfl
@[simp] theorem setRx_mp (k : Nat) (x : RxFrame) : (s.setRx k x).mp = s.mp := rfl
@[simp] theorem setRx_su (k : Nat) (x : RxFrame) : (s.setRx k x).su = s.su := rfl
@[simp] theorem setRx_ag (k : Nat) (x : RxFrame) : (s.setRx k x).ag = s.ag := rfl
@[simp] theorem setRx_answer (k : Nat) (x : RxFrame) : (s.setRx k x).answer = s.answer := rfl
@[simp] theorem setRx_draws (k : Nat) (x : RxFrame) : (s.setRx k x).draws = s.draws := rfl
@[simp] theorem setRx_pending (k : Nat) (x : RxFrame) : (s.setRx k x).pending = s.pending := rfl
@[simp] theorem setRx_reg (k : Nat) (x : RxFrame) (ix sub : Nat) : (s.setRx k x).reg ix sub = s.reg ix sub := rfl
@[simp] theorem setRx_record (k : Nat) (x : RxFrame) (ix sub rn : Nat) : (s.setRx k x).record ix sub rn = s.record ix sub rn := rfl

/-! ### dropRx -/

@[simp] theorem dropRx_raw (k : Nat) : (s.dropRx k).raw = s.raw := rfl
@[simp] theorem dropRx_variant (k : Nat) : (s.dropRx k).variant = s.variant := rfl
@[simp] theorem dropRx_gradeI (k : Nat) : (s.dropRx k).gradeI = s.gradeI := rfl
@[simp] theorem dropRx_dict (k : Nat) : (s.dropRx k).dict = s.dict := rfl
@[simp] theorem dropRx_tabs (k : Nat) : (s.dropRx k).tabs = s.tabs := rfl
@[simp] theorem dropRx_lens (k : Nat) : (s.dropRx k).lens = s.lens := rfl
@[simp] theorem dropRx_isl (k : Nat) : (s.dropRx k).isl = s.isl := rfl
@[simp] theorem dropRx_rg (k : Nat) : (s.dropRx k).rg = s.rg := rfl
@[simp] theorem dropRx_tb (k : Nat) : (s.dropRx k).tb = s.tb := rfl
@[simp] theorem dropRx_eg (k : Nat) : (s.dropRx k).eg = s.eg := rfl
@[simp] theorem dropRx_tm (k : Nat) : (s.dropRx k).tm = s.tm := rfl
@[simp] theorem dropRx_ho (k : Nat) : (s.dropRx k).ho = s.ho := rfl
@[simp] theorem dropRx_ln (k : Nat) : (s.dropRx k).ln = s.ln := rfl
@[simp] theorem dropRx_mm (k : Nat) : (s.dropRx k).mm = s.mm := rfl
@[simp] theorem dropRx_nv (k : Nat) : (s.dropRx k).nv = s.nv := rfl
@[simp] theorem dropRx_sy (k : Nat) : (s.dropRx k).sy = s.sy := rfl
@[simp] theorem dropRx_ri (k : Nat) : (s.dropRx k).ri = s.ri := rfl
@[simp] theorem dropRx_mv (k : Nat) : (s.dropRx k).mv = s.mv := rfl
@[simp] theorem dropRx_co (k : Nat) : (s.dropRx k).co = s.co := rfl
@[simp] theorem dropRx_mp (k : Nat) : (s.dropRx k).mp = s.mp := rfl
@[simp] theorem dropRx_su (k : Nat) : (s.dropRx k).su = s.su := rfl
@[simp] theorem dropRx_ag (k : Nat) : (s.dropRx k).ag = s.ag := rfl
@[simp] theorem dropRx_answer (k : Nat) : (s.dropRx k).answer = s.answer := rfl
@[simp] theorem dropRx_draws (k : Nat) : (s.dropRx k).draws = s.draws := rfl
@[simp] theorem dropRx_pending (k : Nat) : (s.dropRx k).pending = s.pending := rfl
@[simp] theorem dropRx_reg (k : Nat) (ix sub : Nat) : (s.dropRx k).reg ix sub = s.reg ix sub := rfl
@[simp] theorem dropRx_record (k : Nat) (ix sub rn : Nat) : (s.dropRx k).record ix sub rn = s.record ix sub rn := rfl

/-! ### setTx -/

@[simp] theorem setTx_raw (k : Nat) (x : TxCopy) : (s.setTx k x).raw = s.raw := rfl
@[simp] theorem setTx_variant (k : Nat) (x : TxCopy) : (s.setTx k x).variant = s.variant := rfl
@[simp] theorem setTx_gradeI (k : Nat) (x : TxCopy) : (s.setTx k x).gradeI = s.gradeI := rfl
@[simp] theorem setTx_dict (k : Nat) (x : TxCopy) : (s.setTx k x).dict = s.dict := rfl
@[simp] theorem setTx_tabs (k : Nat) (x : TxCopy) : (s.setTx k x).tabs = s.tabs := rfl
@[simp] theorem setTx_lens (k : Nat) (x : TxCopy) : (s.setTx k x).lens = s.lens := rfl
@[simp] theorem setTx_isl (k : Nat) (x : TxCopy) : (s.setTx k x).isl = s.isl := rfl
@[simp] theorem setTx_rg (k : Nat) (x : TxCopy) : (s.setTx k x).rg = s.rg := rfl
@[simp] theorem setTx_tb (k : Nat) (x : TxCopy) : (s.setTx k x).tb = s.tb := rfl
@[simp] theorem setTx_eg (k : Nat) (x : TxCopy) : (s.setTx k x).eg = s.eg := rfl
@[simp] theorem setTx_tm (k : Nat) (x : TxCopy) : (s.setTx k x).tm = s.tm := rfl
@[simp] theorem setTx_ho (k : Nat) (x : TxCopy) : (s.setTx k x).ho = s.ho := rfl
@[simp] theorem setTx_ln (k : Nat) (x : TxCopy) : (s.setTx k x).ln = s.ln := rfl
@[simp] theorem setTx_mm (k : Nat) (x : TxCopy) : (s.setTx k x).mm = s.mm := rfl
@[simp] theorem setTx_nv (k : Nat) (x : TxCopy) : (s.setTx k x).nv = s.nv := rfl
@[simp] theorem setTx_sy (k : Nat) (x : TxCopy) : (s.setTx k x).sy = s.sy := rfl
@[simp] theorem setTx_ri (k : Nat) (x : TxCopy) : (s.setTx k x).ri = s.ri := rfl
@[simp] theorem setTx_mv (k : Nat) (x : TxCopy) : (s.setTx k x).mv = s.mv := rfl
@[simp] theorem setTx_co (k : Nat) (x : TxCopy) : (s.setTx k x).co = s.co := rfl
@[simp] theorem setTx_mp (k : Nat) (x : TxCopy) : (s.setTx k x).mp = s.mp := rfl
@[simp] theorem setTx_su (k : Nat) (x : TxCopy) : (s.setTx k x).su = s.su := rfl
@[simp] theorem setTx_ag (k : Nat) (x : TxCopy) : (s.setTx k x).ag = s.ag := rfl
@[simp] theorem setTx_answer (k : Nat) (x : TxCopy) : (s.setTx k x).answer = s.answer := rfl
@[simp] theorem setTx_draws (k : Nat) (x : TxCopy) : (s.setTx k x).draws = s.draws := rfl
@[simp] theorem setTx_pending (k : Nat) (x : TxCopy) : (s.setTx k x).pending = s.pending := rfl
@[simp] theorem setTx_reg (k : Nat) (x : TxCopy) (ix sub : Nat) : (s.setTx k x).reg ix sub = s.reg ix sub := rfl
@[simp] theorem setTx_record (k : Nat) (x : TxCopy) (ix sub rn : Nat) : (s.setTx k x).record ix sub rn = s.record ix sub rn := rfl

/-! ### dropTx -/

@[simp] theorem dropTx_raw (k : Nat) : (s.dropTx k).raw = s.raw := rfl
@[simp] theorem dropTx_variant (k : Nat) : (s.dropTx k).variant = s.variant := rfl
@[simp] theorem dropTx_gradeI (k : Nat) : (s.dropTx k).gradeI = s.gradeI := rfl
@[simp] theorem dropTx_dict (k : Nat) : (s.dropTx k).dict = s.dict := rfl
@[simp] theorem dropTx_tabs (k : Nat) : (s.dropTx k).tabs = s.tabs := rfl
@[simp] theorem dropTx_lens (k : Nat) : (s.dropTx k).lens = s.lens := rfl
@[simp] theorem dropTx_isl (k : Nat) : (s.dropTx k).isl = s.isl := rfl
@[simp] theorem dropTx_rg (k : Nat) : (s.dropTx k).rg = s.rg := rfl
@[simp] theorem dropTx_tb (k : Nat) : (s.dropTx k).tb = s.tb := rfl
@[simp] theorem dropTx_eg (k : Nat) : (s.dropTx k).eg = s.eg := rfl
@[simp] theorem dropTx_tm (k : Nat) : (s.dropTx k).tm = s.tm := rfl
@[simp] theorem dropTx_ho (k : Nat) : (s.dropTx k).ho = s.ho := rfl
@[simp] theorem dropTx_ln (k : Nat) : (s.dropTx k).ln = s.ln := rfl
@[simp] theorem dropTx_mm (k : Nat) : (s.dropTx k).mm = s.mm := rfl
@[simp] theorem dropTx_nv (k : Nat) : (s.dropTx k).nv = s.nv := rfl
@[simp] theorem dropTx_sy (k : Nat) : (s.dropTx k).sy = s.sy := rfl
@[simp] theorem dropTx_ri (k : Nat) : (s.dropTx k).ri = s.ri := rfl
@[simp] theorem dropTx_mv (k : Nat) : (s.dropTx k).mv = s.mv := rfl
@[simp] theorem dropTx_co (k : Nat) : (s.dropTx k).co = s.co := rfl
@[simp] theorem dropTx_mp (k : Nat) : (s.dropTx k).mp = s.mp := rfl
@[simp] theorem dropTx_su (k : Nat) : (s.dropTx k).su = s.su := rfl
@[simp] theorem dropTx_ag (k : Nat) : (s.dropTx k).ag = s.ag := rfl
@[simp] theorem dropTx_answer (k : Nat) : (s.dropTx k).answer = s.answer := rfl
@[simp] theorem dropTx_draws (k : Nat) : (s.dropTx k).draws = s.draws := rfl
@[simp] theorem dropTx_pending (k : Nat) : (s.dropTx k).pending = s.pending := rfl
@[simp] theorem dropTx_reg (k : Nat) (ix sub : Nat) : (s.dropTx k).reg ix sub = s.reg ix sub := rfl
@[simp] theorem dropTx_record (k : Nat) (ix sub rn : Nat) : (s.dropTx k).record ix sub rn = s.record ix sub rn := rfl

/-! ### setRigQueue -/

@[simp] theorem setRigQueue_raw (r : Nat) (l : List Nat) : (s.setRigQueue r l).raw = s.raw := rfl
@[simp] theorem setRigQueue_variant (r : Nat) (l : List Nat) : (s.setRigQueue r l).variant = s.variant := rfl
@[simp] theorem setRigQueue_gradeI (r : Nat) (l : List Nat) : (s.setRigQueue r l).gradeI = s.gradeI := rfl
@[simp] theorem setRigQueue_dict (r : Nat) (l : List Nat) : (s.setRigQueue r l).dict = s.dict := rfl
@[simp] theorem setRigQueue_tabs (r : Nat) (l : List Nat) : (s.setRigQueue r l).tabs = s.tabs := rfl
@[simp] theorem setRigQueue_lens (r : Nat) (l : List Nat) : (s.setRigQueue r l).lens = s.lens := rfl
@[simp] theorem setRigQueue_isl (r : Nat) (l : List Nat) : (s.setRigQueue r l).isl = s.isl := rfl
@[simp] theorem setRigQueue_rg (r : Nat) (l : List Nat) : (s.setRigQueue r l).rg = s.rg := rfl
@[simp] theorem setRigQueue_tb (r : Nat) (l : List Nat) : (s.setRigQueue r l).tb = s.tb := rfl
@[simp] theorem setRigQueue_eg (r : Nat) (l : List Nat) : (s.setRigQueue r l).eg = s.eg := rfl
@[simp] theorem setRigQueue_tm (r : Nat) (l : List Nat) : (s.setRigQueue r l).tm = s.tm := rfl
@[simp] theorem setRigQueue_ho (r : Nat) (l : List Nat) : (s.setRigQueue r l).ho = s.ho := rfl
@[simp] theorem setRigQueue_ln (r : Nat) (l : List Nat) : (s.setRigQueue r l).ln = s.ln := rfl
@[simp] theorem setRigQueue_mm (r : Nat) (l : List Nat) : (s.setRigQueue r l).mm = s.mm := rfl
@[simp] theorem setRigQueue_nv (r : Nat) (l : List Nat) : (s.setRigQueue r l).nv = s.nv := rfl
@[simp] theorem setRigQueue_sy (r : Nat) (l : List Nat) : (s.setRigQueue r l).sy = s.sy := rfl
@[simp] theorem setRigQueue_ri (r : Nat) (l : List Nat) : (s.setRigQueue r l).ri = s.ri := rfl
@[simp] theorem setRigQueue_mv (r : Nat) (l : List Nat) : (s.setRigQueue r l).mv = s.mv := rfl
@[simp] theorem setRigQueue_co (r : Nat) (l : List Nat) : (s.setRigQueue r l).co = s.co := rfl
@[simp] theorem setRigQueue_mp (r : Nat) (l : List Nat) : (s.setRigQueue r l).mp = s.mp := rfl
@[simp] theorem setRigQueue_su (r : Nat) (l : List Nat) : (s.setRigQueue r l).su = s.su := rfl
@[simp] theorem setRigQueue_ag (r : Nat) (l : List Nat) : (s.setRigQueue r l).ag = s.ag := rfl
@[simp] theorem setRigQueue_answer (r : Nat) (l : List Nat) : (s.setRigQueue r l).answer = s.answer := rfl
@[simp] theorem setRigQueue_draws (r : Nat) (l : List Nat) : (s.setRigQueue r l).draws = s.draws := rfl
@[simp] theorem setRigQueue_pending (r : Nat) (l : List Nat) : (s.setRigQueue r l).pending = s.pending := rfl
@[simp] theorem setRigQueue_reg (r : Nat) (l : List Nat) (ix sub : Nat) : (s.setRigQueue r l).reg ix sub = s.reg ix sub := rfl
@[simp] theorem setRigQueue_record (r : Nat) (l : List Nat) (ix sub rn : Nat) : (s.setRigQueue r l).record ix sub rn = s.record ix sub rn := rfl

/-! ### setRig -/

@[simp] theorem setRig_raw (r : Nat) (x : Rig) : (s.setRig r x).raw = s.raw := rfl
@[simp] theorem setRig_variant (r : Nat) (x : Rig) : (s.setRig r x).variant = s.variant := rfl
@[simp] theorem setRig_gradeI (r : Nat) (x : Rig) : (s.setRig r x).gradeI = s.gradeI := rfl
@[simp] theorem setRig_dict (r : Nat) (x : Rig) : (s.setRig r x).dict = s.dict := rfl
@[simp] theorem setRig_tabs (r : Nat) (x : Rig) : (s.setRig r x).tabs = s.tabs := rfl
@[simp] theorem setRig_lens (r : Nat) (x : Rig) : (s.setRig r x).lens = s.lens := rfl
@[simp] theorem setRig_isl (r : Nat) (x : Rig) : (s.setRig r x).isl = s.isl := rfl
@[simp] theorem setRig_fr (r : Nat) (x : Rig) : (s.setRig r x).fr = s.fr := rfl
@[simp] theorem setRig_tb (r : Nat) (x : Rig) : (s.setRig r x).tb = s.tb := rfl
@[simp] theorem setRig_eg (r : Nat) (x : Rig) : (s.setRig r x).eg = s.eg := rfl
@[simp] theorem setRig_tm (r : Nat) (x : Rig) : (s.setRig r x).tm = s.tm := rfl
@[simp] theorem setRig_ho (r : Nat) (x : Rig) : (s.setRig r x).ho = s.ho := rfl
@[simp] theorem setRig_ln (r : Nat) (x : Rig) : (s.setRig r x).ln = s.ln := rfl
@[simp] theorem setRig_mm (r : Nat) (x : Rig) : (s.setRig r x).mm = s.mm := rfl
@[simp] theorem setRig_nv (r : Nat) (x : Rig) : (s.setRig r x).nv = s.nv := rfl
@[simp] theorem setRig_sy (r : Nat) (x : Rig) : (s.setRig r x).sy = s.sy := rfl
@[simp] theorem setRig_ri (r : Nat) (x : Rig) : (s.setRig r x).ri = s.ri := rfl
@[simp] theorem setRig_mv (r : Nat) (x : Rig) : (s.setRig r x).mv = s.mv := rfl
@[simp] theorem setRig_co (r : Nat) (x : Rig) : (s.setRig r x).co = s.co := rfl
@[simp] theorem setRig_mp (r : Nat) (x : Rig) : (s.setRig r x).mp = s.mp := rfl
@[simp] theorem setRig_su (r : Nat) (x : Rig) : (s.setRig r x).su = s.su := rfl
@[simp] theorem setRig_ag (r : Nat) (x : Rig) : (s.setRig r x).ag = s.ag := rfl
@[simp] theorem setRig_answer (r : Nat) (x : Rig) : (s.setRig r x).answer = s.answer := rfl
@[simp] theorem setRig_draws (r : Nat) (x : Rig) : (s.setRig r x).draws = s.draws := rfl
@[simp] theorem setRig_pending (r : Nat) (x : Rig) : (s.setRig r x).pending = s.pending := rfl
@[simp] theorem setRig_reg (r : Nat) (x : Rig) (ix sub : Nat) : (s.setRig r x).reg ix sub = s.reg ix sub := rfl
@[simp] theorem setRig_record (r : Nat) (x : Rig) (ix sub rn : Nat) : (s.setRig r x).record ix sub rn = s.record ix sub rn := rfl

/-! ### setAwl -/

@[simp] theorem setAwl_raw (w : Nat) (x : Awl) : (s.setAwl w x).raw = s.raw := rfl
@[simp] theorem setAwl_variant (w : Nat) (x : Awl) : (s.setAwl w x).variant = s.variant := rfl
@[simp] theorem setAwl_gradeI (w : Nat) (x : Awl) : (s.setAwl w x).gradeI = s.gradeI := rfl
@[simp] theorem setAwl_dict (w : Nat) (x : Awl) : (s.setAwl w x).dict = s.dict := rfl
@[simp] theorem setAwl_tabs (w : Nat) (x : Awl) : (s.setAwl w x).tabs = s.tabs := rfl
@[simp] theorem setAwl_lens (w : Nat) (x : Awl) : (s.setAwl w x).lens = s.lens := rfl
@[simp] theorem setAwl_isl (w : Nat) (x : Awl) : (s.setAwl w x).isl = s.isl := rfl
@[simp] theorem setAwl_fr (w : Nat) (x : Awl) : (s.setAwl w x).fr = s.fr := rfl
@[simp] theorem setAwl_tb (w : Nat) (x : Awl) : (s.setAwl w x).tb = s.tb := rfl
@[simp] theorem setAwl_eg (w : Nat) (x : Awl) : (s.setAwl w x).eg = s.eg := rfl
@[simp] theorem setAwl_tm (w : Nat) (x : Awl) : (s.setAwl w x).tm = s.tm := rfl
@[simp] theorem setAwl_ho (w : Nat) (x : Awl) : (s.setAwl w x).ho = s.ho := rfl
@[simp] theorem setAwl_ln (w : Nat) (x : Awl) : (s.setAwl w x).ln = s.ln := rfl
@[simp] theorem setAwl_mm (w : Nat) (x : Awl) : (s.setAwl w x).mm = s.mm := rfl
@[simp] theorem setAwl_nv (w : Nat) (x : Awl) : (s.setAwl w x).nv = s.nv := rfl
@[simp] theorem setAwl_sy (w : Nat) (x : Awl) : (s.setAwl w x).sy = s.sy := rfl
@[simp] theorem setAwl_ri (w : Nat) (x : Awl) : (s.setAwl w x).ri = s.ri := rfl
@[simp] theorem setAwl_mv (w : Nat) (x : Awl) : (s.setAwl w x).mv = s.mv := rfl
@[simp] theorem setAwl_co (w : Nat) (x : Awl) : (s.setAwl w x).co = s.co := rfl
@[simp] theorem setAwl_mp (w : Nat) (x : Awl) : (s.setAwl w x).mp = s.mp := rfl
@[simp] theorem setAwl_su (w : Nat) (x : Awl) : (s.setAwl w x).su = s.su := rfl
@[simp] theorem setAwl_ag (w : Nat) (x : Awl) : (s.setAwl w x).ag = s.ag := rfl
@[simp] theorem setAwl_answer (w : Nat) (x : Awl) : (s.setAwl w x).answer = s.answer := rfl
@[simp] theorem setAwl_draws (w : Nat) (x : Awl) : (s.setAwl w x).draws = s.draws := rfl
@[simp] theorem setAwl_pending (w : Nat) (x : Awl) : (s.setAwl w x).pending = s.pending := rfl
@[simp] theorem setAwl_reg (w : Nat) (x : Awl) (ix sub : Nat) : (s.setAwl w x).reg ix sub = s.reg ix sub := rfl
@[simp] theorem setAwl_record (w : Nat) (x : Awl) (ix sub rn : Nat) : (s.setAwl w x).record ix sub rn = s.record ix sub rn := rfl

/-! ### setProgs -/

@[simp] theorem setProgs_raw (x : Programs) : (s.setProgs x).raw = s.raw := rfl
@[simp] theorem setProgs_variant (x : Programs) : (s.setProgs x).variant = s.variant := rfl
@[simp] theorem setProgs_gradeI (x : Programs) : (s.setProgs x).gradeI = s.gradeI := rfl
@[simp] theorem setProgs_dict (x : Programs) : (s.setProgs x).dict = s.dict := rfl
@[simp] theorem setProgs_tabs (x : Programs) : (s.setProgs x).tabs = s.tabs := rfl
@[simp] theorem setProgs_lens (x : Programs) : (s.setProgs x).lens = s.lens := rfl
@[simp] theorem setProgs_isl (x : Programs) : (s.setProgs x).isl = s.isl := rfl
@[simp] theorem setProgs_fr (x : Programs) : (s.setProgs x).fr = s.fr := rfl
@[simp] theorem setProgs_tb (x : Programs) : (s.setProgs x).tb = s.tb := rfl
@[simp] theorem setProgs_eg (x : Programs) : (s.setProgs x).eg = s.eg := rfl
@[simp] theorem setProgs_tm (x : Programs) : (s.setProgs x).tm = s.tm := rfl
@[simp] theorem setProgs_ho (x : Programs) : (s.setProgs x).ho = s.ho := rfl
@[simp] theorem setProgs_ln (x : Programs) : (s.setProgs x).ln = s.ln := rfl
@[simp] theorem setProgs_mm (x : Programs) : (s.setProgs x).mm = s.mm := rfl
@[simp] theorem setProgs_nv (x : Programs) : (s.setProgs x).nv = s.nv := rfl
@[simp] theorem setProgs_sy (x : Programs) : (s.setProgs x).sy = s.sy := rfl
@[simp] theorem setProgs_ri (x : Programs) : (s.setProgs x).ri = s.ri := rfl
@[simp] theorem setProgs_mv (x : Programs) : (s.setProgs x).mv = s.mv := rfl
@[simp] theorem setProgs_co (x : Programs) : (s.setProgs x).co = s.co := rfl
@[simp] theorem setProgs_mp (x : Programs) : (s.setProgs x).mp = s.mp := rfl
@[simp] theorem setProgs_su (x : Programs) : (s.setProgs x).su = s.su := rfl
@[simp] theorem setProgs_ag (x : Programs) : (s.setProgs x).ag = s.ag := rfl
@[simp] theorem setProgs_answer (x : Programs) : (s.setProgs x).answer = s.answer := rfl
@[simp] theorem setProgs_draws (x : Programs) : (s.setProgs x).draws = s.draws := rfl
@[simp] theorem setProgs_pending (x : Programs) : (s.setProgs x).pending = s.pending := rfl
@[simp] theorem setProgs_reg (x : Programs) (ix sub : Nat) : (s.setProgs x).reg ix sub = s.reg ix sub := rfl
@[simp] theorem setProgs_record (x : Programs) (ix sub rn : Nat) : (s.setProgs x).record ix sub rn = s.record ix sub rn := rfl

/-! ### setXm -/

@[simp] theorem setXm_raw (t : Nat) (x : XmTable) : (s.setXm t x).raw = s.raw := rfl
@[simp] theorem setXm_variant (t : Nat) (x : XmTable) : (s.setXm t x).variant = s.variant := rfl
@[simp] theorem setXm_gradeI (t : Nat) (x : XmTable) : (s.setXm t x).gradeI = s.gradeI := rfl
@[simp] theorem setXm_dict (t : Nat) (x : XmTable) : (s.setXm t x).dict = s.dict := rfl
@[simp] theorem setXm_tabs (t : Nat) (x : XmTable) : (s.setXm t x).tabs = s.tabs := rfl
@[simp] theorem setXm_lens (t : Nat) (x : XmTable) : (s.setXm t x).lens = s.lens := rfl
@[simp] theorem setXm_isl (t : Nat) (x : XmTable) : (s.setXm t x).isl = s.isl := rfl
@[simp] theorem setXm_fr (t : Nat) (x : XmTable) : (s.setXm t x).fr = s.fr := rfl
@[simp] theorem setXm_rg (t : Nat) (x : XmTable) : (s.setXm t x).rg = s.rg := rfl
@[simp] theorem setXm_eg (t : Nat) (x : XmTable) : (s.setXm t x).eg = s.eg := rfl
@[simp] theorem setXm_tm (t : Nat) (x : XmTable) : (s.setXm t x).tm = s.tm := rfl
@[simp] theorem setXm_ho (t : Nat) (x : XmTable) : (s.setXm t x).ho = s.ho := rfl
@[simp] theorem setXm_ln (t : Nat) (x : XmTable) : (s.setXm t x).ln = s.ln := rfl
@[simp] theorem setXm_mm (t : Nat) (x : XmTable) : (s.setXm t x).mm = s.mm := rfl
@[simp] theorem setXm_nv (t : Nat) (x : XmTable) : (s.setXm t x).nv = s.nv := rfl
@[simp] theorem setXm_sy (t : Nat) (x : XmTable) : (s.setXm t x).sy = s.sy := rfl
@[simp] theorem setXm_ri (t : Nat) (x : XmTable) : (s.setXm t x).ri = s.ri := rfl
@[simp] theorem setXm_mv (t : Nat) (x : XmTable) : (s.setXm t x).mv = s.mv := rfl
@[simp] theorem setXm_co (t : Nat) (x : XmTable) : (s.setXm t x).co = s.co := rfl
@[simp] theorem setXm_mp (t : Nat) (x : XmTable) : (s.setXm t x).mp = s.mp := rfl
@[simp] theorem setXm_su (t : Nat) (x : XmTable) : (s.setXm t x).su = s.su := rfl
@[simp] theorem setXm_ag (t : Nat) (x : XmTable) : (s.setXm t x).ag = s.ag := rfl
@[simp] theorem setXm_answer (t : Nat) (x : XmTable) : (s.setXm t x).answer = s.answer := rfl
@[simp] theorem setXm_draws (t : Nat) (x : XmTable) : (s.setXm t x).draws = s.draws := rfl
@[simp] theorem setXm_pending (t : Nat) (x : XmTable) : (s.setXm t x).pending = s.pending := rfl
@[simp] theorem setXm_reg (t : Nat) (x : XmTable) (ix sub : Nat) : (s.setXm t x).reg ix sub = s.reg ix sub := rfl
@[simp] theorem setXm_record (t : Nat) (x : XmTable) (ix sub rn : Nat) : (s.setXm t x).record ix sub rn = s.record ix sub rn := rfl

/-! ### setMeter -/

@[simp] theorem setMeter_raw (m : Nat) (x : Meter) : (s.setMeter m x).raw = s.raw := rfl
@[simp] theorem setMeter_variant (m : Nat) (x : Meter) : (s.setMeter m x).variant = s.variant := rfl
@[simp] theorem setMeter_gradeI (m : Nat) (x : Meter) : (s.setMeter m x).gradeI = s.gradeI := rfl
@[simp] theorem setMeter_dict (m : Nat) (x : Meter) : (s.setMeter m x).dict = s.dict := rfl
@[simp] theorem setMeter_tabs (m : Nat) (x : Meter) : (s.setMeter m x).tabs = s.tabs := rfl
@[simp] theorem setMeter_lens (m : Nat) (x : Meter) : (s.setMeter m x).lens = s.lens := rfl
@[simp] theorem setMeter_isl (m : Nat) (x : Meter) : (s.setMeter m x).isl = s.isl := rfl
@[simp] theorem setMeter_fr (m : Nat) (x : Meter) : (s.setMeter m x).fr = s.fr := rfl
@[simp] theorem setMeter_rg (m : Nat) (x : Meter) : (s.setMeter m x).rg = s.rg := rfl
@[simp] theorem setMeter_eg (m : Nat) (x : Meter) : (s.setMeter m x).eg = s.eg := rfl
@[simp] theorem setMeter_tm (m : Nat) (x : Meter) : (s.setMeter m x).tm = s.tm := rfl
@[simp] theorem setMeter_ho (m : Nat) (x : Meter) : (s.setMeter m x).ho = s.ho := rfl
@[simp] theorem setMeter_ln (m : Nat) (x : Meter) : (s.setMeter m x).ln = s.ln := rfl
@[simp] theorem setMeter_mm (m : Nat) (x : Meter) : (s.setMeter m x).mm = s.mm := rfl
@[simp] theorem setMeter_nv (m : Nat) (x : Meter) : (s.setMeter m x).nv = s.nv := rfl
@[simp] theorem setMeter_sy (m : Nat) (x : Meter) : (s.setMeter m x).sy = s.sy := rfl
@[simp] theorem setMeter_ri (m : Nat) (x : Meter) : (s.setMeter m x).ri = s.ri := rfl
@[simp] theorem setMeter_mv (m : Nat) (x : Meter) : (s.setMeter m x).mv = s.mv := rfl
@[simp] theorem setMeter_co (m : Nat) (x : Meter) : (s.setMeter m x).co = s.co := rfl
@[simp] theorem setMeter_mp (m : Nat) (x : Meter) : (s.setMeter m x).mp = s.mp := rfl
@[simp] theorem setMeter_su (m : Nat) (x : Meter) : (s.setMeter m x).su = s.su := rfl
@[simp] theorem setMeter_ag (m : Nat) (x : Meter) : (s.setMeter m x).ag = s.ag := rfl
@[simp] theorem setMeter_answer (m : Nat) (x : Meter) : (s.setMeter m x).answer = s.answer := rfl
@[simp] theorem setMeter_draws (m : Nat) (x : Meter) : (s.setMeter m x).draws = s.draws := rfl
@[simp] theorem setMeter_pending (m : Nat) (x : Meter) : (s.setMeter m x).pending = s.pending := rfl
@[simp] theorem setMeter_reg (m : Nat) (x : Meter) (ix sub : Nat) : (s.setMeter m x).reg ix sub = s.reg ix sub := rfl
@[simp] theorem setMeter_record (m : Nat) (x : Meter) (ix sub rn : Nat) : (s.setMeter m x).record ix sub rn = s.record ix sub rn := rfl

/-! ### setRecovery -/

@[simp] theorem setRecovery_raw (f : Nat) (x : Recovery) : (s.setRecovery f x).raw = s.raw := rfl
@[simp] theorem setRecovery_variant (f : Nat) (x : Recovery) : (s.setRecovery f x).variant = s.variant := rfl
@[simp] theorem setRecovery_gradeI (f : Nat) (x : Recovery) : (s.setRecovery f x).gradeI = s.gradeI := rfl
@[simp] theorem setRecovery_dict (f : Nat) (x : Recovery) : (s.setRecovery f x).dict = s.dict := rfl
@[simp] theorem setRecovery_tabs (f : Nat) (x : Recovery) : (s.setRecovery f x).tabs = s.tabs := rfl
@[simp] theorem setRecovery_lens (f : Nat) (x : Recovery) : (s.setRecovery f x).lens = s.lens := rfl
@[simp] theorem setRecovery_isl (f : Nat) (x : Recovery) : (s.setRecovery f x).isl = s.isl := rfl
@[simp] theorem setRecovery_fr (f : Nat) (x : Recovery) : (s.setRecovery f x).fr = s.fr := rfl
@[simp] theorem setRecovery_rg (f : Nat) (x : Recovery) : (s.setRecovery f x).rg = s.rg := rfl
@[simp] theorem setRecovery_eg (f : Nat) (x : Recovery) : (s.setRecovery f x).eg = s.eg := rfl
@[simp] theorem setRecovery_tm (f : Nat) (x : Recovery) : (s.setRecovery f x).tm = s.tm := rfl
@[simp] theorem setRecovery_ho (f : Nat) (x : Recovery) : (s.setRecovery f x).ho = s.ho := rfl
@[simp] theorem setRecovery_ln (f : Nat) (x : Recovery) : (s.setRecovery f x).ln = s.ln := rfl
@[simp] theorem setRecovery_mm (f : Nat) (x : Recovery) : (s.setRecovery f x).mm = s.mm := rfl
@[simp] theorem setRecovery_nv (f : Nat) (x : Recovery) : (s.setRecovery f x).nv = s.nv := rfl
@[simp] theorem setRecovery_sy (f : Nat) (x : Recovery) : (s.setRecovery f x).sy = s.sy := rfl
@[simp] theorem setRecovery_ri (f : Nat) (x : Recovery) : (s.setRecovery f x).ri = s.ri := rfl
@[simp] theorem setRecovery_mv (f : Nat) (x : Recovery) : (s.setRecovery f x).mv = s.mv := rfl
@[simp] theorem setRecovery_co (f : Nat) (x : Recovery) : (s.setRecovery f x).co = s.co := rfl
@[simp] theorem setRecovery_mp (f : Nat) (x : Recovery) : (s.setRecovery f x).mp = s.mp := rfl
@[simp] theorem setRecovery_su (f : Nat) (x : Recovery) : (s.setRecovery f x).su = s.su := rfl
@[simp] theorem setRecovery_ag (f : Nat) (x : Recovery) : (s.setRecovery f x).ag = s.ag := rfl
@[simp] theorem setRecovery_answer (f : Nat) (x : Recovery) : (s.setRecovery f x).answer = s.answer := rfl
@[simp] theorem setRecovery_draws (f : Nat) (x : Recovery) : (s.setRecovery f x).draws = s.draws := rfl
@[simp] theorem setRecovery_pending (f : Nat) (x : Recovery) : (s.setRecovery f x).pending = s.pending := rfl
@[simp] theorem setRecovery_reg (f : Nat) (x : Recovery) (ix sub : Nat) : (s.setRecovery f x).reg ix sub = s.reg ix sub := rfl
@[simp] theorem setRecovery_record (f : Nat) (x : Recovery) (ix sub rn : Nat) : (s.setRecovery f x).record ix sub rn = s.record ix sub rn := rfl

/-! ### setMring -/

@[simp] theorem setMring_raw (m : Nat) (x : MRing) : (s.setMring m x).raw = s.raw := rfl
@[simp] theorem setMring_variant (m : Nat) (x : MRing) : (s.setMring m x).variant = s.variant := rfl
@[simp] theorem setMring_gradeI (m : Nat) (x : MRing) : (s.setMring m x).gradeI = s.gradeI := rfl
@[simp] theorem setMring_dict (m : Nat) (x : MRing) : (s.setMring m x).dict = s.dict := rfl
@[simp] theorem setMring_tabs (m : Nat) (x : MRing) : (s.setMring m x).tabs = s.tabs := rfl
@[simp] theorem setMring_lens (m : Nat) (x : MRing) : (s.setMring m x).lens = s.lens := rfl
@[simp] theorem setMring_isl (m : Nat) (x : MRing) : (s.setMring m x).isl = s.isl := rfl
@[simp] theorem setMring_fr (m : Nat) (x : MRing) : (s.setMring m x).fr = s.fr := rfl
@[simp] theorem setMring_rg (m : Nat) (x : MRing) : (s.setMring m x).rg = s.rg := rfl
@[simp] theorem setMring_tb (m : Nat) (x : MRing) : (s.setMring m x).tb = s.tb := rfl
@[simp] theorem setMring_eg (m : Nat) (x : MRing) : (s.setMring m x).eg = s.eg := rfl
@[simp] theorem setMring_tm (m : Nat) (x : MRing) : (s.setMring m x).tm = s.tm := rfl
@[simp] theorem setMring_ho (m : Nat) (x : MRing) : (s.setMring m x).ho = s.ho := rfl
@[simp] theorem setMring_ln (m : Nat) (x : MRing) : (s.setMring m x).ln = s.ln := rfl
@[simp] theorem setMring_mm (m : Nat) (x : MRing) : (s.setMring m x).mm = s.mm := rfl
@[simp] theorem setMring_nv (m : Nat) (x : MRing) : (s.setMring m x).nv = s.nv := rfl
@[simp] theorem setMring_sy (m : Nat) (x : MRing) : (s.setMring m x).sy = s.sy := rfl
@[simp] theorem setMring_mv (m : Nat) (x : MRing) : (s.setMring m x).mv = s.mv := rfl
@[simp] theorem setMring_co (m : Nat) (x : MRing) : (s.setMring m x).co = s.co := rfl
@[simp] theorem setMring_mp (m : Nat) (x : MRing) : (s.setMring m x).mp = s.mp := rfl
@[simp] theorem setMring_su (m : Nat) (x : MRing) : (s.setMring m x).su = s.su := rfl
@[simp] theorem setMring_ag (m : Nat) (x : MRing) : (s.setMring m x).ag = s.ag := rfl
@[simp] theorem setMring_answer (m : Nat) (x : MRing) : (s.setMring m x).answer = s.answer := rfl
@[simp] theorem setMring_draws (m : Nat) (x : MRing) : (s.setMring m x).draws = s.draws := rfl
@[simp] theorem setMring_pending (m : Nat) (x : MRing) : (s.setMring m x).pending = s.pending := rfl
@[simp] theorem setMring_reg (m : Nat) (x : MRing) (ix sub : Nat) : (s.setMring m x).reg ix sub = s.reg ix sub := rfl
@[simp] theorem setMring_record (m : Nat) (x : MRing) (ix sub rn : Nat) : (s.setMring m x).record ix sub rn = s.record ix sub rn := rfl

/-! ### setPtPair -/

@[simp] theorem setPtPair_raw (k : Nat) (x : PtPair) : (s.setPtPair k x).raw = s.raw := rfl
@[simp] theorem setPtPair_variant (k : Nat) (x : PtPair) : (s.setPtPair k x).variant = s.variant := rfl
@[simp] theorem setPtPair_gradeI (k : Nat) (x : PtPair) : (s.setPtPair k x).gradeI = s.gradeI := rfl
@[simp] theorem setPtPair_dict (k : Nat) (x : PtPair) : (s.setPtPair k x).dict = s.dict := rfl
@[simp] theorem setPtPair_tabs (k : Nat) (x : PtPair) : (s.setPtPair k x).tabs = s.tabs := rfl
@[simp] theorem setPtPair_lens (k : Nat) (x : PtPair) : (s.setPtPair k x).lens = s.lens := rfl
@[simp] theorem setPtPair_isl (k : Nat) (x : PtPair) : (s.setPtPair k x).isl = s.isl := rfl
@[simp] theorem setPtPair_fr (k : Nat) (x : PtPair) : (s.setPtPair k x).fr = s.fr := rfl
@[simp] theorem setPtPair_rg (k : Nat) (x : PtPair) : (s.setPtPair k x).rg = s.rg := rfl
@[simp] theorem setPtPair_tb (k : Nat) (x : PtPair) : (s.setPtPair k x).tb = s.tb := rfl
@[simp] theorem setPtPair_eg (k : Nat) (x : PtPair) : (s.setPtPair k x).eg = s.eg := rfl
@[simp] theorem setPtPair_tm (k : Nat) (x : PtPair) : (s.setPtPair k x).tm = s.tm := rfl
@[simp] theorem setPtPair_ho (k : Nat) (x : PtPair) : (s.setPtPair k x).ho = s.ho := rfl
@[simp] theorem setPtPair_ln (k : Nat) (x : PtPair) : (s.setPtPair k x).ln = s.ln := rfl
@[simp] theorem setPtPair_mm (k : Nat) (x : PtPair) : (s.setPtPair k x).mm = s.mm := rfl
@[simp] theorem setPtPair_nv (k : Nat) (x : PtPair) : (s.setPtPair k x).nv = s.nv := rfl
@[simp] theorem setPtPair_sy (k : Nat) (x : PtPair) : (s.setPtPair k x).sy = s.sy := rfl
@[simp] theorem setPtPair_mv (k : Nat) (x : PtPair) : (s.setPtPair k x).mv = s.mv := rfl
@[simp] theorem setPtPair_co (k : Nat) (x : PtPair) : (s.setPtPair k x).co = s.co := rfl
@[simp] theorem setPtPair_mp (k : Nat) (x : PtPair) : (s.setPtPair k x).mp = s.mp := rfl
@[simp] theorem setPtPair_su (k : Nat) (x : PtPair) : (s.setPtPair k x).su = s.su := rfl
@[simp] theorem setPtPair_ag (k : Nat) (x : PtPair) : (s.setPtPair k x).ag = s.ag := rfl
@[simp] theorem setPtPair_answer (k : Nat) (x : PtPair) : (s.setPtPair k x).answer = s.answer := rfl
@[simp] theorem setPtPair_draws (k : Nat) (x : PtPair) : (s.setPtPair k x).draws = s.draws := rfl
@[simp] theorem setPtPair_pending (k : Nat) (x : PtPair) : (s.setPtPair k x).pending = s.pending := rfl
@[simp] theorem setPtPair_reg (k : Nat) (x : PtPair) (ix sub : Nat) : (s.setPtPair k x).reg ix sub = s.reg ix sub := rfl
@[simp] theorem setPtPair_record (k : Nat) (x : PtPair) (ix sub rn : Nat) : (s.setPtPair k x).record ix sub rn = s.record ix sub rn := rfl

/-! ### setMemChan -/

@[simp] theorem setMemChan_raw (c : Nat) (x : MemChan) : (s.setMemChan c x).raw = s.raw := rfl
@[simp] theorem setMemChan_variant (c : Nat) (x : MemChan) : (s.setMemChan c x).variant = s.variant := rfl
@[simp] theorem setMemChan_gradeI (c : Nat) (x : MemChan) : (s.setMemChan c x).gradeI = s.gradeI := rfl
@[simp] theorem setMemChan_dict (c : Nat) (x : MemChan) : (s.setMemChan c x).dict = s.dict := rfl
@[simp] theorem setMemChan_tabs (c : Nat) (x : MemChan) : (s.setMemChan c x).tabs = s.tabs := rfl
@[simp] theorem setMemChan_lens (c : Nat) (x : MemChan) : (s.setMemChan c x).lens = s.lens := rfl
@[simp] theorem setMemChan_isl (c : Nat) (x : MemChan) : (s.setMemChan c x).isl = s.isl := rfl
@[simp] theorem setMemChan_fr (c : Nat) (x : MemChan) : (s.setMemChan c x).fr = s.fr := rfl
@[simp] theorem setMemChan_rg (c : Nat) (x : MemChan) : (s.setMemChan c x).rg = s.rg := rfl
@[simp] theorem setMemChan_tb (c : Nat) (x : MemChan) : (s.setMemChan c x).tb = s.tb := rfl
@[simp] theorem setMemChan_eg (c : Nat) (x : MemChan) : (s.setMemChan c x).eg = s.eg := rfl
@[simp] theorem setMemChan_tm (c : Nat) (x : MemChan) : (s.setMemChan c x).tm = s.tm := rfl
@[simp] theorem setMemChan_ho (c : Nat) (x : MemChan) : (s.setMemChan c x).ho = s.ho := rfl
@[simp] theorem setMemChan_ln (c : Nat) (x : MemChan) : (s.setMemChan c x).ln = s.ln := rfl
@[simp] theorem setMemChan_nv (c : Nat) (x : MemChan) : (s.setMemChan c x).nv = s.nv := rfl
@[simp] theorem setMemChan_sy (c : Nat) (x : MemChan) : (s.setMemChan c x).sy = s.sy := rfl
@[simp] theorem setMemChan_ri (c : Nat) (x : MemChan) : (s.setMemChan c x).ri = s.ri := rfl
@[simp] theorem setMemChan_mv (c : Nat) (x : MemChan) : (s.setMemChan c x).mv = s.mv := rfl
@[simp] theorem setMemChan_co (c : Nat) (x : MemChan) : (s.setMemChan c x).co = s.co := rfl
@[simp] theorem setMemChan_mp (c : Nat) (x : MemChan) : (s.setMemChan c x).mp = s.mp := rfl
@[simp] theorem setMemChan_su (c : Nat) (x : MemChan) : (s.setMemChan c x).su = s.su := rfl
@[simp] theorem setMemChan_ag (c : Nat) (x : MemChan) : (s.setMemChan c x).ag = s.ag := rfl
@[simp] theorem setMemChan_answer (c : Nat) (x : MemChan) : (s.setMemChan c x).answer = s.answer := rfl
@[simp] theorem setMemChan_draws (c : Nat) (x : MemChan) : (s.setMemChan c x).draws = s.draws := rfl
@[simp] theorem setMemChan_pending (c : Nat) (x : MemChan) : (s.setMemChan c x).pending = s.pending := rfl
@[simp] theorem setMemChan_reg (c : Nat) (x : MemChan) (ix sub : Nat) : (s.setMemChan c x).reg ix sub = s.reg ix sub := rfl
@[simp] theorem setMemChan_record (c : Nat) (x : MemChan) (ix sub rn : Nat) : (s.setMemChan c x).record ix sub rn = s.record ix sub rn := rfl

/-! ### setPortLink -/

@[simp] theorem setPortLink_raw (p : Nat) (x : PortLink) : (s.setPortLink p x).raw = s.raw := rfl
@[simp] theorem setPortLink_variant (p : Nat) (x : PortLink) : (s.setPortLink p x).variant = s.variant := rfl
@[simp] theorem setPortLink_gradeI (p : Nat) (x : PortLink) : (s.setPortLink p x).gradeI = s.gradeI := rfl
@[simp] theorem setPortLink_dict (p : Nat) (x : PortLink) : (s.setPortLink p x).dict = s.dict := rfl
@[simp] theorem setPortLink_tabs (p : Nat) (x : PortLink) : (s.setPortLink p x).tabs = s.tabs := rfl
@[simp] theorem setPortLink_lens (p : Nat) (x : PortLink) : (s.setPortLink p x).lens = s.lens := rfl
@[simp] theorem setPortLink_isl (p : Nat) (x : PortLink) : (s.setPortLink p x).isl = s.isl := rfl
@[simp] theorem setPortLink_fr (p : Nat) (x : PortLink) : (s.setPortLink p x).fr = s.fr := rfl
@[simp] theorem setPortLink_rg (p : Nat) (x : PortLink) : (s.setPortLink p x).rg = s.rg := rfl
@[simp] theorem setPortLink_tb (p : Nat) (x : PortLink) : (s.setPortLink p x).tb = s.tb := rfl
@[simp] theorem setPortLink_eg (p : Nat) (x : PortLink) : (s.setPortLink p x).eg = s.eg := rfl
@[simp] theorem setPortLink_tm (p : Nat) (x : PortLink) : (s.setPortLink p x).tm = s.tm := rfl
@[simp] theorem setPortLink_ho (p : Nat) (x : PortLink) : (s.setPortLink p x).ho = s.ho := rfl
@[simp] theorem setPortLink_mm (p : Nat) (x : PortLink) : (s.setPortLink p x).mm = s.mm := rfl
@[simp] theorem setPortLink_nv (p : Nat) (x : PortLink) : (s.setPortLink p x).nv = s.nv := rfl
@[simp] theorem setPortLink_sy (p : Nat) (x : PortLink) : (s.setPortLink p x).sy = s.sy := rfl
@[simp] theorem setPortLink_ri (p : Nat) (x : PortLink) : (s.setPortLink p x).ri = s.ri := rfl
@[simp] theorem setPortLink_mv (p : Nat) (x : PortLink) : (s.setPortLink p x).mv = s.mv := rfl
@[simp] theorem setPortLink_co (p : Nat) (x : PortLink) : (s.setPortLink p x).co = s.co := rfl
@[simp] theorem setPortLink_mp (p : Nat) (x : PortLink) : (s.setPortLink p x).mp = s.mp := rfl
@[simp] theorem setPortLink_su (p : Nat) (x : PortLink) : (s.setPortLink p x).su = s.su := rfl
@[simp] theorem setPortLink_ag (p : Nat) (x : PortLink) : (s.setPortLink p x).ag = s.ag := rfl
@[simp] theorem setPortLink_answer (p : Nat) (x : PortLink) : (s.setPortLink p x).answer = s.answer := rfl
@[simp] theorem setPortLink_draws (p : Nat) (x : PortLink) : (s.setPortLink p x).draws = s.draws := rfl
@[simp] theorem setPortLink_pending (p : Nat) (x : PortLink) : (s.setPortLink p x).pending = s.pending := rfl
@[simp] theorem setPortLink_reg (p : Nat) (x : PortLink) (ix sub : Nat) : (s.setPortLink p x).reg ix sub = s.reg ix sub := rfl
@[simp] theorem setPortLink_record (p : Nat) (x : PortLink) (ix sub rn : Nat) : (s.setPortLink p x).record ix sub rn = s.record ix sub rn := rfl

/-! ### setLane -/

@[simp] theorem setLane_raw (l : Nat) (x : Lane) : (s.setLane l x).raw = s.raw := rfl
@[simp] theorem setLane_variant (l : Nat) (x : Lane) : (s.setLane l x).variant = s.variant := rfl
@[simp] theorem setLane_gradeI (l : Nat) (x : Lane) : (s.setLane l x).gradeI = s.gradeI := rfl
@[simp] theorem setLane_dict (l : Nat) (x : Lane) : (s.setLane l x).dict = s.dict := rfl
@[simp] theorem setLane_tabs (l : Nat) (x : Lane) : (s.setLane l x).tabs = s.tabs := rfl
@[simp] theorem setLane_lens (l : Nat) (x : Lane) : (s.setLane l x).lens = s.lens := rfl
@[simp] theorem setLane_isl (l : Nat) (x : Lane) : (s.setLane l x).isl = s.isl := rfl
@[simp] theorem setLane_fr (l : Nat) (x : Lane) : (s.setLane l x).fr = s.fr := rfl
@[simp] theorem setLane_rg (l : Nat) (x : Lane) : (s.setLane l x).rg = s.rg := rfl
@[simp] theorem setLane_tb (l : Nat) (x : Lane) : (s.setLane l x).tb = s.tb := rfl
@[simp] theorem setLane_eg (l : Nat) (x : Lane) : (s.setLane l x).eg = s.eg := rfl
@[simp] theorem setLane_tm (l : Nat) (x : Lane) : (s.setLane l x).tm = s.tm := rfl
@[simp] theorem setLane_ho (l : Nat) (x : Lane) : (s.setLane l x).ho = s.ho := rfl
@[simp] theorem setLane_mm (l : Nat) (x : Lane) : (s.setLane l x).mm = s.mm := rfl
@[simp] theorem setLane_nv (l : Nat) (x : Lane) : (s.setLane l x).nv = s.nv := rfl
@[simp] theorem setLane_sy (l : Nat) (x : Lane) : (s.setLane l x).sy = s.sy := rfl
@[simp] theorem setLane_ri (l : Nat) (x : Lane) : (s.setLane l x).ri = s.ri := rfl
@[simp] theorem setLane_mv (l : Nat) (x : Lane) : (s.setLane l x).mv = s.mv := rfl
@[simp] theorem setLane_co (l : Nat) (x : Lane) : (s.setLane l x).co = s.co := rfl
@[simp] theorem setLane_mp (l : Nat) (x : Lane) : (s.setLane l x).mp = s.mp := rfl
@[simp] theorem setLane_su (l : Nat) (x : Lane) : (s.setLane l x).su = s.su := rfl
@[simp] theorem setLane_ag (l : Nat) (x : Lane) : (s.setLane l x).ag = s.ag := rfl
@[simp] theorem setLane_answer (l : Nat) (x : Lane) : (s.setLane l x).answer = s.answer := rfl
@[simp] theorem setLane_draws (l : Nat) (x : Lane) : (s.setLane l x).draws = s.draws := rfl
@[simp] theorem setLane_pending (l : Nat) (x : Lane) : (s.setLane l x).pending = s.pending := rfl
@[simp] theorem setLane_reg (l : Nat) (x : Lane) (ix sub : Nat) : (s.setLane l x).reg ix sub = s.reg ix sub := rfl
@[simp] theorem setLane_record (l : Nat) (x : Lane) (ix sub rn : Nat) : (s.setLane l x).record ix sub rn = s.record ix sub rn := rfl

/-! ### setQuote -/

@[simp] theorem setQuote_raw (q : Option QuoteJob) : (s.setQuote q).raw = s.raw := rfl
@[simp] theorem setQuote_variant (q : Option QuoteJob) : (s.setQuote q).variant = s.variant := rfl
@[simp] theorem setQuote_gradeI (q : Option QuoteJob) : (s.setQuote q).gradeI = s.gradeI := rfl
@[simp] theorem setQuote_dict (q : Option QuoteJob) : (s.setQuote q).dict = s.dict := rfl
@[simp] theorem setQuote_tabs (q : Option QuoteJob) : (s.setQuote q).tabs = s.tabs := rfl
@[simp] theorem setQuote_lens (q : Option QuoteJob) : (s.setQuote q).lens = s.lens := rfl
@[simp] theorem setQuote_isl (q : Option QuoteJob) : (s.setQuote q).isl = s.isl := rfl
@[simp] theorem setQuote_fr (q : Option QuoteJob) : (s.setQuote q).fr = s.fr := rfl
@[simp] theorem setQuote_rg (q : Option QuoteJob) : (s.setQuote q).rg = s.rg := rfl
@[simp] theorem setQuote_tb (q : Option QuoteJob) : (s.setQuote q).tb = s.tb := rfl
@[simp] theorem setQuote_eg (q : Option QuoteJob) : (s.setQuote q).eg = s.eg := rfl
@[simp] theorem setQuote_tm (q : Option QuoteJob) : (s.setQuote q).tm = s.tm := rfl
@[simp] theorem setQuote_ho (q : Option QuoteJob) : (s.setQuote q).ho = s.ho := rfl
@[simp] theorem setQuote_ln (q : Option QuoteJob) : (s.setQuote q).ln = s.ln := rfl
@[simp] theorem setQuote_mm (q : Option QuoteJob) : (s.setQuote q).mm = s.mm := rfl
@[simp] theorem setQuote_sy (q : Option QuoteJob) : (s.setQuote q).sy = s.sy := rfl
@[simp] theorem setQuote_ri (q : Option QuoteJob) : (s.setQuote q).ri = s.ri := rfl
@[simp] theorem setQuote_mv (q : Option QuoteJob) : (s.setQuote q).mv = s.mv := rfl
@[simp] theorem setQuote_co (q : Option QuoteJob) : (s.setQuote q).co = s.co := rfl
@[simp] theorem setQuote_mp (q : Option QuoteJob) : (s.setQuote q).mp = s.mp := rfl
@[simp] theorem setQuote_su (q : Option QuoteJob) : (s.setQuote q).su = s.su := rfl
@[simp] theorem setQuote_ag (q : Option QuoteJob) : (s.setQuote q).ag = s.ag := rfl
@[simp] theorem setQuote_answer (q : Option QuoteJob) : (s.setQuote q).answer = s.answer := rfl
@[simp] theorem setQuote_draws (q : Option QuoteJob) : (s.setQuote q).draws = s.draws := rfl
@[simp] theorem setQuote_pending (q : Option QuoteJob) : (s.setQuote q).pending = s.pending := rfl
@[simp] theorem setQuote_reg (q : Option QuoteJob) (ix sub : Nat) : (s.setQuote q).reg ix sub = s.reg ix sub := rfl
@[simp] theorem setQuote_record (q : Option QuoteJob) (ix sub rn : Nat) : (s.setQuote q).record ix sub rn = s.record ix sub rn := rfl

/-! ### reply -/

@[simp] theorem reply_raw (a : Answer) : (s.reply a).raw = s.raw := rfl
@[simp] theorem reply_variant (a : Answer) : (s.reply a).variant = s.variant := rfl
@[simp] theorem reply_gradeI (a : Answer) : (s.reply a).gradeI = s.gradeI := rfl
@[simp] theorem reply_dict (a : Answer) : (s.reply a).dict = s.dict := rfl
@[simp] theorem reply_tabs (a : Answer) : (s.reply a).tabs = s.tabs := rfl
@[simp] theorem reply_lens (a : Answer) : (s.reply a).lens = s.lens := rfl
@[simp] theorem reply_isl (a : Answer) : (s.reply a).isl = s.isl := rfl
@[simp] theorem reply_fr (a : Answer) : (s.reply a).fr = s.fr := rfl
@[simp] theorem reply_rg (a : Answer) : (s.reply a).rg = s.rg := rfl
@[simp] theorem reply_tb (a : Answer) : (s.reply a).tb = s.tb := rfl
@[simp] theorem reply_eg (a : Answer) : (s.reply a).eg = s.eg := rfl
@[simp] theorem reply_tm (a : Answer) : (s.reply a).tm = s.tm := rfl
@[simp] theorem reply_ho (a : Answer) : (s.reply a).ho = s.ho := rfl
@[simp] theorem reply_ln (a : Answer) : (s.reply a).ln = s.ln := rfl
@[simp] theorem reply_mm (a : Answer) : (s.reply a).mm = s.mm := rfl
@[simp] theorem reply_nv (a : Answer) : (s.reply a).nv = s.nv := rfl
@[simp] theorem reply_sy (a : Answer) : (s.reply a).sy = s.sy := rfl
@[simp] theorem reply_ri (a : Answer) : (s.reply a).ri = s.ri := rfl
@[simp] theorem reply_mv (a : Answer) : (s.reply a).mv = s.mv := rfl
@[simp] theorem reply_co (a : Answer) : (s.reply a).co = s.co := rfl
@[simp] theorem reply_mp (a : Answer) : (s.reply a).mp = s.mp := rfl
@[simp] theorem reply_su (a : Answer) : (s.reply a).su = s.su := rfl
@[simp] theorem reply_ag (a : Answer) : (s.reply a).ag = s.ag := rfl
@[simp] theorem reply_draws (a : Answer) : (s.reply a).draws = s.draws := rfl
@[simp] theorem reply_pending (a : Answer) : (s.reply a).pending = s.pending := rfl
@[simp] theorem reply_reg (a : Answer) (ix sub : Nat) : (s.reply a).reg ix sub = s.reg ix sub := rfl
@[simp] theorem reply_record (a : Answer) (ix sub rn : Nat) : (s.reply a).record ix sub rn = s.record ix sub rn := rfl

/-! ### setFwSlot -/

@[simp] theorem setFwSlot_raw (i : Nat) (b : List Byte) : (s.setFwSlot i b).raw = s.raw := rfl
@[simp] theorem setFwSlot_variant (i : Nat) (b : List Byte) : (s.setFwSlot i b).variant = s.variant := rfl
@[simp] theorem setFwSlot_gradeI (i : Nat) (b : List Byte) : (s.setFwSlot i b).gradeI = s.gradeI := rfl
@[simp] theorem setFwSlot_dict (i : Nat) (b : List Byte) : (s.setFwSlot i b).dict = s.dict := rfl
@[simp] theorem setFwSlot_tabs (i : Nat) (b : List Byte) : (s.setFwSlot i b).tabs = s.tabs := rfl
@[simp] theorem setFwSlot_lens (i : Nat) (b : List Byte) : (s.setFwSlot i b).lens = s.lens := rfl
@[simp] theorem setFwSlot_isl (i : Nat) (b : List Byte) : (s.setFwSlot i b).isl = s.isl := rfl
@[simp] theorem setFwSlot_fr (i : Nat) (b : List Byte) : (s.setFwSlot i b).fr = s.fr := rfl
@[simp] theorem setFwSlot_rg (i : Nat) (b : List Byte) : (s.setFwSlot i b).rg = s.rg := rfl
@[simp] theorem setFwSlot_tb (i : Nat) (b : List Byte) : (s.setFwSlot i b).tb = s.tb := rfl
@[simp] theorem setFwSlot_eg (i : Nat) (b : List Byte) : (s.setFwSlot i b).eg = s.eg := rfl
@[simp] theorem setFwSlot_tm (i : Nat) (b : List Byte) : (s.setFwSlot i b).tm = s.tm := rfl
@[simp] theorem setFwSlot_ho (i : Nat) (b : List Byte) : (s.setFwSlot i b).ho = s.ho := rfl
@[simp] theorem setFwSlot_ln (i : Nat) (b : List Byte) : (s.setFwSlot i b).ln = s.ln := rfl
@[simp] theorem setFwSlot_mm (i : Nat) (b : List Byte) : (s.setFwSlot i b).mm = s.mm := rfl
@[simp] theorem setFwSlot_sy (i : Nat) (b : List Byte) : (s.setFwSlot i b).sy = s.sy := rfl
@[simp] theorem setFwSlot_ri (i : Nat) (b : List Byte) : (s.setFwSlot i b).ri = s.ri := rfl
@[simp] theorem setFwSlot_mv (i : Nat) (b : List Byte) : (s.setFwSlot i b).mv = s.mv := rfl
@[simp] theorem setFwSlot_co (i : Nat) (b : List Byte) : (s.setFwSlot i b).co = s.co := rfl
@[simp] theorem setFwSlot_mp (i : Nat) (b : List Byte) : (s.setFwSlot i b).mp = s.mp := rfl
@[simp] theorem setFwSlot_su (i : Nat) (b : List Byte) : (s.setFwSlot i b).su = s.su := rfl
@[simp] theorem setFwSlot_ag (i : Nat) (b : List Byte) : (s.setFwSlot i b).ag = s.ag := rfl
@[simp] theorem setFwSlot_answer (i : Nat) (b : List Byte) : (s.setFwSlot i b).answer = s.answer := rfl
@[simp] theorem setFwSlot_draws (i : Nat) (b : List Byte) : (s.setFwSlot i b).draws = s.draws := rfl
@[simp] theorem setFwSlot_pending (i : Nat) (b : List Byte) : (s.setFwSlot i b).pending = s.pending := rfl
@[simp] theorem setFwSlot_reg (i : Nat) (b : List Byte) (ix sub : Nat) : (s.setFwSlot i b).reg ix sub = s.reg ix sub := rfl
@[simp] theorem setFwSlot_record (i : Nat) (b : List Byte) (ix sub rn : Nat) : (s.setFwSlot i b).record ix sub rn = s.record ix sub rn := rfl

/-! ### setImgSlot -/

@[simp] theorem setImgSlot_raw (i : Nat) (b : List Byte) : (s.setImgSlot i b).raw = s.raw := rfl
@[simp] theorem setImgSlot_variant (i : Nat) (b : List Byte) : (s.setImgSlot i b).variant = s.variant := rfl
@[simp] theorem setImgSlot_gradeI (i : Nat) (b : List Byte) : (s.setImgSlot i b).gradeI = s.gradeI := rfl
@[simp] theorem setImgSlot_dict (i : Nat) (b : List Byte) : (s.setImgSlot i b).dict = s.dict := rfl
@[simp] theorem setImgSlot_tabs (i : Nat) (b : List Byte) : (s.setImgSlot i b).tabs = s.tabs := rfl
@[simp] theorem setImgSlot_lens (i : Nat) (b : List Byte) : (s.setImgSlot i b).lens = s.lens := rfl
@[simp] theorem setImgSlot_isl (i : Nat) (b : List Byte) : (s.setImgSlot i b).isl = s.isl := rfl
@[simp] theorem setImgSlot_fr (i : Nat) (b : List Byte) : (s.setImgSlot i b).fr = s.fr := rfl
@[simp] theorem setImgSlot_rg (i : Nat) (b : List Byte) : (s.setImgSlot i b).rg = s.rg := rfl
@[simp] theorem setImgSlot_tb (i : Nat) (b : List Byte) : (s.setImgSlot i b).tb = s.tb := rfl
@[simp] theorem setImgSlot_eg (i : Nat) (b : List Byte) : (s.setImgSlot i b).eg = s.eg := rfl
@[simp] theorem setImgSlot_tm (i : Nat) (b : List Byte) : (s.setImgSlot i b).tm = s.tm := rfl
@[simp] theorem setImgSlot_ho (i : Nat) (b : List Byte) : (s.setImgSlot i b).ho = s.ho := rfl
@[simp] theorem setImgSlot_ln (i : Nat) (b : List Byte) : (s.setImgSlot i b).ln = s.ln := rfl
@[simp] theorem setImgSlot_mm (i : Nat) (b : List Byte) : (s.setImgSlot i b).mm = s.mm := rfl
@[simp] theorem setImgSlot_sy (i : Nat) (b : List Byte) : (s.setImgSlot i b).sy = s.sy := rfl
@[simp] theorem setImgSlot_ri (i : Nat) (b : List Byte) : (s.setImgSlot i b).ri = s.ri := rfl
@[simp] theorem setImgSlot_mv (i : Nat) (b : List Byte) : (s.setImgSlot i b).mv = s.mv := rfl
@[simp] theorem setImgSlot_co (i : Nat) (b : List Byte) : (s.setImgSlot i b).co = s.co := rfl
@[simp] theorem setImgSlot_mp (i : Nat) (b : List Byte) : (s.setImgSlot i b).mp = s.mp := rfl
@[simp] theorem setImgSlot_su (i : Nat) (b : List Byte) : (s.setImgSlot i b).su = s.su := rfl
@[simp] theorem setImgSlot_ag (i : Nat) (b : List Byte) : (s.setImgSlot i b).ag = s.ag := rfl
@[simp] theorem setImgSlot_answer (i : Nat) (b : List Byte) : (s.setImgSlot i b).answer = s.answer := rfl
@[simp] theorem setImgSlot_draws (i : Nat) (b : List Byte) : (s.setImgSlot i b).draws = s.draws := rfl
@[simp] theorem setImgSlot_pending (i : Nat) (b : List Byte) : (s.setImgSlot i b).pending = s.pending := rfl
@[simp] theorem setImgSlot_reg (i : Nat) (b : List Byte) (ix sub : Nat) : (s.setImgSlot i b).reg ix sub = s.reg ix sub := rfl
@[simp] theorem setImgSlot_record (i : Nat) (b : List Byte) (ix sub rn : Nat) : (s.setImgSlot i b).record ix sub rn = s.record ix sub rn := rfl

@[simp] theorem reply_answer (a : Answer) : (s.reply a).answer = a := rfl

/-! ### Accessors after their own update -/

@[simp] theorem island_setIsland_same (i : Nat) (x : Island) : (s.setIsland i x).island i = x := by simp [State.island, State.setIsland]
theorem island_setIsland_ne (i : Nat) (x : Island) {k' : Nat} (h : k' ≠ i) : (s.setIsland i x).island k' = s.island k' := by
  simp [State.island, State.setIsland, tgetD_tput_ne _ _ _ _ h]
@[simp] theorem island_reply (a : Answer) (k' : Nat) : (s.reply a).island k' = s.island k' := rfl
@[simp] theorem island_setReg (i j v k' : Nat) : (s.setReg i j v).island k' = s.island k' := rfl

@[simp] theorem group_setGroup_same (g : Nat) (x : ApplyGroup) : (s.setGroup g x).group g = x := by simp [State.group, State.setGroup]
theorem group_setGroup_ne (g : Nat) (x : ApplyGroup) {k' : Nat} (h : k' ≠ g) : (s.setGroup g x).group k' = s.group k' := by
  simp [State.group, State.setGroup, tgetD_tput_ne _ _ _ _ h]
@[simp] theorem group_reply (a : Answer) (k' : Nat) : (s.reply a).group k' = s.group k' := rfl
@[simp] theorem group_setReg (i j v k' : Nat) : (s.setReg i j v).group k' = s.group k' := rfl

@[simp] theorem vec_setVec_same (v : Nat) (x : Vec) : (s.setVec v x).vec v = x := by simp [State.vec, State.setVec]
theorem vec_setVec_ne (v : Nat) (x : Vec) {k' : Nat} (h : k' ≠ v) : (s.setVec v x).vec k' = s.vec k' := by
  simp [State.vec, State.setVec, tgetD_tput_ne _ _ _ _ h]
@[simp] theorem vec_reply (a : Answer) (k' : Nat) : (s.reply a).vec k' = s.vec k' := rfl
@[simp] theorem vec_setReg (i j v k' : Nat) : (s.setReg i j v).vec k' = s.vec k' := rfl

@[simp] theorem channel_setChannel_same (c : Nat) (x : Channel) : (s.setChannel c x).channel c = x := by simp [State.channel, State.setChannel]
theorem channel_setChannel_ne (c : Nat) (x : Channel) {k' : Nat} (h : k' ≠ c) : (s.setChannel c x).channel k' = s.channel k' := by
  simp [State.channel, State.setChannel, tgetD_tput_ne _ _ _ _ h]
@[simp] theorem channel_reply (a : Answer) (k' : Nat) : (s.reply a).channel k' = s.channel k' := rfl
@[simp] theorem channel_setReg (i j v k' : Nat) : (s.setReg i j v).channel k' = s.channel k' := rfl

@[simp] theorem cring_setCring_same (r : Nat) (x : CRing) : (s.setCring r x).cring r = x := by simp [State.cring, State.setCring]
theorem cring_setCring_ne (r : Nat) (x : CRing) {k' : Nat} (h : k' ≠ r) : (s.setCring r x).cring k' = s.cring k' := by
  simp [State.cring, State.setCring, tgetD_tput_ne _ _ _ _ h]
@[simp] theorem cring_reply (a : Answer) (k' : Nat) : (s.reply a).cring k' = s.cring k' := rfl
@[simp] theorem cring_setReg (i j v k' : Nat) : (s.setReg i j v).cring k' = s.cring k' := rfl

@[simp] theorem dom_setDom_same (d : Nat) (x : TDomain) : (s.setDom d x).dom d = x := by simp [State.dom, State.setDom]
theorem dom_setDom_ne (d : Nat) (x : TDomain) {k' : Nat} (h : k' ≠ d) : (s.setDom d x).dom k' = s.dom k' := by
  simp [State.dom, State.setDom, tgetD_tput_ne _ _ _ _ h]
@[simp] theorem dom_reply (a : Answer) (k' : Nat) : (s.reply a).dom k' = s.dom k' := rfl
@[simp] theorem dom_setReg (i j v k' : Nat) : (s.setReg i j v).dom k' = s.dom k' := rfl

@[simp] theorem pin_setPin_same (n : Nat) (x : Pin) : (s.setPin n x).pin n = x := by simp [State.pin, State.setPin]
theorem pin_setPin_ne (n : Nat) (x : Pin) {k' : Nat} (h : k' ≠ n) : (s.setPin n x).pin k' = s.pin k' := by
  simp [State.pin, State.setPin, tgetD_tput_ne _ _ _ _ h]
@[simp] theorem pin_reply (a : Answer) (k' : Nat) : (s.reply a).pin k' = s.pin k' := rfl
@[simp] theorem pin_setReg (i j v k' : Nat) : (s.setReg i j v).pin k' = s.pin k' := rfl

@[simp] theorem gate_setGate_same (k : Nat) (x : Gate) : (s.setGate k x).gate k = x := by simp [State.gate, State.setGate]
theorem gate_setGate_ne (k : Nat) (x : Gate) {k' : Nat} (h : k' ≠ k) : (s.setGate k x).gate k' = s.gate k' := by
  simp [State.gate, State.setGate, tgetD_tput_ne _ _ _ _ h]
@[simp] theorem gate_reply (a : Answer) (k' : Nat) : (s.reply a).gate k' = s.gate k' := rfl
@[simp] theorem gate_setReg (i j v k' : Nat) : (s.setReg i j v).gate k' = s.gate k' := rfl

@[simp] theorem shaper_setShaper_same (q : Nat) (x : Shaper) : (s.setShaper q x).shaper q = x := by simp [State.shaper, State.setShaper]
theorem shaper_setShaper_ne (q : Nat) (x : Shaper) {k' : Nat} (h : k' ≠ q) : (s.setShaper q x).shaper k' = s.shaper k' := by
  simp [State.shaper, State.setShaper, tgetD_tput_ne _ _ _ _ h]
@[simp] theorem shaper_reply (a : Answer) (k' : Nat) : (s.reply a).shaper k' = s.shaper k' := rfl
@[simp] theorem shaper_setReg (i j v k' : Nat) : (s.setReg i j v).shaper k' = s.shaper k' := rfl

@[simp] theorem queue_setQueue_same (q : Nat) (l : List QCopy) : (s.setQueue q l).queue q = l := by simp [State.queue, State.setQueue]
theorem queue_setQueue_ne (q : Nat) (l : List QCopy) {k' : Nat} (h : k' ≠ q) : (s.setQueue q l).queue k' = s.queue k' := by
  simp [State.queue, State.setQueue, tgetD_tput_ne _ _ _ _ h]
@[simp] theorem queue_reply (a : Answer) (k' : Nat) : (s.reply a).queue k' = s.queue k' := rfl
@[simp] theorem queue_setReg (i j v k' : Nat) : (s.setReg i j v).queue k' = s.queue k' := rfl

@[simp] theorem pmac_setPmac_same (p : Nat) (x : PMac) : (s.setPmac p x).pmac p = x := by simp [State.pmac, State.setPmac]
theorem pmac_setPmac_ne (p : Nat) (x : PMac) {k' : Nat} (h : k' ≠ p) : (s.setPmac p x).pmac k' = s.pmac k' := by
  simp [State.pmac, State.setPmac, tgetD_tput_ne _ _ _ _ h]
@[simp] theorem pmac_reply (a : Answer) (k' : Nat) : (s.reply a).pmac k' = s.pmac k' := rfl
@[simp] theorem pmac_setReg (i j v k' : Nat) : (s.setReg i j v).pmac k' = s.pmac k' := rfl

@[simp] theorem keeper_setKeeper_same (k : Nat) (x : Keeper) : (s.setKeeper k x).keeper k = x := by simp [State.keeper, State.setKeeper]
theorem keeper_setKeeper_ne (k : Nat) (x : Keeper) {k' : Nat} (h : k' ≠ k) : (s.setKeeper k x).keeper k' = s.keeper k' := by
  simp [State.keeper, State.setKeeper, tgetD_tput_ne _ _ _ _ h]
@[simp] theorem keeper_reply (a : Answer) (k' : Nat) : (s.reply a).keeper k' = s.keeper k' := rfl
@[simp] theorem keeper_setReg (i j v k' : Nat) : (s.setReg i j v).keeper k' = s.keeper k' := rfl

@[simp] theorem orderDomain_setOrderDomain_same (d : Nat) (x : OrderDomain) : (s.setOrderDomain d x).orderDomain d = x := by simp [State.orderDomain, State.setOrderDomain]
theorem orderDomain_setOrderDomain_ne (d : Nat) (x : OrderDomain) {k' : Nat} (h : k' ≠ d) : (s.setOrderDomain d x).orderDomain k' = s.orderDomain k' := by
  simp [State.orderDomain, State.setOrderDomain, tgetD_tput_ne _ _ _ _ h]
@[simp] theorem orderDomain_reply (a : Answer) (k' : Nat) : (s.reply a).orderDomain k' = s.orderDomain k' := rfl
@[simp] theorem orderDomain_setReg (i j v k' : Nat) : (s.setReg i j v).orderDomain k' = s.orderDomain k' := rfl

@[simp] theorem holdTimer_setHoldTimer_same (p : Nat) (x : HoldTimer) : (s.setHoldTimer p x).holdTimer p = x := by simp [State.holdTimer, State.setHoldTimer]
theorem holdTimer_setHoldTimer_ne (p : Nat) (x : HoldTimer) {k' : Nat} (h : k' ≠ p) : (s.setHoldTimer p x).holdTimer k' = s.holdTimer k' := by
  simp [State.holdTimer, State.setHoldTimer, tgetD_tput_ne _ _ _ _ h]
@[simp] theorem holdTimer_reply (a : Answer) (k' : Nat) : (s.reply a).holdTimer k' = s.holdTimer k' := rfl
@[simp] theorem holdTimer_setReg (i j v k' : Nat) : (s.setReg i j v).holdTimer k' = s.holdTimer k' := rfl

@[simp] theorem cellMark_setCellMark_same (c : Nat) (x : CellMark) : (s.setCellMark c x).cellMark c = x := by simp [State.cellMark, State.setCellMark]
theorem cellMark_setCellMark_ne (c : Nat) (x : CellMark) {k' : Nat} (h : k' ≠ c) : (s.setCellMark c x).cellMark k' = s.cellMark k' := by
  simp [State.cellMark, State.setCellMark, tgetD_tput_ne _ _ _ _ h]
@[simp] theorem cellMark_reply (a : Answer) (k' : Nat) : (s.reply a).cellMark k' = s.cellMark k' := rfl
@[simp] theorem cellMark_setReg (i j v k' : Nat) : (s.setReg i j v).cellMark k' = s.cellMark k' := rfl

@[simp] theorem rigQueue_setRigQueue_same (r : Nat) (l : List Nat) : (s.setRigQueue r l).rigQueue r = l := by simp [State.rigQueue, State.setRigQueue]
theorem rigQueue_setRigQueue_ne (r : Nat) (l : List Nat) {k' : Nat} (h : k' ≠ r) : (s.setRigQueue r l).rigQueue k' = s.rigQueue k' := by
  simp [State.rigQueue, State.setRigQueue, tgetD_tput_ne _ _ _ _ h]
@[simp] theorem rigQueue_reply (a : Answer) (k' : Nat) : (s.reply a).rigQueue k' = s.rigQueue k' := rfl
@[simp] theorem rigQueue_setReg (i j v k' : Nat) : (s.setReg i j v).rigQueue k' = s.rigQueue k' := rfl

@[simp] theorem rig_setRig_same (r : Nat) (x : Rig) : (s.setRig r x).rig r = x := by simp [State.rig, State.setRig]
theorem rig_setRig_ne (r : Nat) (x : Rig) {k' : Nat} (h : k' ≠ r) : (s.setRig r x).rig k' = s.rig k' := by
  simp [State.rig, State.setRig, tgetD_tput_ne _ _ _ _ h]
@[simp] theorem rig_reply (a : Answer) (k' : Nat) : (s.reply a).rig k' = s.rig k' := rfl
@[simp] theorem rig_setReg (i j v k' : Nat) : (s.setReg i j v).rig k' = s.rig k' := rfl

@[simp] theorem awl_setAwl_same (w : Nat) (x : Awl) : (s.setAwl w x).awl w = x := by simp [State.awl, State.setAwl]
theorem awl_setAwl_ne (w : Nat) (x : Awl) {k' : Nat} (h : k' ≠ w) : (s.setAwl w x).awl k' = s.awl k' := by
  simp [State.awl, State.setAwl, tgetD_tput_ne _ _ _ _ h]
@[simp] theorem awl_reply (a : Answer) (k' : Nat) : (s.reply a).awl k' = s.awl k' := rfl
@[simp] theorem awl_setReg (i j v k' : Nat) : (s.setReg i j v).awl k' = s.awl k' := rfl

@[simp] theorem xmTable_setXm_same (t : Nat) (x : XmTable) : (s.setXm t x).xmTable t = x := by simp [State.xmTable, State.setXm]
theorem xmTable_setXm_ne (t : Nat) (x : XmTable) {k' : Nat} (h : k' ≠ t) : (s.setXm t x).xmTable k' = s.xmTable k' := by
  simp [State.xmTable, State.setXm, tgetD_tput_ne _ _ _ _ h]
@[simp] theorem xmTable_reply (a : Answer) (k' : Nat) : (s.reply a).xmTable k' = s.xmTable k' := rfl
@[simp] theorem xmTable_setReg (i j v k' : Nat) : (s.setReg i j v).xmTable k' = s.xmTable k' := rfl

@[simp] theorem meter_setMeter_same (m : Nat) (x : Meter) : (s.setMeter m x).meter m = x := by simp [State.meter, State.setMeter]
theorem meter_setMeter_ne (m : Nat) (x : Meter) {k' : Nat} (h : k' ≠ m) : (s.setMeter m x).meter k' = s.meter k' := by
  simp [State.meter, State.setMeter, tgetD_tput_ne _ _ _ _ h]
@[simp] theorem meter_reply (a : Answer) (k' : Nat) : (s.reply a).meter k' = s.meter k' := rfl
@[simp] theorem meter_setReg (i j v k' : Nat) : (s.setReg i j v).meter k' = s.meter k' := rfl

@[simp] theorem recovery_setRecovery_same (f : Nat) (x : Recovery) : (s.setRecovery f x).recovery f = x := by simp [State.recovery, State.setRecovery]
theorem recovery_setRecovery_ne (f : Nat) (x : Recovery) {k' : Nat} (h : k' ≠ f) : (s.setRecovery f x).recovery k' = s.recovery k' := by
  simp [State.recovery, State.setRecovery, tgetD_tput_ne _ _ _ _ h]
@[simp] theorem recovery_reply (a : Answer) (k' : Nat) : (s.reply a).recovery k' = s.recovery k' := rfl
@[simp] theorem recovery_setReg (i j v k' : Nat) : (s.setReg i j v).recovery k' = s.recovery k' := rfl

@[simp] theorem mring_setMring_same (m : Nat) (x : MRing) : (s.setMring m x).mring m = x := by simp [State.mring, State.setMring]
theorem mring_setMring_ne (m : Nat) (x : MRing) {k' : Nat} (h : k' ≠ m) : (s.setMring m x).mring k' = s.mring k' := by
  simp [State.mring, State.setMring, tgetD_tput_ne _ _ _ _ h]
@[simp] theorem mring_reply (a : Answer) (k' : Nat) : (s.reply a).mring k' = s.mring k' := rfl
@[simp] theorem mring_setReg (i j v k' : Nat) : (s.setReg i j v).mring k' = s.mring k' := rfl

@[simp] theorem ptPair_setPtPair_same (k : Nat) (x : PtPair) : (s.setPtPair k x).ptPair k = x := by simp [State.ptPair, State.setPtPair]
theorem ptPair_setPtPair_ne (k : Nat) (x : PtPair) {k' : Nat} (h : k' ≠ k) : (s.setPtPair k x).ptPair k' = s.ptPair k' := by
  simp [State.ptPair, State.setPtPair, tgetD_tput_ne _ _ _ _ h]
@[simp] theorem ptPair_reply (a : Answer) (k' : Nat) : (s.reply a).ptPair k' = s.ptPair k' := rfl
@[simp] theorem ptPair_setReg (i j v k' : Nat) : (s.setReg i j v).ptPair k' = s.ptPair k' := rfl

@[simp] theorem memChan_setMemChan_same (c : Nat) (x : MemChan) : (s.setMemChan c x).memChan c = x := by simp [State.memChan, State.setMemChan]
theorem memChan_setMemChan_ne (c : Nat) (x : MemChan) {k' : Nat} (h : k' ≠ c) : (s.setMemChan c x).memChan k' = s.memChan k' := by
  simp [State.memChan, State.setMemChan, tgetD_tput_ne _ _ _ _ h]
@[simp] theorem memChan_reply (a : Answer) (k' : Nat) : (s.reply a).memChan k' = s.memChan k' := rfl
@[simp] theorem memChan_setReg (i j v k' : Nat) : (s.setReg i j v).memChan k' = s.memChan k' := rfl

@[simp] theorem portLink_setPortLink_same (p : Nat) (x : PortLink) : (s.setPortLink p x).portLink p = x := by simp [State.portLink, State.setPortLink]
theorem portLink_setPortLink_ne (p : Nat) (x : PortLink) {k' : Nat} (h : k' ≠ p) : (s.setPortLink p x).portLink k' = s.portLink k' := by
  simp [State.portLink, State.setPortLink, tgetD_tput_ne _ _ _ _ h]
@[simp] theorem portLink_reply (a : Answer) (k' : Nat) : (s.reply a).portLink k' = s.portLink k' := rfl
@[simp] theorem portLink_setReg (i j v k' : Nat) : (s.setReg i j v).portLink k' = s.portLink k' := rfl

@[simp] theorem lane_setLane_same (l : Nat) (x : Lane) : (s.setLane l x).lane l = x := by simp [State.lane, State.setLane]
theorem lane_setLane_ne (l : Nat) (x : Lane) {k' : Nat} (h : k' ≠ l) : (s.setLane l x).lane k' = s.lane k' := by
  simp [State.lane, State.setLane, tgetD_tput_ne _ _ _ _ h]
@[simp] theorem lane_reply (a : Answer) (k' : Nat) : (s.reply a).lane k' = s.lane k' := rfl
@[simp] theorem lane_setReg (i j v k' : Nat) : (s.setReg i j v).lane k' = s.lane k' := rfl

/-! ### Registers and records -/

@[simp] theorem reg_setReg_same (i j v : Nat) : (s.setReg i j v).reg i j = v := by
  simp [State.reg, State.setReg]

theorem reg_setReg_ne (i j v ix sub : Nat) (h : dictKey ix sub ≠ dictKey i j) : (s.setReg i j v).reg ix sub = s.reg ix sub := by
  simp [State.reg, State.setReg, tgetD_tput_ne _ _ _ _ h]

/-- Two elements with subindices below 65,536 share a key only where they are the same element. -/
theorem dictKey_inj {i j i' j' : Nat} (h : j < 65536) (h' : j' < 65536) : dictKey i j = dictKey i' j' ↔ i = i' ∧ j = j' := by
  unfold dictKey; omega

theorem reg_setReg (i j v ix sub : Nat) (hj : j < 65536) (hs : sub < 65536) :
    (s.setReg i j v).reg ix sub = if ix = i ∧ sub = j then v else s.reg ix sub := by
  split
  · rename_i h; obtain ⟨rfl, rfl⟩ := h; simp
  · exact reg_setReg_ne s i j v ix sub (fun h => by rw [dictKey_inj hs hj] at h; exact absurd h ‹_›)

@[simp] theorem record_setRecord_same (i j r v : Nat) : (s.setRecord i j r v).record i j r = v := by
  simp [State.record, State.setRecord]

theorem record_setRecord (i j r v ix sub n : Nat) :
    (s.setRecord i j r v).record ix sub n = if recKey ix sub n = recKey i j r then v else s.record ix sub n := by
  by_cases h : recKey ix sub n = recKey i j r
  · simp only [h, if_true]
    simp [State.record, State.setRecord, h]
  · simp only [h, if_false]
    simp [State.record, State.setRecord, tgetD_tput_ne _ _ _ _ h]

@[simp] theorem reg_count_same (i j n : Nat) : (s.count i j n).reg i j = wrapAdd 64 (s.reg i j) n := reg_setReg_same s i j _
theorem reg_count_ne (i j n ix sub : Nat) (h : dictKey ix sub ≠ dictKey i j) : (s.count i j n).reg ix sub = s.reg ix sub :=
  reg_setReg_ne s i j _ ix sub h

@[simp] theorem reg_count32_same (i j n : Nat) : (s.count32 i j n).reg i j = wrapAdd 32 (s.reg i j) n := reg_setReg_same s i j _
theorem reg_count32_ne (i j n ix sub : Nat) (h : dictKey ix sub ≠ dictKey i j) : (s.count32 i j n).reg ix sub = s.reg ix sub :=
  reg_setReg_ne s i j _ ix sub h

@[simp] theorem reg_countSat_same (i j n : Nat) : (s.countSat i j n).reg i j = satAdd 32 (s.reg i j) n := reg_setReg_same s i j _
theorem reg_countSat_ne (i j n ix sub : Nat) (h : dictKey ix sub ≠ dictKey i j) : (s.countSat i j n).reg ix sub = s.reg ix sub :=
  reg_setReg_ne s i j _ ix sub h

end Sys2Proof.Laws
end

