-- ==== Sys2Proof/Laws/Events.lean ====
section
/-! SUPPORT. What a request and an event can do (R321, R459 to R461): an interrupt vector, the log, and six counters. -/

namespace Sys2Proof.Laws
open Sys2Proof.Machine

variable (s : State)

/-- A request changes the vectors and nothing else. -/
theorem request_eq (v : Nat) (r : Stamp) : s.request v r = { s with ho := { s.ho with vecs := (s.request v r).ho.vecs } } := by
  unfold State.request
  dsimp only
  split
  · rfl
  · split <;> rfl

@[simp] theorem request_raw (v : Nat) (r : Stamp) : (s.request v r).raw = s.raw := by rw [request_eq]
@[simp] theorem request_variant (v : Nat) (r : Stamp) : (s.request v r).variant = s.variant := by rw [request_eq]
@[simp] theorem request_gradeI (v : Nat) (r : Stamp) : (s.request v r).gradeI = s.gradeI := by rw [request_eq]
@[simp] theorem request_tabs (v : Nat) (r : Stamp) : (s.request v r).tabs = s.tabs := by rw [request_eq]
@[simp] theorem request_lens (v : Nat) (r : Stamp) : (s.request v r).lens = s.lens := by rw [request_eq]
@[simp] theorem request_isl (v : Nat) (r : Stamp) : (s.request v r).isl = s.isl := by rw [request_eq]
@[simp] theorem request_fr (v : Nat) (r : Stamp) : (s.request v r).fr = s.fr := by rw [request_eq]
@[simp] theorem request_rg (v : Nat) (r : Stamp) : (s.request v r).rg = s.rg := by rw [request_eq]
@[simp] theorem request_tb (v : Nat) (r : Stamp) : (s.request v r).tb = s.tb := by rw [request_eq]
@[simp] theorem request_eg (v : Nat) (r : Stamp) : (s.request v r).eg = s.eg := by rw [request_eq]
@[simp] theorem request_tm (v : Nat) (r : Stamp) : (s.request v r).tm = s.tm := by rw [request_eq]
@[simp] theorem request_ln (v : Nat) (r : Stamp) : (s.request v r).ln = s.ln := by rw [request_eq]
@[simp] theorem request_mm (v : Nat) (r : Stamp) : (s.request v r).mm = s.mm := by rw [request_eq]
@[simp] theorem request_sy (v : Nat) (r : Stamp) : (s.request v r).sy = s.sy := by rw [request_eq]
@[simp] theorem request_ri (v : Nat) (r : Stamp) : (s.request v r).ri = s.ri := by rw [request_eq]
@[simp] theorem request_mv (v : Nat) (r : Stamp) : (s.request v r).mv = s.mv := by rw [request_eq]
@[simp] theorem request_co (v : Nat) (r : Stamp) : (s.request v r).co = s.co := by rw [request_eq]
@[simp] theorem request_mp (v : Nat) (r : Stamp) : (s.request v r).mp = s.mp := by rw [request_eq]
@[simp] theorem request_su (v : Nat) (r : Stamp) : (s.request v r).su = s.su := by rw [request_eq]
@[simp] theorem request_ag (v : Nat) (r : Stamp) : (s.request v r).ag = s.ag := by rw [request_eq]
@[simp] theorem request_answer (v : Nat) (r : Stamp) : (s.request v r).answer = s.answer := by rw [request_eq]
@[simp] theorem request_draws (v : Nat) (r : Stamp) : (s.request v r).draws = s.draws := by rw [request_eq]
@[simp] theorem request_pending (v : Nat) (r : Stamp) : (s.request v r).pending = s.pending := by rw [request_eq]
@[simp] theorem request_dict (v : Nat) (r : Stamp) : (s.request v r).dict = s.dict := by rw [request_eq]
@[simp] theorem request_nv (v : Nat) (r : Stamp) : (s.request v r).nv = s.nv := by rw [request_eq]
@[simp] theorem request_reg (v : Nat) (r : Stamp) (ix sub : Nat) : (s.request v r).reg ix sub = s.reg ix sub := by
  simp [State.reg]

/-- The elements an event may change (R424, R460). -/
def eventKeys : List Nat :=
  [dictKey Ix.eventNewest 0, dictKey Ix.eventOverrun 0, dictKey Ix.nvBytesWritten 0, dictKey Ix.eventLost 0,
    dictKey Ix.nvHoldOverflow 0, dictKey Ix.nvWritesHeld 0]

/-- The log takes an entry: only the log and three counters change. -/
theorem logEntry_eq (e : LogEntry) :
    s.logEntry e = { s with dict := (s.logEntry e).dict, nv := { s.nv with log := (s.logEntry e).nv.log } } := by
  unfold State.logEntry
  split
  · split
    · rfl
    · dsimp only; split <;> rfl
  · rfl

theorem reg_logEntry (e : LogEntry) (ix sub : Nat) (h : dictKey ix sub ∉ eventKeys) :
    (s.logEntry e).reg ix sub = s.reg ix sub := by
  simp only [eventKeys, List.mem_cons, not_or] at h
  unfold State.logEntry
  split
  · split
    · rfl
    · dsimp only
      split
      · rw [reg_count_ne _ _ _ _ _ _ h.2.2.1, reg_setReg_ne _ _ _ _ _ _ h.1, reg_count_ne _ _ _ _ _ _ h.2.1]; rfl
      · rw [reg_count_ne _ _ _ _ _ _ h.2.2.1, reg_setReg_ne _ _ _ _ _ _ h.1]; rfl
  · dsimp only
    rw [reg_count_ne _ _ _ _ _ _ h.2.2.1, reg_setReg_ne _ _ _ _ _ _ h.1]; rfl

/-- An event changes the log or the held events, six counters and the vectors, and nothing else. -/
theorem event_eq (c v i : Nat) (ps : List (Nat × Nat)) :
    s.event c v i ps =
      { s with
        dict := (s.event c v i ps).dict
        nv := { s.nv with log := (s.event c v i ps).nv.log, heldEvents := (s.event c v i ps).nv.heldEvents }
        ho := { s.ho with vecs := (s.event c v i ps).ho.vecs } } := by
  unfold State.event
  dsimp only
  split
  · split
    · split
      · rw [request_eq]; rfl
      · rfl
    · split
      · rw [request_eq]; rfl
      · rfl
  · split
    · rw [request_eq, logEntry_eq]
    · rw [logEntry_eq]

@[simp] theorem event_raw (c v i : Nat) (ps : List (Nat × Nat)) : (s.event c v i ps).raw = s.raw := by rw [event_eq]
@[simp] theorem event_variant (c v i : Nat) (ps : List (Nat × Nat)) : (s.event c v i ps).variant = s.variant := by rw [event_eq]
@[simp] theorem event_gradeI (c v i : Nat) (ps : List (Nat × Nat)) : (s.event c v i ps).gradeI = s.gradeI := by rw [event_eq]
@[simp] theorem event_tabs (c v i : Nat) (ps : List (Nat × Nat)) : (s.event c v i ps).tabs = s.tabs := by rw [event_eq]
@[simp] theorem event_lens (c v i : Nat) (ps : List (Nat × Nat)) : (s.event c v i ps).lens = s.lens := by rw [event_eq]
@[simp] theorem event_isl (c v i : Nat) (ps : List (Nat × Nat)) : (s.event c v i ps).isl = s.isl := by rw [event_eq]
@[simp] theorem event_fr (c v i : Nat) (ps : List (Nat × Nat)) : (s.event c v i ps).fr = s.fr := by rw [event_eq]
@[simp] theorem event_rg (c v i : Nat) (ps : List (Nat × Nat)) : (s.event c v i ps).rg = s.rg := by rw [event_eq]
@[simp] theorem event_tb (c v i : Nat) (ps : List (Nat × Nat)) : (s.event c v i ps).tb = s.tb := by rw [event_eq]
@[simp] theorem event_eg (c v i : Nat) (ps : List (Nat × Nat)) : (s.event c v i ps).eg = s.eg := by rw [event_eq]
@[simp] theorem event_tm (c v i : Nat) (ps : List (Nat × Nat)) : (s.event c v i ps).tm = s.tm := by rw [event_eq]
@[simp] theorem event_ln (c v i : Nat) (ps : List (Nat × Nat)) : (s.event c v i ps).ln = s.ln := by rw [event_eq]
@[simp] theorem event_mm (c v i : Nat) (ps : List (Nat × Nat)) : (s.event c v i ps).mm = s.mm := by rw [event_eq]
@[simp] theorem event_sy (c v i : Nat) (ps : List (Nat × Nat)) : (s.event c v i ps).sy = s.sy := by rw [event_eq]
@[simp] theorem event_ri (c v i : Nat) (ps : List (Nat × Nat)) : (s.event c v i ps).ri = s.ri := by rw [event_eq]
@[simp] theorem event_mv (c v i : Nat) (ps : List (Nat × Nat)) : (s.event c v i ps).mv = s.mv := by rw [event_eq]
@[simp] theorem event_co (c v i : Nat) (ps : List (Nat × Nat)) : (s.event c v i ps).co = s.co := by rw [event_eq]
@[simp] theorem event_mp (c v i : Nat) (ps : List (Nat × Nat)) : (s.event c v i ps).mp = s.mp := by rw [event_eq]
@[simp] theorem event_su (c v i : Nat) (ps : List (Nat × Nat)) : (s.event c v i ps).su = s.su := by rw [event_eq]
@[simp] theorem event_ag (c v i : Nat) (ps : List (Nat × Nat)) : (s.event c v i ps).ag = s.ag := by rw [event_eq]
@[simp] theorem event_answer (c v i : Nat) (ps : List (Nat × Nat)) : (s.event c v i ps).answer = s.answer := by rw [event_eq]
@[simp] theorem event_draws (c v i : Nat) (ps : List (Nat × Nat)) : (s.event c v i ps).draws = s.draws := by rw [event_eq]
@[simp] theorem event_pending (c v i : Nat) (ps : List (Nat × Nat)) : (s.event c v i ps).pending = s.pending := by rw [event_eq]

/-- An event leaves every element but six. -/
theorem reg_event (c v i : Nat) (ps : List (Nat × Nat)) (ix sub : Nat) (h : dictKey ix sub ∉ eventKeys) :
    (s.event c v i ps).reg ix sub = s.reg ix sub := by
  have h' := h
  simp only [eventKeys, List.mem_cons, not_or] at h'
  unfold State.event
  dsimp only
  split
  · split
    · split <;> simp [reg_count_ne _ _ _ _ _ _ h'.2.2.2.2.1, reg_count_ne _ _ _ _ _ _ h'.2.2.2.1]
    · split <;> simp [reg_setReg_ne _ _ _ _ _ _ h'.2.2.2.2.2.1] <;> rfl
  · split <;> simp [reg_logEntry _ _ _ _ h]

@[simp] theorem event_record (c v i : Nat) (ps : List (Nat × Nat)) (ix sub n : Nat) :
    (s.event c v i ps).record ix sub n = s.record ix sub n := by simp [State.record]

end Sys2Proof.Laws
end

