-- ==== Sys2Proof/Laws/Ops.lean ====
section
/-! SUPPORT. What shared operations can do, each said once: the parts of the state they may change, and the elements. -/

namespace Sys2Proof.Laws
open Sys2Proof.Machine

/-- Ending a lane's idle guard touches the lanes and one status word. -/
theorem endGuard_spec (s : State) (l : Nat) :
    ∃ d n, s.endGuard l = { s with dict := d, ln := n } ∧ s.regsBut (s.endGuard l) [dictKey Ix.laneStatus (l + 1)] := by
  unfold State.endGuard
  dsimp only
  split
  · refine ⟨_, _, rfl, fun ix sub h => ?_⟩
    unfold State.setLaneStatus
    rw [reg_setReg_ne _ _ _ _ _ _ (by simpa using h)]; rfl
  · exact ⟨_, _, rfl, fun _ _ _ => rfl⟩

theorem laneDataFold_spec (r : Stamp) (L : List Nat) (s : State) :
    ∃ d n, L.foldl (fun t l => (t.endGuard l).setLane l { (t.endGuard l).lane l with lastData := r }) s = { s with dict := d, ln := n } ∧
      s.regsBut (L.foldl (fun t l => (t.endGuard l).setLane l { (t.endGuard l).lane l with lastData := r }) s)
        (L.map fun l => dictKey Ix.laneStatus (l + 1)) := by
  induction L generalizing s with
  | nil => exact ⟨_, _, rfl, fun _ _ _ => rfl⟩
  | cons l L ih =>
    simp only [List.foldl_cons]
    obtain ⟨d, n, hg, hk⟩ := endGuard_spec s l
    obtain ⟨d', n', h1, h2⟩ := ih ((s.endGuard l).setLane l { (s.endGuard l).lane l with lastData := r })
    refine ⟨d', n', ?_, fun ix sub h => ?_⟩
    · rw [h1, hg]; rfl
    · simp only [List.map_cons, List.mem_cons, not_or] at h
      rw [h2 ix sub h.2]
      simp [hk ix sub (by simpa using h.1)]

/-- Frame data at a port touches its lanes and their status words. -/
theorem laneData_spec (s : State) (p : Nat) :
    ∃ d n, s.laneData p = { s with dict := d, ln := n } ∧
      s.regsBut (s.laneData p) ((s.portLanes p).map fun l => dictKey Ix.laneStatus (l + 1)) :=
  laneDataFold_spec s.rawTotal (s.portLanes p) s

/-- The handle a first cell creates (R68, R72, R73). -/
theorem createHandle_pkt (s : State) (p : Packet) :
    (s.createHandle p).pkt? s.fr.nextPkt = some
      { p with
        home := s.homeSector p.src
        domain := s.domainOf p.src p.cls p.chan p.window (s.reg Ix.rtagEthertype 0)
        domSeq := (s.orderDomain (s.domainOf p.src p.cls p.chan p.window (s.reg Ix.rtagEthertype 0))).nextSeq
        rtag := s.reg Ix.rtagEthertype 0
        epoch := s.reg Ix.programEpoch 0
        orderGen := tgetD s.fr.orderGens p.src 0
        stage := .dispatchList
        flowHash := if p.src < 512 then flowHash (s.reg Ix.rtagEthertype 0) (s.reg Ix.flowHashFields (p.src + 1)) p.window
          else crc32c [] } := by
  simp [State.pkt?, State.createHandle, State.setOrderDomain, State.setPkt]

/-- A created handle changes the frame unit only. -/
theorem createHandle_eq (s : State) (p : Packet) : s.createHandle p = { s with fr := (s.createHandle p).fr } := rfl

end Sys2Proof.Laws
end

