-- ==== Sys2Proof/Laws/Frames.lean ====
section
/-! SUPPORT. What failing a frame, freeing its cells, stopping a rig's awls and showing a fault can do, each said once. -/

namespace Sys2Proof.Laws
open Sys2Proof.Machine

/-- Freeing a cell touches the cells, the quarantine count and the log, and no packet or receive frame (R54). -/
theorem freeCell_spec (s : State) (c : Nat) :
    (s.freeCell c).fr.pkts = s.fr.pkts ∧ (s.freeCell c).fr.rx = s.fr.rx ∧
    ∀ ix sub, dictKey ix sub ≠ dictKey Ix.bufferQuarantined 0 → dictKey ix sub ∉ eventKeys →
      (s.freeCell c).reg ix sub = s.reg ix sub := by
  unfold State.freeCell
  dsimp only
  split
  · split
    · exact ⟨rfl, rfl, fun ix sub h1 h2 => by rw [reg_setReg_ne _ _ _ _ _ _ h1]; rfl⟩
    · refine ⟨by rw [event_fr], by rw [event_fr], fun ix sub h1 h2 => ?_⟩
      rw [reg_event _ _ _ _ _ _ _ h2]; rfl
  · exact ⟨rfl, rfl, fun _ _ _ _ => rfl⟩

/-- The same of a list of cells. -/
theorem freeCells_spec (l : List Nat) (s : State) :
    (l.foldl State.freeCell s).fr.pkts = s.fr.pkts ∧ (l.foldl State.freeCell s).fr.rx = s.fr.rx ∧
    ∀ ix sub, dictKey ix sub ≠ dictKey Ix.bufferQuarantined 0 → dictKey ix sub ∉ eventKeys →
      (l.foldl State.freeCell s).reg ix sub = s.reg ix sub := by
  induction l generalizing s with
  | nil => exact ⟨rfl, rfl, fun _ _ _ _ => rfl⟩
  | cons a l ih =>
    have h := freeCell_spec s a
    have g := ih (s.freeCell a)
    simp only [List.foldl_cons]
    exact ⟨g.1.trans h.1, g.2.1.trans h.2.1, fun ix sub h1 h2 => (g.2.2 ix sub h1 h2).trans (h.2.2 ix sub h1 h2)⟩

/-- Reaping a packet that has not retired may free its cells and its reservation, and changes nothing else of it. -/
theorem reap_spec (s : State) (h : Nat) (p : Packet) (hp : s.pkt? h = some p) (hs : p.stage ≠ .retired) :
    (∃ cs r, (s.reap h).pkt? h = some { p with cells := cs, reserved := r }) ∧ (s.reap h).fr.rx = s.fr.rx ∧
    ∀ ix sub, dictKey ix sub ≠ dictKey Ix.bufferQuarantined 0 → dictKey ix sub ∉ eventKeys →
      (s.reap h).reg ix sub = s.reg ix sub := by
  unfold State.reap
  simp only [hp]
  split
  · have g := freeCells_spec p.cells (s.setPkt h { p with cells := [], reserved := 0 })
    rw [if_neg (by simp [hs])]
    refine ⟨⟨[], 0, ?_⟩, g.2.1, fun ix sub h1 h2 => g.2.2 ix sub h1 h2⟩
    show tget _ h = _
    rw [g.1]; simp [State.setPkt]
  · exact ⟨⟨p.cells, p.reserved, hp⟩, rfl, fun _ _ _ _ => rfl⟩

/-- A frame that fails (R49, R58): its packet is failed and ended, waits for no queue, and keeps its stage, bytes and length; beside it
only the quarantine count and the log may change. -/
theorem failFrame_spec (s : State) (h : Nat) (p : Packet) (hp : s.pkt? h = some p) (hs : p.stage ≠ .retired) :
    (∃ k, (s.failFrame h).pkt? h = some k ∧ k.failed = true ∧ k.ended = true ∧
      k.accepted = p.accepted ∧ k.toEnqueue = [] ∧ k.stage = p.stage ∧ k.bytes = p.bytes ∧ k.len = p.len) ∧
    (s.failFrame h).fr.rx = s.fr.rx ∧
    ∀ ix sub, dictKey ix sub ≠ dictKey Ix.bufferQuarantined 0 → dictKey ix sub ∉ eventKeys →
      (s.failFrame h).reg ix sub = s.reg ix sub := by
  unfold State.failFrame
  simp only [hp, hs, if_false]
  generalize hx : ({ p with
      failed := true, failedAt := s.raw, ended := true, windowDone := true, reserved := 0, returned := true
      cells := p.cells.take p.storedCells, toEnqueue := [], admitted := [] } : Packet) = x
  have g := reap_spec (s.setPkt h x) h x (by simp [State.pkt?, State.setPkt]) (by rw [← hx]; exact hs)
  obtain ⟨⟨cs, r, h1⟩, h2, h3⟩ := g
  refine ⟨⟨_, h1, ?_⟩, h2, h3⟩
  rw [← hx]; exact ⟨rfl, rfl, rfl, rfl, rfl, rfl, rfl⟩

/-- A change of a handle that exists is a write of it. -/
theorem modPkt_some (s : State) (h : Nat) (p : Packet) (f) (hp : s.pkt? h = some p) : s.modPkt h f = s.setPkt h (f p) := by
  unfold State.modPkt; rw [hp]

/-- A receive failure of a frame without a handle counts it and marks the frame (R36). -/
theorem rxFails_none (s : State) (key : Nat) (r : RxFrame) (c len : Nat) (h : r.pkt = none) :
    s.rxFails key r c len = (s.count c (key % 512 + 1) 1).setRx key { r with failed := true } := by
  simp [State.rxFails, h]

/-- A receive failure of a frame with a handle counts it, marks the frame and fails its packet (R36, R49). -/
theorem rxFails_some (s : State) (key : Nat) (r : RxFrame) (c len h : Nat) (p : Packet) (hr : r.pkt = some h) (hp : s.pkt? h = some p)
    (hs : p.stage ≠ .retired) :
    (∃ k, (s.rxFails key r c len).pkt? h = some k ∧ k.failed = true ∧ k.ended = true ∧
      k.accepted = p.accepted ∧ k.toEnqueue = [] ∧ k.stage = p.stage ∧ k.bytes = p.bytes ∧ k.len = len) ∧
    (s.rxFails key r c len).rxFrame? key = some { r with failed := true } ∧
    ∀ ix sub, dictKey ix sub ≠ dictKey Ix.bufferQuarantined 0 → dictKey ix sub ∉ eventKeys →
      (s.rxFails key r c len).reg ix sub = (s.count c (key % 512 + 1) 1).reg ix sub := by
  have e : s.rxFails key r c len = (((s.count c (key % 512 + 1) 1).setRx key
      { r with failed := true }).setPkt h { p with len := len }).failFrame h := by
    simp only [State.rxFails, hr]
    rw [modPkt_some _ _ p]; exact hp
  rw [e]
  obtain ⟨h1, h2, h3⟩ := failFrame_spec
    (((s.count c (key % 512 + 1) 1).setRx key { r with failed := true }).setPkt h { p with len := len }) h
    { p with len := len } (by simp [State.pkt?, State.setPkt]) hs
  refine ⟨h1, ?_, fun ix sub ha hb => (h3 ix sub ha hb).trans rfl⟩
  show tget _ key = _
  rw [h2]; simp [State.setPkt, State.setRx]

/-- Changing packets changes no object, island, rig or identity. -/
theorem modFold_keep (g : Packet → Packet) (l : List Nat) (s : State) :
    (l.foldl (fun t h => t.modPkt h g) s).dict = s.dict ∧ (l.foldl (fun t h => t.modPkt h g) s).isl = s.isl ∧
    (l.foldl (fun t h => t.modPkt h g) s).rg = s.rg ∧ (l.foldl (fun t h => t.modPkt h g) s).variant = s.variant ∧
    (l.foldl (fun t h => t.modPkt h g) s).gradeI = s.gradeI := by
  induction l generalizing s with
  | nil => simp
  | cons a l ih =>
    have e : (s.modPkt a g).dict = s.dict ∧ (s.modPkt a g).isl = s.isl ∧ (s.modPkt a g).rg = s.rg ∧
        (s.modPkt a g).variant = s.variant ∧ (s.modPkt a g).gradeI = s.gradeI := by
      unfold State.modPkt; split <;> simp [State.setPkt]
    have := ih (s.modPkt a g)
    simp only [List.foldl_cons]
    rw [this.1, this.2.1, this.2.2.1, this.2.2.2.1, this.2.2.2.2]; exact e

/-- Stopping a rig's awls changes one count among the objects (R97). -/
theorem stopAwls_reg (s : State) (r ix sub : Nat) (h : dictKey ix sub ≠ dictKey Ix.handlesRedispatched (r + 1)) :
    (s.stopAwls r).reg ix sub = s.reg ix sub := by
  unfold State.stopAwls
  dsimp only
  generalize hl : List.map Prod.fst _ = l
  have k := modFold_keep (fun p : Packet => { p with stage := .rigQueue r, redispatched := true }) l s
  generalize List.foldl _ s l = u at k ⊢
  show State.reg (State.count _ _ _ _) ix sub = _
  rw [reg_count_ne _ _ _ _ _ _ h]
  show State.reg u ix sub = _
  unfold State.reg
  rw [k.1, k.2.2.2.1, k.2.2.2.2]

/-- Stopping a rig's awls leaves the islands. -/
theorem stopAwls_isl (s : State) (r : Nat) : (s.stopAwls r).isl = s.isl := by
  unfold State.stopAwls
  dsimp only
  generalize hl : List.map Prod.fst _ = l
  have k := modFold_keep (fun p : Packet => { p with stage := .rigQueue r, redispatched := true }) l s
  generalize List.foldl _ s l = u at k ⊢
  exact k.2.1

/-- No awl of a stopped rig holds a packet (R97). -/
theorem stopAwls_awls (s : State) (r : Nat) : ∀ e ∈ (s.stopAwls r).rg.awls, e.1 / 256 = r → e.2.pkt = none := by
  unfold State.stopAwls
  dsimp only
  intro e he h
  simp only [List.mem_map] at he
  obtain ⟨x, hx, rfl⟩ := he
  by_cases hq : x.1 / 256 = r
  · simp [hq]
  · simp [hq] at h

/-- Showing the faulted part changes two objects at most (R192, R198). -/
theorem showFault_reg (s : State) (ix sub : Nat) (h1 : dictKey ix sub ≠ dictKey Ix.guaranteeFaultPart 0)
    (h2 : dictKey ix sub ≠ dictKey Ix.guaranteeState 0) : s.showFault.reg ix sub = s.reg ix sub := by
  simp only [State.showFault]
  split
  · exact reg_setReg_ne _ _ _ _ _ _ h1
  · rw [reg_setReg_ne _ _ _ _ _ _ h2, reg_setReg_ne _ _ _ _ _ _ h1]

end Sys2Proof.Laws
end

