-- ==== Sys2Proof/Laws/Awl.lean ====
section
/-! SUPPORT. What running one instruction of an awl can do, once for every instruction (R83 to R85, R104, R109, R112). -/

namespace Sys2Proof.Laws
open Sys2Proof.Machine

/-- A write of register d takes the value, unless d is g0 (R104). -/
theorem setG_takes (a : Awl) (d : BitVec 5) (v : Word) : a.takes (a.setG d v) d v := by
  by_cases h : d = 0
  · unfold Awl.takes Awl.setG; rw [if_pos h, if_pos h]; exact ⟨by unfold Awl.g; rw [if_pos h], fun _ _ => rfl⟩
  · unfold Awl.takes Awl.setG Awl.g
    rw [if_neg h, if_neg h, if_neg h]
    refine ⟨by simp, fun r hr => ?_⟩
    have : r.toNat ≠ d.toNat := fun e => hr (BitVec.eq_of_toNat_eq e)
    rw [tgetD_tput_ne _ _ _ _ this]

/-- A register write changes the registers only. -/
theorem setG_eq (a : Awl) (d : BitVec 5) (v : Word) : a.setG d v = { a with regs := (a.setG d v).regs } := by
  unfold Awl.setG; split <;> rfl

/-- A register write takes no clocks of its own. -/
theorem setG_cycles (a : Awl) (d v) : (a.setG d v).cycles = a.cycles := by rw [setG_eq]

/-- A write of one awl leaves the others and the rest of the state. -/
theorem onlyAwl_setAwl (s : State) (w : Nat) (x) : s.onlyAwl (s.setAwl w x) w := ⟨fun _ hv => awl_setAwl_ne _ _ _ hv, rfl⟩

/-- The same of the awl moved past its instruction. -/
theorem awlNext_setG_takes (s : State) (w k : Nat) (d v) : (s.awl w).takes ((s.awlNext w k).setG d v) d v := by
  have := setG_takes (s.awlNext w k) d v
  exact ⟨this.1, fun r hr => (this.2 r hr)⟩

/-- What a ready awl's instruction does when its body answers: the awl and the body's state, within the limit (R85, R112). -/
theorem runAwl_next {s : State} {op u w o k kk} {body} {h p s1 a2} (hr : s.awlReady w op o u kk h p)
   (hb : body s p (s.awlNext w k) = some (s1, a2))
   (hc : a2.cycles = (s.awl w).cycles + kk) (hd : s1.draws = s.draws := by rfl) :
   s.runAwl op u w o k body = .next (s1.setAwl w a2) := by
  obtain ⟨h1, h2, h3, h4⟩ := hr
  simp only [State.runAwl, h1, h2, h3]
  simp only [Bool.true_eq_false, if_false]
  have : body s p { s.awl w with pc := (s.awl w).pc + 1, cycles := (s.awl w).cycles + k } = some (s1, a2) := hb
  rw [this]
  simp only [hd, State.withinLimit]
  rw [if_neg]
  show ¬ s.watchdogLimit w < _
  omega

/-- A ready instruction whose body writes register d. -/
theorem runAwl_setG {s : State} {op u w o k} {body} {h p} {d v} (hr : s.awlReady w op o u k h p)
   (hb : body s p (s.awlNext w k) = some (s, (s.awlNext w k).setG d v)) :
   ∃ t : State, s.runAwl op u w o k body = .next t ∧ s.onlyAwl t w ∧ (s.awl w).takes (t.awl w) d v ∧
      t.awl w = { s.awlNext w k with regs := (t.awl w).regs } := by
  refine ⟨_, runAwl_next hr hb (by rw [setG_cycles]; rfl), onlyAwl_setAwl _ _ _, ?_, ?_⟩
  · rw [awl_setAwl_same]; exact awlNext_setG_takes _ _ _ _ _
  · rw [awl_setAwl_same]; exact setG_eq _ _ _

/-- The same of a table read, whose stall the body draws: beyond the limit it has no effect but the clocks (R85, R111). -/
theorem runAwl_stall {s : State} {op u w o n} {body} {h p s1 a2} (hr : s.awlReady w op o u 0 h p) (hb : body s p (s.awlNext w 0) = some (s1, a2))
   (hc : a2.cycles = (s.awl w).cycles + n) (hd : s1.draws = s.draws + 2) :
   s.runAwl op u w o 0 body = .next (if s.watchdogLimit w < (s.awl w).cycles + n then
          ({ s with draws := s.draws + 2 } : State).setAwl w { s.awl w with cycles := s.watchdogLimit w + 1 } else s1.setAwl w a2) := by
  obtain ⟨h1, h2, h3, h4⟩ := hr
  simp only [State.runAwl, h1, h2, h3]
  simp only [Bool.true_eq_false, if_false]
  have : body s p { s.awl w with pc := (s.awl w).pc + 1, cycles := (s.awl w).cycles + 0 } = some (s1, a2) := hb
  rw [this]
  simp only [hd, State.withinLimit, hc]
  rfl

/-- An instruction with a non-zero field that it does not use is a program fault (R109). -/
theorem runAwl_fault {s : State} {op u w o k} {body} {h p} (hs : s.sectorPresent (w / 256) = true) (ha : s.awlAt w (awlWord op o) = some (h, p))
   (hl : (s.awl w).cycles + k ≤ s.watchdogLimit w) (hu : usesOk u o = false) :
   s.runAwl op u w o k body = .next (s.programFault w h p ((s.awl w).cycles + k)) := by
  simp only [State.runAwl, hs, ha, hu]
  simp only [Bool.true_eq_false, if_false, if_true, State.withinLimit]
  rw [if_neg (by omega)]

/-- An awl that runs an instruction word holds its packet, and its program is no default bridge. -/
theorem awlAt_pkt {s : State} {w word h p} (h2 : s.awlAt w word = some (h, p)) : s.pkt? h = some p ∧ s.bridgeAt w = none := by
  unfold State.awlAt at h2
  split at h2
  · cases h2
  · rename_i hrun
    split at h2
    · cases h2
    · rename_i h' e1
      split at h2
      · cases h2
      · rename_i p' e2
        split at h2
        · rename_i hh
          cases h2
          exact ⟨e2, by simp [State.bridgeAt, hrun, e1, e2, hh.1]⟩
        · cases h2

/-- A program fault (R83, R84): counted, logged, the awl freed, and the packet with its keeper as a program drop. -/
theorem programFault_spec (s : State) (w h : Nat) (p : Packet) (n : Nat) (hp : s.pkt? h = some p) (r : Result)
   (hr : r = { window := p.window, copies := [], effects := [], splitFn := none, police := 0, rxChan := 0, outcome := 3,
                cycles := n, rig := w / 256, awl := w % 256, arrived := s.raw }) :
   ∃ u : State, s.programFault w h p n = u.event Ix.programFaultCount 2 48 [(2, p.src), (4, p.domSeq)] ∧ u.awl w = {} ∧
      u.pkt? h = some { p with stage := .atKeeper, result := some r } ∧
      u.reg Ix.programFaultCount (p.home + 1) = (s.reg Ix.programFaultCount (p.home + 1) + 1) % 18446744073709551616 ∧
      s.regsBut u [dictKey Ix.programFaultCount (p.home + 1)] := by
  subst hr
  have hpk : ∀ f ix sub, (s.modPkt h f).reg ix sub = s.reg ix sub := by intro f ix sub; unfold State.modPkt; split <;> simp
  refine ⟨s.giveResult w h (s.dropResult p 3 (w / 256) (w % 256) n) |>.count Ix.programFaultCount (p.home + 1) 1, rfl, ?_, ?_, ?_, ?_⟩
  · exact awl_setAwl_same _ _ _
  · show (s.modPkt h _).pkt? h = _
    rw [modPkt_some _ _ p _ hp]
    simp [State.pkt?, State.setPkt, State.dropResult]
  · simp [State.giveResult, hpk, wrapAdd]
  · intro ix sub hn; simp only [List.mem_singleton] at hn; rw [reg_count_ne _ _ _ _ _ _ hn]; simp [State.giveResult, hpk]

end Sys2Proof.Laws
end

