-- ==== Sys2Proof/Laws/Memory.lean ====
section
/-! SUPPORT. Memory: a read after a write, what a store leaves, and the canonical form every memory operation keeps. -/

namespace Sys2Proof.Laws
open Sys2Proof.Machine

theorem memWf_iff (m : List Host.Cell) :
    Memory.wf m = true ↔ tsorted m = true ∧ ∀ e ∈ m, e.2 ≠ memDefault := by
  simp [Memory.wf]

@[simp] theorem memRead_memWrite_same (m : List Host.Cell) (a : Nat) (b : Byte) : memRead (memWrite m a b) a = b := by
  simp [memRead, memWrite]

theorem memRead_memWrite_ne (m : List Host.Cell) {a a' : Nat} (b : Byte) (h : a' ≠ a) :
    memRead (memWrite m a b) a' = memRead m a' := by
  simp [memRead, memWrite, tgetD_tput_ne _ _ _ _ h]

theorem memWrite_wf (m : List Host.Cell) (a : Nat) (b : Byte) (h : Memory.wf m = true) : Memory.wf (memWrite m a b) = true := by
  rw [memWf_iff] at h ⊢
  exact tput_keeps _ _ _ _ h.1 h.2

theorem memStore_wf (bs : List Byte) (m : List Host.Cell) (a : Nat) (h : Memory.wf m = true) :
    Memory.wf (memStore m a bs) = true := by
  induction bs generalizing m a with
  | nil => exact h
  | cons b bs ih => exact ih _ _ (memWrite_wf m a b h)

/-- Removing entries keeps the canonical form. -/
theorem filter_wf (m : List Host.Cell) (p : Host.Cell → Bool) (h : Memory.wf m = true) : Memory.wf (m.filter p) = true := by
  rw [memWf_iff] at h ⊢
  refine ⟨?_, fun e he => h.2 e (List.mem_filter.mp he).1⟩
  have h1 := h.1
  clear h
  induction m with
  | nil => simp [tsorted]
  | cons e m ih =>
    obtain ⟨j, w⟩ := e
    rw [tsorted_cons] at h1
    by_cases hp : p (j, w) = true
    · rw [List.filter_cons_of_pos hp, tsorted_cons]
      exact ⟨fun x hx => h1.1 x (List.mem_filter.mp hx).1, ih h1.2⟩
    · rw [List.filter_cons_of_neg hp]
      exact ih h1.2

/-- A byte below the stored bytes or above them reads as before. -/
theorem memRead_memStore_outside (bs : List Byte) (m : List Host.Cell) (a x : Nat) (h : x < a ∨ a + bs.length ≤ x) :
    memRead (memStore m a bs) x = memRead m x := by
  induction bs generalizing m a with
  | nil => rfl
  | cons b bs ih =>
    simp only [List.length_cons] at h
    rw [memStore, ih _ _ (by omega), memRead_memWrite_ne m b (by omega)]

/-- A stored byte reads back. -/
theorem memRead_memStore_inside (bs : List Byte) (m : List Host.Cell) (a i : Nat) (h : i < bs.length) :
    memRead (memStore m a bs) (a + i) = bs[i] := by
  induction bs generalizing m a i with
  | nil => simp at h
  | cons b bs ih =>
    cases i with
    | zero =>
      rw [memStore, memRead_memStore_outside _ _ _ _ (by omega)]
      simp
    | succ i =>
      have := ih (memWrite m a b) (a + 1) i (by simpa using h)
      rw [memStore]
      rw [show a + (i + 1) = a + 1 + i by omega, this]
      simp

theorem memBytes_length (m : List Host.Cell) (a n : Nat) : (memBytes m a n).length = n := by simp [memBytes]

/-- Reading what was stored gives it back. -/
theorem memBytes_memStore (bs : List Byte) (m : List Host.Cell) (a : Nat) : memBytes (memStore m a bs) a bs.length = bs := by
  apply List.ext_getElem
  · simp [memBytes]
  · intro i h1 h2
    simp only [memBytes, List.getElem_map, List.getElem_range]
    exact memRead_memStore_inside bs m a i h2


/-- A noted codeword changes neither memory's bytes. -/
theorem noteWord_bytes (a n : Nat) (s : State) (w : Nat) :
    (s.noteWord a n w).mm.host = s.mm.host ∧ (s.noteWord a n w).mm.lpddr = s.mm.lpddr := by
  unfold State.noteWord
  dsimp only
  split
  · exact ⟨rfl, rfl⟩
  · split <;> exact ⟨rfl, rfl⟩

theorem noteWords_bytes (a n : Nat) (ws : List Nat) (s : State) :
    (ws.foldl (State.noteWord a n) s).mm.host = s.mm.host ∧ (ws.foldl (State.noteWord a n) s).mm.lpddr = s.mm.lpddr := by
  induction ws generalizing s with
  | nil => exact ⟨rfl, rfl⟩
  | cons w ws ih =>
    have h := ih (s.noteWord a n w)
    have h' := noteWord_bytes a n s w
    exact ⟨h.1.trans h'.1, h.2.trans h'.2⟩

theorem store_host (s : State) (a : Nat) (bs : List Byte) :
    (s.store a bs).mm.host = if isLpddr a then s.mm.host else memStore s.mm.host (spaceAddr a) bs := by
  unfold State.store
  split
  · exact (noteWords_bytes _ _ _ _).1
  · rfl

theorem store_lpddr (s : State) (a : Nat) (bs : List Byte) :
    (s.store a bs).mm.lpddr = if isLpddr a then memStore s.mm.lpddr (spaceAddr a) bs else s.mm.lpddr := by
  unfold State.store
  split
  · exact (noteWords_bytes _ _ _ _).2
  · rfl

/-- A store keeps both memories in canonical form. -/
theorem store_wf (s : State) (a : Nat) (bs : List Byte) (hh : Memory.wf s.mm.host = true) (hl : Memory.wf s.mm.lpddr = true) :
    Memory.wf (s.store a bs).mm.host = true ∧ Memory.wf (s.store a bs).mm.lpddr = true := by
  rw [store_host, store_lpddr]
  constructor
  · split
    · exact hh
    · exact memStore_wf _ _ _ hh
  · split
    · exact memStore_wf _ _ _ hl
    · exact hl

/-- Reset's memories list nothing. -/
theorem reset_memory_wf : Memory.wf State.reset.mm.host = true ∧ Memory.wf State.reset.mm.lpddr = true := ⟨rfl, rfl⟩

end Sys2Proof.Laws
end

