-- ==== Sys2Proof/Laws/Records.lean ====
section
/-! SUPPORT. Fields of TABLE records: a field written reads back, and fields that do not meet it stay. -/

namespace Sys2Proof.Laws
open Sys2Proof.Machine

theorem field_split (old A B v : Nat) :
    old - (old / A % B) * A + (v % B) * A = (old / A / B * B + v % B) * A + old % A := by
  have h1 := Nat.div_add_mod old A
  have h2 := Nat.div_add_mod (old / A) B
  have h3 : old = (B * (old / A / B) + old / A % B) * A + old % A := by rw [h2, Nat.mul_comm]; exact h1.symm
  have h4 : (old / A % B) * A ≤ old := by rw [Nat.add_mul] at h3; omega
  have h5 : old - (old / A % B) * A = B * (old / A / B) * A + old % A := by rw [Nat.add_mul] at h3; omega
  rw [h5, Nat.add_mul, Nat.mul_comm B]; omega

theorem field_same (old A B v : Nat) (hA : 0 < A) :
    (old - (old / A % B) * A + (v % B) * A) / A % B = v % B := by
  rw [field_split, Nat.mul_comm, Nat.mul_add_div hA, Nat.div_eq_of_lt (Nat.mod_lt _ hA), Nat.add_zero, Nat.mul_comm,
    Nat.mul_add_mod, Nat.mod_mod]

theorem field_below (old i n v j m : Nat) (h : j + m ≤ i) :
    (old - (old / 256 ^ i % 256 ^ n) * 256 ^ i + (v % 256 ^ n) * 256 ^ i) / 256 ^ j % 256 ^ m = old / 256 ^ j % 256 ^ m := by
  obtain ⟨k, rfl⟩ := Nat.exists_eq_add_of_le h
  rw [field_split]
  have e : (256 : Nat) ^ (j + m + k) = 256 ^ j * (256 ^ m * 256 ^ k) := by rw [Nat.pow_add, Nat.pow_add, Nat.mul_assoc]
  have hj : (0 : Nat) < 256 ^ j := Nat.pow_pos (by omega)
  have h2 : old = (old / 256 ^ (j + m + k)) * 256 ^ (j + m + k) + old % 256 ^ (j + m + k) := by rw [Nat.mul_comm]; exact (Nat.div_add_mod _ _).symm
  have key : ∀ X r : Nat, (X * 256 ^ (j + m + k) + r) / 256 ^ j % 256 ^ m = r / 256 ^ j % 256 ^ m := by
    intro X r
    rw [e, show X * (256 ^ j * (256 ^ m * 256 ^ k)) = 256 ^ j * (256 ^ m * (256 ^ k * X)) by simp only [Nat.mul_comm, Nat.mul_left_comm], Nat.mul_add_div hj, Nat.mul_add_mod]
  rw [key]
  conv => rhs; rw [h2]
  rw [key]

theorem field_above (old i n v j m : Nat) (h : i + n ≤ j) :
    (old - (old / 256 ^ i % 256 ^ n) * 256 ^ i + (v % 256 ^ n) * 256 ^ i) / 256 ^ j % 256 ^ m = old / 256 ^ j % 256 ^ m := by
  obtain ⟨k, rfl⟩ := Nat.exists_eq_add_of_le h
  have hA : (0 : Nat) < 256 ^ i := Nat.pow_pos (by omega)
  have hB : (0 : Nat) < 256 ^ n := Nat.pow_pos (by omega)
  rw [field_split]
  have e : (256 : Nat) ^ (i + n + k) = 256 ^ i * 256 ^ n * 256 ^ k := by rw [Nat.pow_add, Nat.pow_add]
  rw [e, ← Nat.div_div_eq_div_mul, ← Nat.div_div_eq_div_mul, ← Nat.div_div_eq_div_mul, ← Nat.div_div_eq_div_mul]
  congr 2
  rw [Nat.mul_comm (_ + _) (256 ^ i), Nat.mul_add_div hA, Nat.div_eq_of_lt (Nat.mod_lt _ hA), Nat.add_zero, Nat.mul_comm (old / 256 ^ i / 256 ^ n), Nat.mul_add_div hB, Nat.div_eq_of_lt (Nat.mod_lt _ hB), Nat.add_zero]

theorem recField_setRecField_same (s : State) (idx sub r i n v : Nat) :
    (s.setRecField idx sub r i n v).recField idx sub r i n = v % 256 ^ n := by
  unfold State.recField State.setRecField; rw [record_setRecord_same]
  exact field_same _ _ _ _ (Nat.pow_pos (by omega))

theorem recField_setRecField_ne (s : State) (idx sub r i n v j m : Nat) (h : j + m ≤ i ∨ i + n ≤ j) :
    (s.setRecField idx sub r i n v).recField idx sub r j m = s.recField idx sub r j m := by
  unfold State.recField State.setRecField; rw [record_setRecord_same]
  rcases h with h | h
  · exact field_below _ _ _ _ _ _ h
  · exact field_above _ _ _ _ _ _ h

end Sys2Proof.Laws
end

