-- ==== Sys2Proof/Tests/Slice0.lean ====
section
/-! SUPPORT. Tests: worked examples of the spec, what WellFormed refuses, and for each clause of a statement a state and operands
that meet its hypotheses. -/

set_option linter.unusedVariables false
set_option Elab.async false

open Sys2Proof Sys2Proof.Machine

namespace Sys2Proof.Tests

/-- `s` with the listed elements (index, subindex, value) set. -/
def regs (s : State) (l : List (Nat × Nat × Nat)) : State := l.foldl (fun t e => t.setReg e.1 e.2.1 e.2.2) s

/-- A device out of reset in operation, with the listed islands running. -/
def up (islands : List Nat) : State :=
  regs { State.reset with sy := { hold := none } } ((Ix.startPhase, 0, 3) :: islands.map fun i => (Ix.islandState, i + 1, 3))

/-- `s` at raw time `t`. -/
def at_ (s : State) (t : Raw) : State := { s with raw := t }

/-- Port `p` up in mode 2, its lane in UP and its port island running. -/
def upPort (s : State) (p : Nat) : State :=
  regs s [(Ix.portMode, p + 1, 2), (Ix.laneState, p + 1, 4), (Ix.islandState, 17 + p / 32, 3)]

/-- An accepted frame of 64 zero bytes from source `src`, dispatched to sector `home`. -/
def packet (src home : Nat) (stage : Stage) : Packet where
  src := src
  cls := 0
  preempt := false
  chan := 0xFFFF
  unit := 0
  home := home
  bytes := List.replicate 64 0
  ended := true
  len := 64
  ts := 0
  windowDone := true
  cells := [0]
  account := 0
  reserved := 1
  guarded := false
  returned := false
  domain := 0
  domSeq := 0
  rtag := 0xF1C1
  epoch := 0
  orderGen := 0
  flowHash := 0
  stage := stage
  accepted := true
  acceptedAt := 0
  failed := false
  stolen := false
  redispatched := false
  faults := 0
  result := none
  retireNo := none
  toEnqueue := []
  decided := false
  retiredAt := 0
  charges := []
  drawn := none
  dei := false
  committed := false
  surveyDone := false
  firstQueue := 0
  firstSeq := 0
  firstDepth := 0
  decidedCopies := 0
  filterCounts := []
  launch := none
  launchDue := false
  tsWanted := false

/-- A frame at a MAC with `n` zero bytes received. -/
def rxf (n : Nat) (pkt : Option Nat) : RxFrame := ⟨0, false, false, List.replicate n 0, pkt, false, true, false, (0, 0)⟩

/-- Awl 4,095, the last, runs packet 9 and its program is the one word of opcode `op` with operands `o`. -/
def awlS (op : BitVec 8) (o : AwlOp) (a : Awl) : State :=
  (({ up [47] with rg := { progs := { active := { instrs := [awlWord op o], isDefault := false } } } } : State).setPkt 9
    (packet 511 15 (.onAwl 4095))).setAwl 4095 { a with pkt := some 9 }

/-- An awl that has just begun: a window of 64 bytes and its metadata. -/
def awl0 : Awl := { window := List.replicate 64 0, md := List.replicate 64 0 }

/-- A program image of the single instruction yld (R126), its digest worked out outside the model. -/
def yldImage : List Byte :=
  [0x41, 0x57, 0x4C, 0x50, 1, 0, 0, 0] ++ leBytes 4 72 ++ leBytes 4 1 ++ leBytes 16 0 ++
    [17, 51, 191, 44, 253, 206, 151, 93, 80, 39, 235, 72, 116, 221, 200, 135, 200, 222, 135, 162, 193, 121, 194, 56, 146, 190,
      14, 181, 238, 166, 219, 157] ++ leBytes 8 0x7F00000000000000

/-- A cycle frame of ring 7 (R240 to R243): its count of datagrams, its node and its datagrams. -/
def ringFrame (count node : Nat) (body : List Byte) : List Byte :=
  List.replicate 12 0 ++ beBytes 2 0x88B6 ++ [1, 0] ++ beBytes 2 7 ++ beBytes 14 0 ++ beBytes 2 count ++ [0, 0] ++ beBytes 2 node ++
    beBytes 8 0 ++ body

/-- The head of `ringFrame`. -/
def ringHeadOf (count node : Nat) : CycleHead := ⟨14, 1, 0, 7, 0, 0, 0, count, 0, node, 0⟩

/-- A START CLAIM of attempt 5 with the vector `v`: its record, and the frame with the one datagram that carries it. -/
def claimRecord (v : Nat) : List Byte := [2, 0, 0, 0] ++ beBytes 4 v ++ beBytes 4 5
def claimFrame (node v : Nat) : List Byte :=
  ringFrame 1 node (beBytes 2 0xFFFE ++ beBytes 2 0 ++ beBytes 2 12 ++ [BitVec.ofNat 8 cmdWrite, 0] ++ beBytes 2 0 ++ beBytes 2 0xFFFF ++
    claimRecord v)

/-- Ring 15 as ring 7 of the line, with node 1 and its own state. -/
def ringS (x : MRing) : State := (regs (up [54]) [(Ix.henayRingId, 16, 7)]).setMring 15 x

/-- A channel entry of the given kind (R305): ring of 16 descriptors, no completion ring, no vector, one chunk in flight. -/
def entry (kind : Nat) : List Byte :=
  leBytes 4 kind ++ [1, 0] ++ leBytes 2 0xFFFF ++ leBytes 8 0 ++ leBytes 4 16 ++ leBytes 2 0 ++ leBytes 2 0xFFFF ++ leBytes 8 0 ++
    leBytes 4 2048 ++ leBytes 12 0 ++ leBytes 2 1 ++ leBytes 2 1024 ++ leBytes 2 0 ++ leBytes 2 1 ++ leBytes 4 256 ++ leBytes 4 1 ++
    List.replicate 64 0

/-- A descriptor of operation `op` (R308, R340): address, length and the second address. -/
def desc (op addr len dst : Nat) : List Byte :=
  leBytes 8 addr ++ leBytes 3 len ++ leBytes 3 0 ++ leBytes 1 op ++ [0] ++ leBytes 8 dst ++ leBytes 8 0

/-- The same with the control word `ctl`. -/
def descWith (ctl op addr len dst : Nat) : List Byte := patch (desc op addr len dst) 12 (leBytes 2 ctl)

theorem descAddr_entry (j : Nat) : State.descAddr (entry 3) j = 32 * (j % 16) := by
  rw [State.descAddr, show entRingBase (entry 3) = 0 by decide +kernel, show entRingSize (entry 3) = 16 by decide +kernel, Nat.zero_add]

/-- A host that is on and trained, and channel 4,095. -/
def hostS (x : Channel) : State :=
  let s := regs (up [52]) [(Ix.strapValues, 0, 4)]
  ({ s with ho := { busMaster := true, width := 16, rate := 32000 } } : State).setChannel 4095 x

/-- A move of 4,097 bytes accepted by channel 4,095, and the same under way with `flying` in flight. -/
def moveUnit (op : Nat) : HUnit := { kind := 2, first := 3, descs := [(3, desc op 0 4097 65536)] }
def movingUnit (todo flying : List Xfer) : HUnit := { moveUnit 3 with stage := .started, todo := todo, flying := flying }

/-- The next state of an outcome, and whether it is one. -/
def nextOf (x : Out) : State := match x with | .next t => t | _ => State.reset
def isNext (x : Out) : Bool := match x with | .next _ => true | _ => false

theorem eq_next_of_isNext {x : Out} (h : isNext x = true) : x = .next (nextOf x) := by
  cases x <;> first | rfl | cases h


/-! ### What WellFormed refuses, by the kind of operand, and the last value of each kind, which it accepts -/

theorem test_wf_refuses : ∀ c ∈ [Instr.timeBeacon 56, .applyArm 16, .pmacVerifySend 512, .enqueueRetry 16, .chunkBegin 4096,
    .applyNow 65536, .correctionSwitch 4, .islandReset 256 0, .islandReset 0 256, .queueSampleConfigWrite 0 4294967296,
    .memRetrainCheck 8 0 true, .recoveryTimerExpiry 262144, .tioEdge 32 0, .xmAgeSweep 64, .timeAdjust 0 9223372036854775808,
    .timeAdjust 0 (-9223372036854775809), .cormusMessage 513 [], .vectorMessage 2048, .streamGateEntryChange 16384, .backlogDrain 1024,
    .timeSet 0 (2 ^ 96), .chAbort (2 ^ 64), .railWarning 7 0, .railWarning 0 65536, .thermalWarn 48 0, .nop 4096 ⟨0, 0, 0, false, 0, 0⟩],
    c.wf = false := by decide +kernel

theorem test_wf_accepts : ∀ c ∈ [Instr.timeBeacon 55, .applyArm 15, .pmacVerifySend 511, .enqueueRetry 15, .chunkBegin 4095,
    .applyNow 65535, .correctionSwitch 3, .islandReset 255 255, .queueSampleConfigWrite 0 4294967295, .memRetrainCheck 7 0 true,
    .recoveryTimerExpiry 262143, .tioEdge 31 0, .xmAgeSweep 63, .timeAdjust 0 9223372036854775807, .timeAdjust 3 (-9223372036854775808),
    .cormusMessage 512 [], .vectorMessage 2047, .streamGateEntryChange 16383, .backlogDrain 1023, .timeSet 0 (2 ^ 96 - 1),
    .chAbort (2 ^ 64 - 1), .railWarning 6 65535, .thermalWarn 47 0, .nop 4095 ⟨0, 0, 0, false, 0, 0⟩],
    c.wf = true := by decide +kernel

/-! ### The spec's worked examples -/

/-- Chapter 4, the worked program: words of every field layout, as the chapter's listing gives them. -/
theorem test_awl_words :
    awlWord 0x10 ⟨1, 0, 0, false, 15, 12⟩ = 0x1008000F0000000C ∧ awlWord 0x0C ⟨3, 1, 0, true, 0, 0x8100⟩ = 0x0C18410000008100 ∧
    awlWord 0x44 ⟨0, 0, 0, false, 0, 0x17⟩ = 0x4400000000000017 ∧ awlWord 0x10 ⟨4, 0, 0, false, 11, 0x4000E⟩ = 0x1020000B0004000E ∧
    awlWord 0x06 ⟨7, 4, 0, true, 0, 0x30⟩ = 0x0639010000000030 ∧ awlWord 0x04 ⟨8, 7, 6, false, 0, 0⟩ = 0x0441CC0000000000 ∧
    awlWord 0x12 ⟨11, 0, 0, false, 0, 2⟩ = 0x1258000000000002 ∧ awlWord 0x28 ⟨0, 5, 0, false, 1, 0x4000⟩ = 0x2801400100004000 ∧
    awlWord 0x20 ⟨10, 8, 0, false, 0, 1⟩ = 0x2052000000000001 ∧ awlWord 0x01 ⟨13, 12, 11, false, 0, 0⟩ = 0x016B160000000000 ∧
    awlWord 0x30 ⟨0, 13, 0, false, 0, 0⟩ = 0x3003400000000000 ∧ awlWord 0x31 ⟨0, 15, 11, false, 1, 0⟩ = 0x3103D60100000000 ∧
    awlWord 0x7F ⟨0, 0, 0, false, 0, 0⟩ = 0x7F00000000000000 := by decide +kernel

/-- R110: one step runs `add g31, g0, #-1`: the register holds all ones and the program counter has moved on. -/
theorem test_awl_add_step :
    let t := nextOf (step { awlS 0x01 ⟨31, 0, 0, true, 0, 0xFFFFFFFF⟩ awl0 with
      pending := [.add 4095 ⟨31, 0, 0, true, 0, 0xFFFFFFFF⟩] })
    (t.awl 4095).g 31 = 0xFFFFFFFFFFFFFFFF ∧ (t.awl 4095).pc = 1 ∧ t.pending = [] := by decide +kernel

/-- Chapter 6, the worked merge at recovery function 1,204: nine frames, the last number, the history and the counts. -/
theorem test_recovery_merge :
    let s := (up [50]).setRecord Ix.recoveryFunc 0 1204 (leNat ([0x84, 8, 2] ++ List.replicate 15 0 ++ [1]))
    let t := [100, 100, 101, 103, 101, 102, 103, 112, 104].foldl (fun (u : State) n => (u.judgeRecovery 1204 (some n)).1) s
    let count (i : Nat) := t.recField Ix.recoveryCounts 0 1204 i 8
    t.recoverField 1204 16 2 = 104 ∧ t.recoverField 1204 20 1 = 0xFF ∧
      [count 0, count 8, count 16, count 24, count 32, count 40] = [5, 3, 2, 1, 0, 0] := by decide +kernel

/-- R206, the worked read of domain 1, 2.5 s of raw time after its pivot. -/
theorem test_sync_read :
    ({ pivot := 65536000000000000, sync := 1714000000500000000 * 65536, rho := 3518437209 } : Correction).at
      (65536000000000000 + 163840000000000) = 1714000003000031250 * 65536 := by decide +kernel

/-- R213, the worked sample: θ = +200 ns after 125 ms with I at +3,000 ppb gives −1,125,899,907. -/
theorem test_servo_sample :
    (((up []).setServo 0 { integ := ⟨3000, 1⟩ }).piStep 0 (200 * 65536) (125000000 * 65536)).servo 0 =
      { integ := ⟨3200, 1⟩, output := -1125899907 } := by decide +kernel

/-- Chapter 12: the CRC-16 over the ASCII bytes 123456789. -/
theorem test_crc16 : crc16 [0x31, 0x32, 0x33, 0x34, 0x35, 0x36, 0x37, 0x38, 0x39] = 0x29B1 := by decide +kernel

/-- R347, the worked four pixels of six inks: the twelve bit planes, and their merge. -/
theorem test_plane_split :
    Format.ofCtl 0x9501 = some ⟨2, 6, true⟩ ∧
    (Format.mk 2 6 true).toPlanes 4 [0xC6, 0x09, 0x31, 0x6C, 0x03, 0x94] =
      [[0xC0], [0xA0], [0x30], [0x50], [0x30], [0xA0], [0xC0], [0x50], [0x00], [0x10], [0x00], [0x40]] ∧
    (Format.mk 2 6 true).ofPlanes 4
      [[0xC0], [0xA0], [0x30], [0x50], [0x30], [0xA0], [0xC0], [0x50], [0x00], [0x10], [0x00], [0x40]] =
        [0xC6, 0x09, 0x31, 0x6C, 0x03, 0x94] := by decide +kernel

/-- R414, the worked board: D, the address limit, and the channels of the two worked addresses. -/
theorem test_memory_layout :
    let s : State := { State.reset with mm := { mirror := 1073741824, chanData := dataBytes 2147483648 } }
    dataBytes 2147483648 = 1908874240 ∧ s.memLimit = 14197252096 ∧ s.memChannel (1073741824 + 0x1234) = 1 ∧
      s.memChannel 0x0A00 = 2 := by decide +kernel

/-- R28 and chapter 12, the worked request: the guarded value 0x25 resets rig 5, island 37, and its state reads RESET. -/
theorem test_island_reset :
    let t := nextOf (exec (.islandReset 0x25 0xDA) (up [37]))
    t.islandState 37 = 1 ∧ t.reg Ix.islandResetLast 0 = 0x25 ∧ t.answer.abort = 0 := by decide +kernel

/-- R449: A_T at 85 °C is 0.540 in the worked island, at the reference voltage; temperatures count in 1/16 °C. -/
theorem test_wear_factor :
    5395 * 2 ^ 40 ≤ 10000 * wearFactor 1360 760 760 ∧ 10000 * wearFactor 1360 760 760 ≤ 5405 * 2 ^ 40 := by decide +kernel

/-! ### For each statement with hypotheses, and each of its clauses, a state and operands that meet them -/

theorem wit_TimeBusBeaconAndLoss :
    (∃ (s : State) (j : Nat) (sent : Raw),
      s.islandPresent j = true ∧ sent.toNat = s.raw.toNat / 67108864 * 67108864 ∧
      (s.islandState j = 4 ∨ (s.island j).beacon ≠ sent)) ∧
    (∃ (s : State) (i : Nat),
      s.islandPresent i = true ∧ s.islandState i = 3 ∧ i ≠ 51 ∧ 268435456 ≤ s.since (s.island i).heard) :=
  ⟨⟨at_ (up [51]) 67108864, 55, 67108864, by decide +kernel⟩,
   ⟨at_ (up [47]) 268435456, 47, by decide +kernel⟩⟩

theorem wit_ImmediateStrobe :
    (∃ (s : State) (i : Nat) (g : Nat) (before : List Strobe) (after : List Strobe) (b : Strobe),
      s.islandPresent i = true ∧ g < 16 ∧ (s.group g).strobes = before ++ b :: after ∧ (∀ c ∈ before, i ∉ c.waiting) ∧
      i ∈ b.waiting) ∧
    (∃ (s : State) (g : Nat) (b : Strobe) (rest : List Strobe),
      g < 16 ∧ (s.group g).strobes = b :: rest ∧ b.waiting = []) :=
  ⟨⟨(up [40]).setGroup 15 ⟨[⟨[1], 0⟩, ⟨[40, 41], 0⟩], none⟩, 40, 15, [⟨[1], 0⟩], [], ⟨[40, 41], 0⟩, by decide +kernel⟩,
   ⟨(up []).setGroup 15 ⟨[⟨[], 7⟩], none⟩, 15, ⟨[], 7⟩, [], by decide +kernel⟩⟩

theorem wit_ScheduledStrobe :
    (∃ (s : State) (g : Nat) (d : Nat) (target : Int),
      g < 16 ∧ (s.group g).armed = none ∧ d = s.reg Ix.applyDomain (g + 1) ∧
      target = ofTime80 (s.reg Ix.applyTime (g + 1)) ∧ 0 ≤ s.rawDelta d target ∧
      s.rawDelta d target ≤ 9223372036854775807 ∧ target - s.syncNow d ≤ 39 * 3600 * 65536000000000) ∧
    (∃ (s : State) (g : Nat) (a : Armed),
      g < 16 ∧ (s.group g).armed = some a ∧ (s.raw - a.raw).toInt < 0) ∧
    (∃ (s : State) (i : Nat) (g : Nat) (a : Armed),
      s.islandPresent i = true ∧ g < 16 ∧ (s.group g).armed = some a ∧ i ∈ a.unsent ∧
      ((s.raw - a.raw).toInt ≤ 0 ∨ s.islandState i = 4 ∨ s.lostWhen i a.raw = true)) ∧
    (∃ (s : State) (i : Nat) (g : Nat) (a : Armed),
      s.islandPresent i = true ∧ g < 16 ∧ (s.group g).armed = some a ∧ i ∈ a.unsent ∧ 0 < (s.raw - a.raw).toInt ∧
      s.lostWhen i a.raw = false ∧ s.islandState i = 3 ∧ s.reg Ix.applyGroup (i + 1) = g) ∧
    (∃ (s : State) (i : Nat) (g : Nat) (a : Armed),
      s.islandPresent i = true ∧ g < 16 ∧ (s.group g).armed = some a ∧ i ∈ a.held ∧ 0 ≤ (s.raw - a.raw).toInt ∧
      s.lostWhen i a.raw = false ∧ s.islandState i ≠ 1 ∧ s.islandState i ≠ 2 ∧ s.reg Ix.applyGroup (i + 1) = g) ∧
    (∃ (s : State) (i : Nat) (g : Nat) (a : Armed),
      s.islandPresent i = true ∧ g < 16 ∧ (s.group g).armed = some a ∧ (i ∈ a.held ∨ i ∈ a.unsent) ∧
      0 ≤ (s.raw - a.raw).toInt ∧ (s.islandState i = 4 ∨ (s.lostWhen i a.raw = true ∧ s.islandState i = 3)) ∧
      s.reg Ix.applyGroup (i + 1) = g) :=
  ⟨⟨regs (up []) [(Ix.applyTime, 16, time80 65536)], 15, 0, 65536, by decide +kernel⟩,
   ⟨(up []).setGroup 15 ⟨[], some ⟨time80 65536, 0, 65536, [], [3], false⟩⟩, 15, ⟨time80 65536, 0, 65536, [], [3], false⟩,
     by decide +kernel⟩,
   ⟨(up [3]).setGroup 0 ⟨[], some ⟨time80 65536, 0, 65536, [], [3], false⟩⟩, 3, 0, ⟨time80 65536, 0, 65536, [], [3],
     false⟩, by decide +kernel⟩,
   ⟨at_ ((up [3]).setGroup 0 ⟨[], some ⟨time80 65536, 0, 65536, [], [3], false⟩⟩) 65537, 3, 0, ⟨time80 65536, 0, 65536, [],
     [3], false⟩, by decide +kernel⟩,
   ⟨at_ ((up [3]).setGroup 0 ⟨[], some ⟨time80 65536, 0, 65536, [3], [], false⟩⟩) 65536, 3, 0, ⟨time80 65536, 0, 65536,
     [3], [], false⟩, by decide +kernel⟩,
   ⟨at_ (((up [3]).setIslandState 3 4).setGroup 0 ⟨[], some ⟨time80 65536, 0, 65536, [3], [], false⟩⟩) 65536, 3, 0,
     ⟨time80 65536, 0, 65536, [3], [], false⟩, by decide +kernel⟩⟩

theorem wit_ScheduledStrobeCompletes :
    ∃ (s : State) (g : Nat) (a : Armed),
      g < 16 ∧ (s.group g).strobes = [] ∧ (s.group g).armed = some a ∧ 0 ≤ (s.raw - a.raw).toInt ∧ a.held = [] ∧
      a.unsent = [] :=
  ⟨at_ ((up [3]).setGroup 15 ⟨[], some ⟨time80 65536, 0, 65536, [], [], false⟩⟩) 65536, 15, ⟨time80 65536, 0, 65536, [],
     [], false⟩, by decide +kernel⟩

theorem wit_PendingStoreStaysWithinBounds :
    ∃ (s : State) (i : Nat),
      (s.island i).storeOk = true :=
  ⟨up [], 0, by decide +kernel⟩

theorem wit_RigApplyTakesPendingValue :
    ∃ (s : State) (i : Nat) (g : Nat) (idx : Nat) (sub : Nat) (v : Nat) (o : ObjDesc) (b : Strobe) (rest : List Strobe),
      s.islandPresent i = true ∧ 32 ≤ i ∧ i < 48 ∧ g < 16 ∧ s.islandState i = 3 ∧ s.reg Ix.applyGroup (i + 1) = g ∧
      (s.group g).strobes = b :: rest ∧ i ∈ b.waiting ∧ objAt idx = some o ∧ o.acc = .rwb ∧ o.ty.isTable = false ∧
      (s.island i).pend = [⟨idx, sub, [(0, v)]⟩] :=
  ⟨((up [47]).setIsland 47 { pend := [⟨Ix.stealBatch, 16, [(0, 5)]⟩] }).setGroup 0 ⟨[⟨[47], 0⟩], none⟩, 47, 0,
     Ix.stealBatch, 16, 5, ⟨Ix.stealBatch, .u 1, .rwb, .cfg, .sectors, .rigOf, 16, .within 1 16⟩, ⟨[47], 0⟩, [],
   by decide +kernel, by decide +kernel, by decide +kernel, by decide +kernel, by decide +kernel, by decide +kernel,
     by decide +kernel, by decide +kernel, rfl, by decide +kernel, by decide +kernel, by decide +kernel⟩

theorem wit_IslandReset :
    (∃ (s : State) (v : Nat) (c : Nat),
      v < 256 ∧ c = 255 - v ∧ s.resettable v = true ∧ s.islandState v ≠ 1 ∧ s.islandState v ≠ 2) ∧
    (∃ (s : State) (v : Nat) (c : Nat),
      v < 256 ∧ c = 255 - v ∧ s.resettable v = true ∧ 32 ≤ v ∧ v < 48 ∧ s.islandState v ≠ 1 ∧ s.islandState v ≠ 2) ∧
    (∃ (s : State) (v : Nat) (c : Nat),
      v < 256 ∧ c = 255 - v ∧ s.resettable v = true ∧ (s.islandState v = 1 ∨ s.islandState v = 2)) ∧
    (∃ (s : State) (v : Nat) (c : Nat),
      v < 256 ∧ c = 255 - v ∧ s.resettable v = false) ∧
    (∃ (s : State) (v : Nat) (c : Nat),
      v < 256 ∧ c < 256 ∧ c ≠ 255 - v) ∧
    (∃ (s : State) (i : Nat),
      s.resettable i = true ∧ s.sy.hold = none ∧ s.sy.retaining = false ∧ s.reg Ix.startPhase 0 = 3 ∧
      (s.islandState i = 1 ∨ s.islandState i = 2)) ∧
    (∃ (s : State) (i : Nat),
      s.resettable i = true ∧ 32 ≤ i ∧ i < 48 ∧ s.sy.hold = none ∧ s.sy.retaining = false ∧ s.reg Ix.startPhase 0 = 3 ∧
      (s.islandState i = 1 ∨ s.islandState i = 2)) :=
  ⟨⟨up [54], 54, 201,
   by decide +kernel, rfl, by decide +kernel, by decide +kernel, by decide +kernel⟩,
   ⟨up [47], 47, 208,
   by decide +kernel, rfl, by decide +kernel, by decide +kernel, by decide +kernel, by decide +kernel, by decide +kernel⟩,
   ⟨(up []).setIslandState 54 1, 54, 201,
   by decide +kernel, rfl, by decide +kernel, by decide +kernel⟩,
   ⟨up [48], 48, 207,
   by decide +kernel, rfl, by decide +kernel⟩,
   ⟨up [], 54, 0, by decide +kernel⟩,
   ⟨up [], 54, by decide +kernel⟩,
   ⟨up [], 47, by decide +kernel⟩⟩

theorem wit_FrameReception :
    (∃ (s : State) (p : Nat) (capture : Raw) (pipe : Int),
      s.portPresent p = true ∧ s.linkUp p = true ∧ s.rxFrame? p = none) ∧
    (∃ (s : State) (p : Nat) (pre : Bool) (ended : Bool) (data : List Byte) (bytes : List Byte) (cells : List Nat) (r : RxFrame),
      s.portPresent p = true ∧ s.rxFrame? (State.macKey p pre) = some r ∧ r.pkt = none ∧ r.diverted = false ∧
      r.failed = false ∧ r.duringReset = false ∧ s.running (16 + p / 32) = true ∧ bytes = r.bytes ++ data ∧
      bytes.length ≤ s.reg Ix.portMaxFrame (p + 1) ∧ (pre = true → data = []) ∧
      ((ended = false ∧ pre = false ∧ bytes.length = 256) ∨ (ended = false ∧ pre = true ∧ 256 ≤ bytes.length) ∨ (ended = true ∧ (pre = true → r.complete = true) ∧ 64 ≤ bytes.length ∧ bytes.length ≤ 256)) ∧
      s.isCycleFrame p bytes = false ∧ s.diverted r.cormusIds p bytes = false ∧
      s.intakeGrants (8 * p + classOf (s.reg Ix.portPcpToTc (p + 1)) (s.reg Ix.portDefaultTc (p + 1)) bytes) (s.rxCells p) = true ∧
      s.freeChoice cells (s.rxCells p) = true ∧ p < 512) ∧
    (∃ (s : State) (p : Nat) (pre : Bool) (ended : Bool) (data : List Byte) (bytes : List Byte) (cells : List Nat) (r : RxFrame),
      s.portPresent p = true ∧ s.rxFrame? (State.macKey p pre) = some r ∧ r.pkt = none ∧ r.diverted = false ∧
      r.failed = false ∧ r.duringReset = false ∧ s.running (16 + p / 32) = true ∧ bytes = r.bytes ++ data ∧
      bytes.length ≤ s.reg Ix.portMaxFrame (p + 1) ∧ (pre = true → data = []) ∧
      ((ended = false ∧ pre = false ∧ bytes.length = 256) ∨ (ended = false ∧ pre = true ∧ 256 ≤ bytes.length) ∨ (ended = true ∧ (pre = true → r.complete = true) ∧ 64 ≤ bytes.length ∧ bytes.length ≤ 256)) ∧
      s.isCycleFrame p bytes = false ∧ s.diverted r.cormusIds p bytes = false ∧
      s.intakeGrants (8 * p + classOf (s.reg Ix.portPcpToTc (p + 1)) (s.reg Ix.portDefaultTc (p + 1)) bytes) (s.rxCells p) = false ∧
      p < 512) :=
  ⟨⟨upPort (up []) 511, 511, 5, 0, by decide +kernel⟩,
   ⟨(upPort (up []) 511).setRx 511 (rxf 200 none), 511, false, false, List.replicate 56 0, List.replicate 256 0, [655352,
     655353, 655354, 655355, 655356, 655357, 655358, 655359], rxf 200 none,
   by decide +kernel, by decide +kernel, by decide +kernel, by decide +kernel, by decide +kernel, by decide +kernel,
     by decide +kernel, by decide +kernel, by decide +kernel, (fun h => nomatch h), by decide +kernel, by decide +kernel,
     by decide +kernel, by decide +kernel, by decide +kernel, by decide +kernel⟩,
   ⟨regs ((upPort (up []) 511).setRx 511 (rxf 200 none)) [(Ix.intakeLimitCells, 4089, 5)], 511, false, false,
     List.replicate 56 0, List.replicate 256 0, [], rxf 200 none,
   by decide +kernel, by decide +kernel, by decide +kernel, by decide +kernel, by decide +kernel, by decide +kernel,
     by decide +kernel, by decide +kernel, by decide +kernel, (fun h => nomatch h), by decide +kernel, by decide +kernel,
     by decide +kernel, by decide +kernel, by decide +kernel⟩⟩

theorem wit_FrameEndings :
    (∃ (s : State) (p : Nat) (pre : Bool) (rest : List Byte) (bytes : List Byte) (r : RxFrame),
      s.portPresent p = true ∧ p < 512 ∧ s.rxFrame? (State.macKey p pre) = some r ∧ r.failed = false ∧
      r.duringReset = false ∧ bytes = s.rxBytes r ++ rest ∧ s.reg Ix.portMaxFrame (p + 1) < bytes.length ∧
      (pre = false → bytes.length = s.reg Ix.portMaxFrame (p + 1) + 1) ∧ (pre = true → rest = []) ∧
      (r.pkt = none ∨ (∃ h q, r.pkt = some h ∧ s.pkt? h = some q ∧ q.stage ≠ .retired))) ∧
    (∃ (s : State) (p : Nat) (pre : Bool) (fec : Bool) (rest : List Byte) (bytes : List Byte) (r : RxFrame),
      s.portPresent p = true ∧ p < 512 ∧ s.rxFrame? (State.macKey p pre) = some r ∧ r.failed = false ∧
      r.duringReset = false ∧ bytes = s.rxBytes r ++ rest ∧ bytes.length ≤ s.reg Ix.portMaxFrame (p + 1) ∧
      (pre = true → rest = []) ∧ (r.pkt = none ∨ (∃ h q, r.pkt = some h ∧ s.pkt? h = some q ∧ q.stage ≠ .retired))) ∧
    (∃ (s : State) (p : Nat) (pre : Bool) (rest : List Byte) (r : RxFrame),
      s.portPresent p = true ∧ p < 512 ∧ s.rxFrame? (State.macKey p pre) = some r ∧ r.failed = false ∧
      r.duringReset = false ∧ (r.pkt = none → s.isCycleFrame p (s.rxBytes r ++ rest) = false) ∧
      (pre = true → rest = [] ∧ r.complete = true) ∧ (s.rxBytes r ++ rest).length < 64) ∧
    (∃ (s : State) (p : Nat) (pre : Bool) (rest : List Byte) (r : RxFrame),
      s.portPresent p = true ∧ p < 512 ∧ s.rxFrame? (State.macKey p pre) = some r ∧
      (r.failed = true ∨ r.duringReset = true) ∧ (pre = true → rest = [])) ∧
    (∃ (s : State) (p : Nat) (h : Nat) (pre : Bool) (rest : List Byte) (bytes : List Byte) (r : RxFrame) (q : Packet),
      s.portPresent p = true ∧ p < 512 ∧ s.rxFrame? (State.macKey p pre) = some r ∧ r.failed = false ∧
      r.duringReset = false ∧ (pre = true → rest = [] ∧ r.complete = true) ∧ bytes = s.rxBytes r ++ rest ∧
      64 ≤ bytes.length ∧ bytes.length ≤ s.reg Ix.portMaxFrame (p + 1) ∧ r.pkt = some h ∧ s.pkt? h = some q ∧ q.src = p ∧
      q.stage = .dispatchList ∧ q.admitted = [] ∧ q.failed = false ∧ s.queuesOf h = [] ∧ (s.portLink p).asleep = false) :=
  ⟨⟨(upPort (up []) 0).setRx 0 (rxf 200 none), 0, false, List.replicate 1801 0, List.replicate 2001 0, rxf 200 none,
   by decide +kernel, by decide +kernel, by decide +kernel, by decide +kernel, by decide +kernel, by decide +kernel,
     by decide +kernel, (fun _ => by decide +kernel), (fun h => nomatch h), Or.inl rfl⟩,
   ⟨(upPort (up []) 511).setRx 1023 (rxf 200 none), 511, true, false, [], List.replicate 200 0, rxf 200 none,
   by decide +kernel, by decide +kernel, by decide +kernel, by decide +kernel, by decide +kernel, by decide +kernel,
     by decide +kernel, (fun _ => by decide +kernel), Or.inl rfl⟩,
   ⟨(upPort (up []) 511).setRx 511 (rxf 50 none), 511, false, List.replicate 13 0, rxf 50 none,
   by decide +kernel, by decide +kernel, by decide +kernel, by decide +kernel, by decide +kernel,
     fun _ => by decide +kernel, (fun h => nomatch h), by decide +kernel⟩,
   ⟨(upPort (up []) 511).setRx 511 { rxf 64 none with failed := true }, 511, false, [], { rxf 64 none with failed := true },
   by decide +kernel, by decide +kernel, by decide +kernel, by decide +kernel, (fun h => nomatch h)⟩,
   ⟨((upPort (up []) 511).setRx 511 (rxf 0 (some 9))).setPkt 9 (packet 511 15 .dispatchList), 511, 9, false, [],
     List.replicate 64 0, rxf 0 (some 9), packet 511 15 .dispatchList,
   by decide +kernel, by decide +kernel, by decide +kernel, by decide +kernel, by decide +kernel, (fun h => nomatch h),
     rfl, by decide +kernel, by decide +kernel, by decide +kernel, by decide +kernel, by decide +kernel, by decide +kernel,
     by decide +kernel, by decide +kernel, by decide +kernel, by decide +kernel⟩⟩

theorem wit_PreemptableMac :
    (∃ (s : State) (p : Nat),
      s.portPresent p = true ∧ s.regB Ix.pmacEnable (p + 1) = true ∧ s.linkUp p = true ∧ s.islandState (16 + p / 32) ≠ 1 ∧
      s.islandState (16 + p / 32) ≠ 2) ∧
    (∃ (s : State) (p : Nat),
      s.portPresent p = true ∧ s.regB Ix.pmacEnable (p + 1) = true ∧ s.regB Ix.pmacVerifyDisable (p + 1) = false ∧
      s.portUp p = true ∧ (s.reg Ix.pmacVerifyStatus (p + 1) = 1 ∨ s.reg Ix.pmacVerifyStatus (p + 1) = 2) ∧
      ((s.pmac p).attempts = 0 ∨ s.reg Ix.pmacVerifyTime (p + 1) * 65536000000 ≤ s.since (s.pmac p).lastVerify)) :=
  ⟨⟨regs (upPort (up []) 511) [(Ix.pmacEnable, 512, 1)], 511, by decide +kernel⟩,
   ⟨regs (upPort (up []) 0) [(Ix.pmacEnable, 1, 1), (Ix.pmacVerifyStatus, 1, 2)], 0, by decide +kernel⟩⟩

theorem wit_BufferEvents :
    (∃ (s : State) (findings : List CellFinding),
      s.running 48 = true ∧ s.reg Ix.bufferScrubPeriod 0 * 65536000000 ≤ s.since s.fr.scrubbed ∧
      (∀ f ∈ findings, f.cell < 655360 ∧ f.word < 4 ∧ 1 ≤ f.errors ∧ f.errors ≤ 4 ∧ (s.fr.eccInForce = 1 → f.errors ≤ 3))) ∧
    (∃ (s : State) (u : State) (c : Nat) (cells : List Nat) (e : List Byte) (x : HUnit),
      s.chanEntry c = some e ∧ (s.channel c).units.find? (fun y => y.stage == .waiting) = some x ∧ s.mayStart c = true ∧
      s.intakeGrants (4096 + 8 * entHostPort e + x.cls) (hostCells x.length) = true ∧
      s.freeChoice cells (hostCells x.length) = true ∧ u = s.handOver c x.first ∧ u.chanEntry c = some e ∧ u.fr = s.fr) ∧
    (∃ (s : State) (k : Nat) (h : Nat) (p : Packet),
      s.sectorPresent k = true ∧ s.running 48 = true ∧
      (s.keeperPkts k).filter (fun e => e.2.stage == .enqueuing && !e.2.failed) = [(h, p)] ∧ s.pkt? h = some p) ∧
    (∃ (s : State) (p : Nat),
      s.portPresent p = true ∧ s.portUp p = false ∧ s.running 48 = true ∧ (s.holdTimer p).running = true ∧
      s.reg Ix.portHoldLimit (p + 1) * 65536000 ≤ s.holdElapsed p) :=
  ⟨⟨at_ (up [48]) 65536000000000000, [⟨655359, 3, 4, true⟩], by decide +kernel⟩,
   ⟨hostS { entry := some (entry 1), units := [{ kind := 0, first := 3, descs := [(3, desc 1 0 60 0)], stage := .waiting, length := 60 }] },
     ((hostS { entry := some (entry 1), units := [{ kind := 0, first := 3, descs := [(3, desc 1 0 60 0)], stage := .waiting, length := 60 }] })).handOver
     4095 3, 4095, [655359], entry 1,
     { kind := 0, first := 3, descs := [(3, desc 1 0 60 0)], stage := .waiting, length := 60 },
   by decide +kernel, by decide +kernel, by decide +kernel, by decide +kernel, by decide +kernel, rfl, by decide +kernel,
     by decide +kernel⟩,
   ⟨(up [48]).setPkt 9 (packet 480 15 .enqueuing), 15, 9, packet 480 15 .enqueuing, by decide +kernel⟩,
   ⟨at_ ((up [48]).setHoldTimer 511 { running := true }) 65536000000000, 511, by decide +kernel⟩⟩

theorem wit_AwlArithmetic :
    ∃ (s : State) (w : Nat) (h : Nat) (o : AwlOp) (p : Packet) (c : Instr) (op : BitVec 8) (k : Nat) (f : Word → Word → Word),
      (c, op, k, f) ∈ ([ (Instr.add w o, 0x01, 1, fun x y => x + y), (Instr.sub w o, 0x02, 1, fun x y => x - y), (Instr.and w o, 0x03, 1, fun x y => x &&& y), (Instr.or w o, 0x04, 1, fun x y => x ||| y), (Instr.xor w o, 0x05, 1, fun x y => x ^^^ y), (Instr.shl w o, 0x06, 1, fun x y => x <<< (y.toNat % 64)), (Instr.shr w o, 0x07, 1, fun x y => x >>> (y.toNat % 64)), (Instr.sar w o, 0x08, 1, fun x y => x.sshiftRight (y.toNat % 64)), (Instr.mul w o, 0x09, 3, fun x y => x * y), (Instr.cka w o, 0x0D, 1, fun x y => let t := x.toNat % 65536 + y.toNat % 65536; BitVec.ofNat 64 ((t % 65536 + t / 65536) % 65536))] : List (Instr × BitVec 8 × Nat × (Word → Word → Word))) ∧
      s.awlReady w op o { d := true, a := true, bi := true } k h p :=
  ⟨awlS 0x01 ⟨31, 30, 0, true, 0, 0xFFFFFFFF⟩ awl0, 4095, 9, ⟨31, 30, 0, true, 0, 0xFFFFFFFF⟩, packet 511 15 (.onAwl 4095),
     Instr.add 4095 ⟨31, 30, 0, true, 0, 0xFFFFFFFF⟩, 0x01, 1, fun x y => x + y,
   .head _, ⟨by decide +kernel, by decide +kernel, by decide +kernel⟩⟩

theorem wit_AwlMovesAndCompares :
    (∃ (s : State) (w : Nat) (h : Nat) (o : AwlOp) (p : Packet),
      s.awlReady w 0x00 o {} 1 h p) ∧
    (∃ (s : State) (w : Nat) (h : Nat) (o : AwlOp) (p : Packet),
      s.awlReady w 0x0A o { d := true, imm := true, i1 := true } 1 h p) ∧
    (∃ (s : State) (w : Nat) (h : Nat) (o : AwlOp) (p : Packet),
      s.awlReady w 0x0B o { d := true, imm := true, i1 := true } 1 h p) ∧
    (∃ (s : State) (w : Nat) (h : Nat) (o : AwlOp) (p : Packet) (f : Word → Word → Bool),
      (o.x.toNat % 8, f) ∈ ([(0, fun x y => x == y), (1, fun x y => x != y), (2, fun x y => x.ult y), (3, fun x y => x.ule y), (4, fun x y => x.slt y), (5, fun x y => x.sle y)] : List (Nat × (Word → Word → Bool))) ∧
      s.awlReady w 0x0C o { d := true, a := true, bi := true, x := true } 1 h p) ∧
    (∃ (s : State) (w : Nat) (h : Nat) (o : AwlOp) (p : Packet),
      s.awlReady w 0x0E o { d := true, a := true, x := true, imm := true } (1 + (o.x.toNat + 8) / 8) h p ∧
      ((s.awl w).g o.a + o.imm.signExtend 64).toNat + o.x.toNat + 1 ≤ 256) :=
  ⟨⟨awlS 0x00 ⟨0, 0, 0, false, 0, 0⟩ awl0, 4095, 9, ⟨0, 0, 0, false, 0, 0⟩, packet 511 15 (.onAwl 4095),
   ⟨by decide +kernel, by decide +kernel, by decide +kernel⟩⟩,
   ⟨awlS 0x0A ⟨31, 0, 0, true, 0, 0xFFFFFFFF⟩ awl0, 4095, 9, ⟨31, 0, 0, true, 0, 0xFFFFFFFF⟩, packet 511 15 (.onAwl 4095),
   ⟨by decide +kernel, by decide +kernel, by decide +kernel⟩⟩,
   ⟨awlS 0x0B ⟨31, 0, 0, true, 0, 0xFFFFFFFF⟩ awl0, 4095, 9, ⟨31, 0, 0, true, 0, 0xFFFFFFFF⟩, packet 511 15 (.onAwl 4095),
   ⟨by decide +kernel, by decide +kernel, by decide +kernel⟩⟩,
   ⟨awlS 0x0C ⟨31, 1, 2, false, 5, 0⟩ awl0, 4095, 9, ⟨31, 1, 2, false, 5, 0⟩, packet 511 15 (.onAwl 4095), fun x y => x.sle y,
   .tail _ (.tail _ (.tail _ (.tail _ (.tail _ (.head _))))), ⟨by decide +kernel, by decide +kernel, by decide +kernel⟩⟩,
   ⟨awlS 0x0E ⟨1, 0, 0, false, 255, 0⟩ awl0, 4095, 9, ⟨1, 0, 0, false, 255, 0⟩, packet 511 15 (.onAwl 4095),
   ⟨by decide +kernel, by decide +kernel, by decide +kernel⟩, by decide +kernel⟩⟩

theorem wit_AwlWindowAndMetadata :
    (∃ (s : State) (w : Nat) (h : Nat) (o : AwlOp) (p : Packet) (a : Awl) (at_ : Nat) (b : Nat) (n : Nat) (size : Nat),
      a = s.awl w ∧ at_ = (a.g o.a + o.imm.signExtend 64).toNat ∧ size = 2 ^ (o.x.toNat % 4) ∧
      b = 8 * (a.g o.a + (o.imm.truncate 16).zeroExtend 64).toNat + (o.imm.extractLsb' 16 3).toNat ∧
      n = o.x.toNat % 64 + 1 ∧ s.awlReady w 0x10 o { d := true, a := true, x := true, imm := true } 1 h p ∧ b + n ≤ 2048) ∧
    (∃ (s : State) (w : Nat) (h : Nat) (o : AwlOp) (p : Packet) (a : Awl) (at_ : Nat) (b : Nat) (n : Nat) (size : Nat),
      a = s.awl w ∧ at_ = (a.g o.a + o.imm.signExtend 64).toNat ∧ size = 2 ^ (o.x.toNat % 4) ∧
      b = 8 * (a.g o.a + (o.imm.truncate 16).zeroExtend 64).toNat + (o.imm.extractLsb' 16 3).toNat ∧
      n = o.x.toNat % 64 + 1 ∧ s.awlReady w 0x11 o { a := true, b := true, x := true, imm := true } 1 h p ∧ b + n ≤ 2048 ∧
      b + n ≤ 8 * a.window.length) ∧
    (∃ (s : State) (w : Nat) (h : Nat) (o : AwlOp) (p : Packet) (a : Awl) (at_ : Nat) (b : Nat) (n : Nat) (size : Nat),
      a = s.awl w ∧ at_ = (a.g o.a + o.imm.signExtend 64).toNat ∧ size = 2 ^ (o.x.toNat % 4) ∧
      b = 8 * (a.g o.a + (o.imm.truncate 16).zeroExtend 64).toNat + (o.imm.extractLsb' 16 3).toNat ∧
      n = o.x.toNat % 64 + 1 ∧ s.awlReady w 0x12 o { d := true, a := true, x := true, imm := true } 1 h p ∧
      at_ + size ≤ 64) ∧
    (∃ (s : State) (w : Nat) (h : Nat) (o : AwlOp) (p : Packet) (a : Awl) (at_ : Nat) (b : Nat) (n : Nat) (size : Nat),
      a = s.awl w ∧ at_ = (a.g o.a + o.imm.signExtend 64).toNat ∧ size = 2 ^ (o.x.toNat % 4) ∧
      b = 8 * (a.g o.a + (o.imm.truncate 16).zeroExtend 64).toNat + (o.imm.extractLsb' 16 3).toNat ∧
      n = o.x.toNat % 64 + 1 ∧ s.awlReady w 0x13 o { a := true, b := true, x := true, imm := true } 1 h p ∧ 32 ≤ at_ ∧
      at_ + size ≤ 64) ∧
    (∃ (s : State) (w : Nat) (h : Nat) (o : AwlOp) (p : Packet) (a : Awl) (at_ : Nat) (b : Nat) (n : Nat) (size : Nat),
      a = s.awl w ∧ at_ = (a.g o.a + o.imm.signExtend 64).toNat ∧ size = 2 ^ (o.x.toNat % 4) ∧
      b = 8 * (a.g o.a + (o.imm.truncate 16).zeroExtend 64).toNat + (o.imm.extractLsb' 16 3).toNat ∧
      n = o.x.toNat % 64 + 1 ∧ s.awlReady w 0x14 o { a := true, x := true, imm := true } 2 h p ∧ at_ ≤ a.window.length ∧
      a.window.length + n ≤ 256) ∧
    (∃ (s : State) (w : Nat) (h : Nat) (o : AwlOp) (p : Packet) (a : Awl) (at_ : Nat) (b : Nat) (n : Nat) (size : Nat),
      a = s.awl w ∧ at_ = (a.g o.a + o.imm.signExtend 64).toNat ∧ size = 2 ^ (o.x.toNat % 4) ∧
      b = 8 * (a.g o.a + (o.imm.truncate 16).zeroExtend 64).toNat + (o.imm.extractLsb' 16 3).toNat ∧
      n = o.x.toNat % 64 + 1 ∧ s.awlReady w 0x15 o { a := true, x := true, imm := true } 2 h p ∧
      at_ + n ≤ a.window.length) :=
  ⟨⟨(awlS 0x10 ⟨1, 0, 0, false, 63, 248⟩ (awl0)), 4095, 9, ⟨1, 0, 0, false, 63, 248⟩, packet 511 15 (.onAwl 4095),
     (awlS 0x10 ⟨1, 0, 0, false, 63, 248⟩ (awl0)).awl 4095, 248, 1984, 64, 8,
   rfl, by decide +kernel, by decide +kernel, by decide +kernel, by decide +kernel, ⟨by decide +kernel, by decide +kernel,
     by decide +kernel⟩, by decide +kernel⟩,
   ⟨(awlS 0x11 ⟨0, 0, 1, false, 63, 56⟩ (awl0)), 4095, 9, ⟨0, 0, 1, false, 63, 56⟩, packet 511 15 (.onAwl 4095),
     (awlS 0x11 ⟨0, 0, 1, false, 63, 56⟩ (awl0)).awl 4095, 56, 448, 64, 8,
   rfl, by decide +kernel, by decide +kernel, by decide +kernel, by decide +kernel, ⟨by decide +kernel, by decide +kernel,
     by decide +kernel⟩, by decide +kernel, by decide +kernel⟩,
   ⟨(awlS 0x12 ⟨1, 0, 0, false, 3, 56⟩ (awl0)), 4095, 9, ⟨1, 0, 0, false, 3, 56⟩, packet 511 15 (.onAwl 4095),
     (awlS 0x12 ⟨1, 0, 0, false, 3, 56⟩ (awl0)).awl 4095, 56, 448, 4, 8,
   rfl, by decide +kernel, by decide +kernel, by decide +kernel, by decide +kernel, ⟨by decide +kernel, by decide +kernel,
     by decide +kernel⟩, by decide +kernel⟩,
   ⟨(awlS 0x13 ⟨0, 0, 1, false, 3, 32⟩ (awl0)), 4095, 9, ⟨0, 0, 1, false, 3, 32⟩, packet 511 15 (.onAwl 4095),
     (awlS 0x13 ⟨0, 0, 1, false, 3, 32⟩ (awl0)).awl 4095, 32, 256, 4, 8,
   rfl, by decide +kernel, by decide +kernel, by decide +kernel, by decide +kernel, ⟨by decide +kernel, by decide +kernel,
     by decide +kernel⟩, by decide +kernel, by decide +kernel⟩,
   ⟨(awlS 0x14 ⟨0, 0, 0, false, 63, 64⟩ (awl0)), 4095, 9, ⟨0, 0, 0, false, 63, 64⟩, packet 511 15 (.onAwl 4095),
     (awlS 0x14 ⟨0, 0, 0, false, 63, 64⟩ (awl0)).awl 4095, 64, 512, 64, 8,
   rfl, by decide +kernel, by decide +kernel, by decide +kernel, by decide +kernel, ⟨by decide +kernel, by decide +kernel,
     by decide +kernel⟩, by decide +kernel, by decide +kernel⟩,
   ⟨(awlS 0x15 ⟨0, 0, 0, false, 63, 0⟩ (awl0)), 4095, 9, ⟨0, 0, 0, false, 63, 0⟩, packet 511 15 (.onAwl 4095),
     (awlS 0x15 ⟨0, 0, 0, false, 63, 0⟩ (awl0)).awl 4095, 0, 0, 64, 8,
   rfl, by decide +kernel, by decide +kernel, by decide +kernel, by decide +kernel, ⟨by decide +kernel, by decide +kernel,
     by decide +kernel⟩, by decide +kernel⟩⟩

theorem wit_AwlScratchAndTables :
    (∃ (s : State) (w : Nat) (h : Nat) (o : AwlOp) (p : Packet) (a : Awl) (at_ : Nat) (size : Nat),
      a = s.awl w ∧ at_ = (a.g o.a + o.imm.signExtend 64).toNat ∧ size = 2 ^ (o.x.toNat % 4) ∧
      s.awlReady w 0x18 o { d := true, a := true, x := true, imm := true } 2 h p ∧ at_ + size ≤ 262144 ∧ at_ % size = 0) ∧
    (∃ (s : State) (w : Nat) (h : Nat) (o : AwlOp) (p : Packet) (a : Awl) (at_ : Nat) (size : Nat),
      a = s.awl w ∧ at_ = (a.g o.a + o.imm.signExtend 64).toNat ∧ size = 2 ^ (o.x.toNat % 4) ∧
      s.awlReady w 0x19 o { a := true, b := true, x := true, imm := true } 2 h p ∧ at_ + size ≤ 262144 ∧ at_ % size = 0) ∧
    (∃ (s : State) (w : Nat) (h : Nat) (o : AwlOp) (p : Packet) (a : Awl) (at_ : Nat) (size : Nat),
      a = s.awl w ∧ at_ = (a.g o.a + o.imm.signExtend 64).toNat ∧ size = 2 ^ (o.x.toNat % 4) ∧
      s.awlReady w 0x1A o { d := true, a := true, b := true, imm := true } 3 h p ∧ at_ + 8 ≤ 262144 ∧ at_ % 8 = 0) ∧
    (∃ (s : State) (w : Nat) (h : Nat) (o : AwlOp) (p : Packet) (a : Awl) (at_ : Nat) (size : Nat) (key : Nat),
      a = s.awl w ∧ at_ = (a.g o.a + o.imm.signExtend 64).toNat ∧ size = 2 ^ (o.x.toNat % 4) ∧
      s.awlReady w 0x20 o { d := true, a := true, imm := true } 0 h p ∧ s.xmKeyOf a o = some key) ∧
    (∃ (s : State) (w : Nat) (h : Nat) (o : AwlOp) (p : Packet) (a : Awl) (at_ : Nat) (size : Nat),
      a = s.awl w ∧ at_ = (a.g o.a + o.imm.signExtend 64).toNat ∧ size = 2 ^ (o.x.toNat % 4) ∧
      s.awlReady w 0x21 o { d := true, a := true, imm := true } 0 h p ∧ s.reg Ix.tcPartSize (o.imm.toNat % 16 + 1) ≠ 0 ∧
      o.a.toNat ≤ 27) ∧
    (∃ (s : State) (w : Nat) (h : Nat) (o : AwlOp) (p : Packet) (a : Awl) (at_ : Nat) (size : Nat),
      a = s.awl w ∧ at_ = (a.g o.a + o.imm.signExtend 64).toNat ∧ size = 2 ^ (o.x.toNat % 4) ∧
      s.awlReady w 0x22 o { d := true, a := true, imm := true } 0 h p ∧ at_ < State.counterLimit) :=
  ⟨⟨(awlS 0x18 ⟨1, 0, 0, false, 3, 262136⟩ (awl0)), 4095, 9, ⟨1, 0, 0, false, 3, 262136⟩, packet 511 15 (.onAwl 4095),
     (awlS 0x18 ⟨1, 0, 0, false, 3, 262136⟩ (awl0)).awl 4095, 262136, 8,
   rfl, by decide +kernel, by decide +kernel, ⟨by decide +kernel, by decide +kernel, by decide +kernel⟩, by decide +kernel,
     by decide +kernel⟩,
   ⟨(awlS 0x19 ⟨0, 0, 1, false, 2, 262140⟩ (awl0)), 4095, 9, ⟨0, 0, 1, false, 2, 262140⟩, packet 511 15 (.onAwl 4095),
     (awlS 0x19 ⟨0, 0, 1, false, 2, 262140⟩ (awl0)).awl 4095, 262140, 4,
   rfl, by decide +kernel, by decide +kernel, ⟨by decide +kernel, by decide +kernel, by decide +kernel⟩, by decide +kernel,
     by decide +kernel⟩,
   ⟨(awlS 0x1A ⟨1, 0, 1, false, 0, 262136⟩ (awl0)), 4095, 9, ⟨1, 0, 1, false, 0, 262136⟩, packet 511 15 (.onAwl 4095),
     (awlS 0x1A ⟨1, 0, 1, false, 0, 262136⟩ (awl0)).awl 4095, 262136, 1,
   rfl, by decide +kernel, by decide +kernel, ⟨by decide +kernel, by decide +kernel, by decide +kernel⟩, by decide +kernel,
     by decide +kernel⟩,
   ⟨(awlS 0x20 ⟨1, 31, 0, false, 0, 0⟩ (awl0)), 4095, 9, ⟨1, 31, 0, false, 0, 0⟩, packet 511 15 (.onAwl 4095),
     (awlS 0x20 ⟨1, 31, 0, false, 0, 0⟩ (awl0)).awl 4095, 0, 1, 0,
   rfl, by decide +kernel, by decide +kernel, ⟨by decide +kernel, by decide +kernel, by decide +kernel⟩, by decide +kernel⟩,
   ⟨regs (awlS 0x21 ⟨1, 27, 0, false, 0, 15⟩ awl0) [(Ix.tcPartSize, 16, 1)], 4095, 9, ⟨1, 27, 0, false, 0, 15⟩,
     packet 511 15 (.onAwl 4095), (regs (awlS 0x21 ⟨1, 27, 0, false, 0, 15⟩ awl0) [(Ix.tcPartSize, 16, 1)]).awl 4095, 15, 1,
   rfl, by decide +kernel, by decide +kernel, ⟨by decide +kernel, by decide +kernel, by decide +kernel⟩, by decide +kernel,
     by decide +kernel⟩,
   ⟨(awlS 0x22 ⟨1, 0, 0, false, 0, 4063231⟩ (awl0)), 4095, 9, ⟨1, 0, 0, false, 0, 4063231⟩, packet 511 15 (.onAwl 4095),
     (awlS 0x22 ⟨1, 0, 0, false, 0, 4063231⟩ (awl0)).awl 4095, 4063231, 1,
   rfl, by decide +kernel, by decide +kernel, ⟨by decide +kernel, by decide +kernel, by decide +kernel⟩, by decide +kernel⟩⟩

theorem wit_AwlEffectList :
    (∃ (s : State) (w : Nat) (h : Nat) (o : AwlOp) (p : Packet) (a : Awl) (at_ : Nat) (key : Nat),
      a = s.awl w ∧ at_ = (a.g o.a + o.imm.signExtend 64).toNat ∧ a.effects.length < 64 ∧
      s.awlReady w 0x23 o { a := true, b := true, x := true, imm := true } 1 h p ∧ s.xmKeyOf a o = some key ∧
      o.x.getLsbD 0 = false) ∧
    (∃ (s : State) (w : Nat) (h : Nat) (o : AwlOp) (p : Packet) (a : Awl) (at_ : Nat) (key : Nat),
      a = s.awl w ∧ at_ = (a.g o.a + o.imm.signExtend 64).toNat ∧ a.effects.length < 64 ∧
      s.awlReady w 0x23 o { a := true, b := true, x := true, imm := true } 1 h p ∧ s.xmKeyOf a o = some key ∧
      o.x.getLsbD 0 = true) ∧
    (∃ (s : State) (w : Nat) (h : Nat) (o : AwlOp) (p : Packet) (a : Awl) (at_ : Nat),
      a = s.awl w ∧ at_ = (a.g o.a + o.imm.signExtend 64).toNat ∧ a.effects.length < 64 ∧
      s.awlReady w 0x28 o { a := true, b := true, x := true, imm := true } 1 h p ∧ o.x.getLsbD 0 = false ∧
      at_ < State.counterLimit) ∧
    (∃ (s : State) (w : Nat) (h : Nat) (o : AwlOp) (p : Packet) (a : Awl) (at_ : Nat),
      a = s.awl w ∧ at_ = (a.g o.a + o.imm.signExtend 64).toNat ∧ a.effects.length < 64 ∧
      s.awlReady w 0x28 o { a := true, b := true, x := true, imm := true } 1 h p ∧ o.x.getLsbD 0 = true ∧
      at_ + 1 < State.counterLimit) ∧
    (∃ (s : State) (w : Nat) (h : Nat) (o : AwlOp) (p : Packet) (a : Awl) (at_ : Nat),
      a = s.awl w ∧ at_ = (a.g o.a + o.imm.signExtend 64).toNat ∧ a.effects.length < 64 ∧
      s.awlReady w 0x29 o { a := true, x := true, imm := true } 1 h p ∧ at_ < 262144) ∧
    (∃ (s : State) (w : Nat) (h : Nat) (o : AwlOp) (p : Packet) (a : Awl) (at_ : Nat),
      a = s.awl w ∧ at_ = (a.g o.a + o.imm.signExtend 64).toNat ∧ a.effects.length < 64 ∧
      s.awlReady w 0x38 o { x := true } 1 h p) ∧
    (∃ (s : State) (w : Nat) (h : Nat) (o : AwlOp) (p : Packet) (a : Awl) (at_ : Nat),
      a = s.awl w ∧ at_ = (a.g o.a + o.imm.signExtend 64).toNat ∧ a.effects.length < 64 ∧
      s.awlReady w 0x35 o { x := true, imm := true } 1 h p ∧ (o.x.getLsbD 0 = false ∨ hasRtag p.rtag a.window = false)) :=
  ⟨⟨(awlS 0x23 ⟨0, 31, 1, false, 0, 0⟩ ({ awl0 with effects := List.replicate 63 .replicate })), 4095, 9, ⟨0, 31, 1, false,
     0, 0⟩, packet 511 15 (.onAwl 4095), (awlS 0x23 ⟨0, 31, 1, false, 0,
     0⟩ ({ awl0 with effects := List.replicate 63 .replicate })).awl 4095, 0, 0,
   rfl, by decide +kernel, by decide +kernel, ⟨by decide +kernel, by decide +kernel, by decide +kernel⟩, by decide +kernel,
     by decide +kernel⟩,
   ⟨(awlS 0x23 ⟨0, 31, 0, false, 1, 0⟩ ({ awl0 with effects := List.replicate 63 .replicate })), 4095, 9, ⟨0, 31, 0, false,
     1, 0⟩, packet 511 15 (.onAwl 4095), (awlS 0x23 ⟨0, 31, 0, false, 1,
     0⟩ ({ awl0 with effects := List.replicate 63 .replicate })).awl 4095, 0, 0,
   rfl, by decide +kernel, by decide +kernel, ⟨by decide +kernel, by decide +kernel, by decide +kernel⟩, by decide +kernel,
     by decide +kernel⟩,
   ⟨(awlS 0x28 ⟨0, 0, 1, false, 0, 4063231⟩ ({ awl0 with effects := List.replicate 63 .replicate })), 4095, 9, ⟨0, 0, 1,
     false, 0, 4063231⟩, packet 511 15 (.onAwl 4095), (awlS 0x28 ⟨0, 0, 1, false, 0,
     4063231⟩ ({ awl0 with effects := List.replicate 63 .replicate })).awl 4095, 4063231,
   rfl, by decide +kernel, by decide +kernel, ⟨by decide +kernel, by decide +kernel, by decide +kernel⟩, by decide +kernel,
     by decide +kernel⟩,
   ⟨(awlS 0x28 ⟨0, 0, 0, false, 1, 4063230⟩ ({ awl0 with effects := List.replicate 63 .replicate })), 4095, 9, ⟨0, 0, 0,
     false, 1, 4063230⟩, packet 511 15 (.onAwl 4095), (awlS 0x28 ⟨0, 0, 0, false, 1,
     4063230⟩ ({ awl0 with effects := List.replicate 63 .replicate })).awl 4095, 4063230,
   rfl, by decide +kernel, by decide +kernel, ⟨by decide +kernel, by decide +kernel, by decide +kernel⟩, by decide +kernel,
     by decide +kernel⟩,
   ⟨(awlS 0x29 ⟨0, 0, 0, false, 3, 262143⟩ ({ awl0 with effects := List.replicate 63 .replicate })), 4095, 9, ⟨0, 0, 0,
     false, 3, 262143⟩, packet 511 15 (.onAwl 4095), (awlS 0x29 ⟨0, 0, 0, false, 3,
     262143⟩ ({ awl0 with effects := List.replicate 63 .replicate })).awl 4095, 262143,
   rfl, by decide +kernel, by decide +kernel, ⟨by decide +kernel, by decide +kernel, by decide +kernel⟩, by decide +kernel⟩,
   ⟨(awlS 0x38 ⟨0, 0, 0, false, 15, 0⟩ ({ awl0 with effects := List.replicate 63 .replicate })), 4095, 9, ⟨0, 0, 0, false,
     15, 0⟩, packet 511 15 (.onAwl 4095), (awlS 0x38 ⟨0, 0, 0, false, 15,
     0⟩ ({ awl0 with effects := List.replicate 63 .replicate })).awl 4095, 0,
   rfl, by decide +kernel, by decide +kernel, ⟨by decide +kernel, by decide +kernel, by decide +kernel⟩⟩,
   ⟨(awlS 0x35 ⟨0, 0, 0, false, 1, 262143⟩ ({ awl0 with effects := List.replicate 63 .replicate })), 4095, 9, ⟨0, 0, 0,
     false, 1, 262143⟩, packet 511 15 (.onAwl 4095), (awlS 0x35 ⟨0, 0, 0, false, 1,
     262143⟩ ({ awl0 with effects := List.replicate 63 .replicate })).awl 4095, 262143,
   rfl, by decide +kernel, by decide +kernel, ⟨by decide +kernel, by decide +kernel, by decide +kernel⟩, by decide +kernel⟩⟩

theorem wit_AwlCopies :
    (∃ (s : State) (w : Nat) (h : Nat) (o : AwlOp) (p : Packet) (a : Awl) (at_ : Nat),
      a = s.awl w ∧ at_ = (a.g o.a + o.imm.signExtend 64).toNat ∧
      s.awlReady w 0x30 o { a := true, x := true, imm := true } 1 h p ∧ at_ < 4128 ∧ s.queuePresent at_ = true ∧
      a.copies = []) ∧
    (∃ (s : State) (w : Nat) (h : Nat) (o : AwlOp) (p : Packet) (a : Awl) (at_ : Nat),
      a = s.awl w ∧ at_ = (a.g o.a + o.imm.signExtend 64).toNat ∧
      s.awlReady w 0x30 o { a := true, x := true, imm := true } 1 h p ∧ at_ < 4128 ∧ s.queuePresent at_ = true ∧
      a.copies ≠ [] ∧ a.copies.length < 64 ∧ a.effects.length < 64) ∧
    (∃ (s : State) (w : Nat) (h : Nat) (o : AwlOp) (p : Packet) (a : Awl) (at_ : Nat),
      a = s.awl w ∧ at_ = (a.g o.a + o.imm.signExtend 64).toNat ∧ s.awlReady w 0x32 o { a := true, imm := true } 1 h p ∧
      at_ < 4128 ∧ s.queuePresent at_ = true ∧ a.copies = []) ∧
    (∃ (s : State) (w : Nat) (h : Nat) (o : AwlOp) (p : Packet) (a : Awl) (at_ : Nat) (cs : List CopySpec),
      a = s.awl w ∧ at_ = (a.g o.a + o.imm.signExtend 64).toNat ∧
      s.awlReady w 0x31 o { a := true, b := true, x := true, imm := true } (2 + ceilDiv (s.listValid at_) 4) h p ∧
      at_ < 16384 ∧ cs = s.listCopies at_ ((a.g o.b).toNat % 8) p.src (o.x.getLsbD 0) ∧
      (∀ c ∈ cs, c.queue < 4128 ∧ s.queuePresent c.queue = true) ∧ a.copies.length + cs.length ≤ 64 ∧ cs ≠ [] ∧
      1 < a.copies.length + cs.length ∧ a.effects.length < 64) ∧
    (∃ (s : State) (w : Nat) (h : Nat) (o : AwlOp) (p : Packet) (a : Awl) (at_ : Nat),
      a = s.awl w ∧ at_ = (a.g o.a + o.imm.signExtend 64).toNat ∧ s.awlReady w 0x33 o {} 1 h p) ∧
    (∃ (s : State) (w : Nat) (h : Nat) (o : AwlOp) (p : Packet) (a : Awl) (at_ : Nat),
      a = s.awl w ∧ at_ = (a.g o.a + o.imm.signExtend 64).toNat ∧
      s.awlReady w 0x34 o { a := true, b := true, imm := true } 2 h p ∧ hasRtag p.rtag a.window = false ∧
      afterTags a.window ≤ a.window.length ∧ a.window.length + 6 ≤ 256 ∧ a.copies = [] ∧ a.effects.length < 64 ∧
      (∀ q, q = (a.g o.a).toNat ∨ q = (a.g o.b).toNat → q < 4128 ∧ s.queuePresent q = true)) ∧
    (∃ (s : State) (w : Nat) (h : Nat) (o : AwlOp) (p : Packet) (a : Awl) (at_ : Nat),
      a = s.awl w ∧ at_ = (a.g o.a + o.imm.signExtend 64).toNat ∧ s.awlReady w 0x39 o { a := true, imm := true } 2 h p ∧
      at_ ≤ a.window.length ∧ a.window.length + 64 ≤ 256 ∧ a.effects.length < 64) :=
  ⟨⟨(awlS 0x30 ⟨0, 0, 0, false, 1, 4127⟩ (awl0)), 4095, 9, ⟨0, 0, 0, false, 1, 4127⟩, packet 511 15 (.onAwl 4095),
     (awlS 0x30 ⟨0, 0, 0, false, 1, 4127⟩ (awl0)).awl 4095, 4127,
   rfl, by decide +kernel, ⟨by decide +kernel, by decide +kernel, by decide +kernel⟩, by decide +kernel, by decide +kernel,
     by decide +kernel⟩,
   ⟨(awlS 0x30 ⟨0, 0, 0, false, 0, 4127⟩ ({ awl0 with copies := List.replicate 63 ⟨0, false, false⟩ })), 4095, 9, ⟨0, 0, 0,
     false, 0, 4127⟩, packet 511 15 (.onAwl 4095), (awlS 0x30 ⟨0, 0, 0, false, 0,
     4127⟩ ({ awl0 with copies := List.replicate 63 ⟨0, false, false⟩ })).awl 4095, 4127,
   rfl, by decide +kernel, ⟨by decide +kernel, by decide +kernel, by decide +kernel⟩, by decide +kernel, by decide +kernel,
     by decide +kernel, by decide +kernel, by decide +kernel⟩,
   ⟨(awlS 0x32 ⟨0, 0, 0, false, 0, 4095⟩ (awl0)), 4095, 9, ⟨0, 0, 0, false, 0, 4095⟩, packet 511 15 (.onAwl 4095),
     (awlS 0x32 ⟨0, 0, 0, false, 0, 4095⟩ (awl0)).awl 4095, 4095,
   rfl, by decide +kernel, ⟨by decide +kernel, by decide +kernel, by decide +kernel⟩, by decide +kernel, by decide +kernel,
     by decide +kernel⟩,
   ⟨(awlS 0x31 ⟨0, 0, 0, false, 0,
     16383⟩ ({ awl0 with copies := List.replicate 63 ⟨0, false, false⟩ })).setRecord Ix.copyList 0 16383 0x81FF, 4095, 9,
     ⟨0, 0, 0, false, 0, 16383⟩, packet 511 15 (.onAwl 4095), ((awlS 0x31 ⟨0, 0, 0, false, 0,
     16383⟩ ({ awl0 with copies := List.replicate 63 ⟨0, false, false⟩ })).setRecord Ix.copyList 0 16383 0x81FF).awl 4095,
     16383, [⟨4088, false, false⟩],
   rfl, by decide +kernel, ⟨by decide +kernel, by decide +kernel, by decide +kernel⟩, by decide +kernel, by decide +kernel,
     by decide +kernel, by decide +kernel, by decide +kernel, by decide +kernel, by decide +kernel⟩,
   ⟨(awlS 0x33 ⟨0, 0, 0, false, 0, 0⟩ (awl0)), 4095, 9, ⟨0, 0, 0, false, 0, 0⟩, packet 511 15 (.onAwl 4095), (awlS 0x33 ⟨0,
     0, 0, false, 0, 0⟩ (awl0)).awl 4095, 0,
   rfl, by decide +kernel, ⟨by decide +kernel, by decide +kernel, by decide +kernel⟩⟩,
   ⟨(awlS 0x34 ⟨0, 1, 0, false, 0, 262143⟩ ({ awl0 with window := List.replicate 250 0 })), 4095, 9, ⟨0, 1, 0, false, 0,
     262143⟩, packet 511 15 (.onAwl 4095), (awlS 0x34 ⟨0, 1, 0, false, 0,
     262143⟩ ({ awl0 with window := List.replicate 250 0 })).awl 4095, 262143,
   rfl, by decide +kernel, ⟨by decide +kernel, by decide +kernel, by decide +kernel⟩, by decide +kernel, by decide +kernel,
     by decide +kernel, by decide +kernel, by decide +kernel, by intro q hq; rcases hq with rfl | rfl <;> decide +kernel⟩,
   ⟨(awlS 0x39 ⟨0, 0, 0, false, 0, 192⟩ ({ awl0 with window := List.replicate 192 0 })), 4095, 9, ⟨0, 0, 0, false, 0, 192⟩,
     packet 511 15 (.onAwl 4095), (awlS 0x39 ⟨0, 0, 0, false, 0,
     192⟩ ({ awl0 with window := List.replicate 192 0 })).awl 4095, 192,
   rfl, by decide +kernel, ⟨by decide +kernel, by decide +kernel, by decide +kernel⟩, by decide +kernel, by decide +kernel,
     by decide +kernel⟩⟩

theorem wit_AwlJumpsAndTime :
    (∃ (s : State) (w : Nat) (h : Nat) (o : AwlOp) (p : Packet) (a : Awl),
      a = s.awl w ∧ s.awlReady w 0x40 o { imm := true } 2 h p) ∧
    (∃ (s : State) (w : Nat) (h : Nat) (o : AwlOp) (p : Packet) (a : Awl) (c : Instr) (op : BitVec 8) (u : Uses) (b : Bool),
      a = s.awl w ∧
      (c, op, u, b) ∈ [ (Instr.bz w o, (0x41 : BitVec 8), ({ a := true, imm := true } : Uses), a.g o.a == 0), (Instr.bnz w o, 0x42, { a := true, imm := true }, a.g o.a != 0), (Instr.bf w o, 0x43, { imm := true }, a.flag), (Instr.bnf w o, 0x44, { imm := true }, !a.flag)] ∧
      s.awlReady w op o u (if b then 2 else 1) h p) ∧
    (∃ (s : State) (w : Nat) (h : Nat) (o : AwlOp) (p : Packet) (a : Awl),
      a = s.awl w ∧ s.awlReady w 0x45 o { d := true, imm := true } 2 h p) ∧
    (∃ (s : State) (w : Nat) (h : Nat) (o : AwlOp) (p : Packet) (a : Awl),
      a = s.awl w ∧ s.awlReady w 0x46 o { a := true } 2 h p ∧ (a.g o.a).toNat % 8192 < (s.programOf p).instrs.length) ∧
    (∃ (s : State) (w : Nat) (h : Nat) (o : AwlOp) (p : Packet) (a : Awl),
      a = s.awl w ∧ s.awlReady w 0x3A o { d := true, x := true } 4 h p ∧ o.x.toNat ≤ 4) :=
  ⟨⟨(awlS 0x40 ⟨0, 0, 0, false, 0, 8191⟩ (awl0)), 4095, 9, ⟨0, 0, 0, false, 0, 8191⟩, packet 511 15 (.onAwl 4095),
     (awlS 0x40 ⟨0, 0, 0, false, 0, 8191⟩ (awl0)).awl 4095,
   rfl, ⟨by decide +kernel, by decide +kernel, by decide +kernel⟩⟩,
   ⟨(awlS 0x41 ⟨0, 31, 0, false, 0, 8191⟩ (awl0)), 4095, 9, ⟨0, 31, 0, false, 0, 8191⟩, packet 511 15 (.onAwl 4095),
     (awlS 0x41 ⟨0, 31, 0, false, 0, 8191⟩ (awl0)).awl 4095, Instr.bz 4095 ⟨0, 31, 0, false, 0, 8191⟩, 0x41,
     { a := true, imm := true }, true,
   rfl, by decide +kernel, ⟨by decide +kernel, by decide +kernel, by decide +kernel⟩⟩,
   ⟨(awlS 0x45 ⟨31, 0, 0, false, 0, 8191⟩ (awl0)), 4095, 9, ⟨31, 0, 0, false, 0, 8191⟩, packet 511 15 (.onAwl 4095),
     (awlS 0x45 ⟨31, 0, 0, false, 0, 8191⟩ (awl0)).awl 4095,
   rfl, ⟨by decide +kernel, by decide +kernel, by decide +kernel⟩⟩,
   ⟨(awlS 0x46 ⟨0, 0, 0, false, 0, 0⟩ (awl0)), 4095, 9, ⟨0, 0, 0, false, 0, 0⟩, packet 511 15 (.onAwl 4095), (awlS 0x46 ⟨0,
     0, 0, false, 0, 0⟩ (awl0)).awl 4095,
   rfl, ⟨by decide +kernel, by decide +kernel, by decide +kernel⟩, by decide +kernel⟩,
   ⟨(awlS 0x3A ⟨31, 0, 0, false, 4, 0⟩ (awl0)), 4095, 9, ⟨31, 0, 0, false, 4, 0⟩, packet 511 15 (.onAwl 4095),
     (awlS 0x3A ⟨31, 0, 0, false, 4, 0⟩ (awl0)).awl 4095,
   rfl, ⟨by decide +kernel, by decide +kernel, by decide +kernel⟩, by decide +kernel⟩⟩

theorem wit_AwlYieldAndFault :
    (∃ (s : State) (w : Nat) (h : Nat) (o : AwlOp) (p : Packet) (a : Awl) (r : Result),
      a = s.awl w ∧ s.awlReady w 0x7F o {} 1 h p ∧
      r = { window := a.window, copies := a.copies, effects := a.effects, splitFn := a.splitFn, police := leField a.md 60 4, rxChan := leField a.md 56 4, outcome := if a.copies = [] then 2 else 0, cycles := a.cycles + 1, rig := w / 256, awl := w % 256, arrived := s.raw } ∧
      (leField a.md 60 4 < 2147483648 ∨ bits (leField a.md 60 4) 30 16 = 0) ∧
      (leField a.md 56 4 < 2147483648 ∨ bits (leField a.md 56 4) 30 12 = 0)) ∧
    (∃ (s : State) (w : Nat) (h : Nat) (o : AwlOp) (p : Packet) (r : Result) (c : Instr) (op : BitVec 8) (u : Uses) (k : Nat),
      s.sectorPresent (w / 256) = true ∧ s.awlAt w (awlWord op o) = some (h, p) ∧
      (s.awl w).cycles + k ≤ s.watchdogLimit w ∧
      r = { window := p.window, copies := [], effects := [], splitFn := none, police := 0, rxChan := 0, outcome := 3, cycles := (s.awl w).cycles + k, rig := w / 256, awl := w % 256, arrived := s.raw } ∧
      (c, op, u, k) ∈ ([ (Instr.nop w o, 0x00, {}, 1), (Instr.add w o, 0x01, { d := true, a := true, bi := true }, 1), (Instr.sub w o, 0x02, { d := true, a := true, bi := true }, 1), (Instr.and w o, 0x03, { d := true, a := true, bi := true }, 1), (Instr.or w o, 0x04, { d := true, a := true, bi := true }, 1), (Instr.xor w o, 0x05, { d := true, a := true, bi := true }, 1), (Instr.shl w o, 0x06, { d := true, a := true, bi := true }, 1), (Instr.shr w o, 0x07, { d := true, a := true, bi := true }, 1), (Instr.sar w o, 0x08, { d := true, a := true, bi := true }, 1), (Instr.mul w o, 0x09, { d := true, a := true, bi := true }, 3), (Instr.movi w o, 0x0A, { d := true, imm := true, i1 := true }, 1), (Instr.movh w o, 0x0B, { d := true, imm := true, i1 := true }, 1), (Instr.cmp w o, 0x0C, { d := true, a := true, bi := true, x := true }, 1), (Instr.cka w o, 0x0D, { d := true, a := true, bi := true }, 1), (Instr.hsh w o, 0x0E, { d := true, a := true, x := true, imm := true }, (1 + (o.x.toNat + 8) / 8)), (Instr.hex w o, 0x10, { d := true, a := true, x := true, imm := true }, 1), (Instr.hin w o, 0x11, { a := true, b := true, x := true, imm := true }, 1), (Instr.mld w o, 0x12, { d := true, a := true, x := true, imm := true }, 1), (Instr.mst w o, 0x13, { a := true, b := true, x := true, imm := true }, 1), (Instr.hins w o, 0x14, { a := true, x := true, imm := true }, 2), (Instr.hdel w o, 0x15, { a := true, x := true, imm := true }, 2), (Instr.sld w o, 0x18, { d := true, a := true, x := true, imm := true }, 2), (Instr.sst w o, 0x19, { a := true, b := true, x := true, imm := true }, 2), (Instr.sadd w o, 0x1A, { d := true, a := true, b := true, imm := true }, 3), (Instr.xlk w o, 0x20, { d := true, a := true, imm := true }, 0), (Instr.tlk w o, 0x21, { d := true, a := true, imm := true }, 0), (Instr.crd w o, 0x22, { d := true, a := true, imm := true }, 0), (Instr.mtr w o, 0x29, { a := true, x := true, imm := true }, 1), (Instr.fwd w o, 0x30, { a := true, x := true, imm := true }, 1), (Instr.rep w o, 0x31, { a := true, b := true, x := true, imm := true }, 2), (Instr.mir w o, 0x32, { a := true, imm := true }, 1), (Instr.drop w o, 0x33, {}, 1), (Instr.spl w o, 0x34, { a := true, b := true, imm := true }, 2), (Instr.rcv w o, 0x35, { x := true, imm := true }, 1), (Instr.pcd w o, 0x38, { x := true }, 1), (Instr.svi w o, 0x39, { a := true, imm := true }, 2), (Instr.tsr w o, 0x3A, { d := true, x := true }, 4), (Instr.br w o, 0x40, { imm := true }, 2), (Instr.bz w o, 0x41, { a := true, imm := true }, 1), (Instr.bnz w o, 0x42, { a := true, imm := true }, 1), (Instr.bf w o, 0x43, { imm := true }, 1), (Instr.bnf w o, 0x44, { imm := true }, 1), (Instr.call w o, 0x45, { d := true, imm := true }, 2), (Instr.jr w o, 0x46, { a := true }, 2), (Instr.xwrInsert w o, 0x23, { a := true, b := true, x := true, imm := true }, 1), (Instr.xwrDelete w o, 0x23, { a := true, b := true, x := true, imm := true }, 1), (Instr.cntAdd w o, 0x28, { a := true, b := true, x := true, imm := true }, 1), (Instr.cntFrame w o, 0x28, { a := true, b := true, x := true, imm := true }, 1), (Instr.yld w o, 0x7F, {}, 1)] : List (Instr × BitVec 8 × Uses × Nat)) ∧
      (c = .xwrInsert w o ∨ c = .cntAdd w o → o.x.getLsbD 0 = false) ∧
      (c = .xwrDelete w o ∨ c = .cntFrame w o → o.x.getLsbD 0 = true) ∧
      (usesOk u o = false ∨ (c = Instr.yld w o ∧ ((2147483648 ≤ leField (s.awl w).md 60 4 ∧ bits (leField (s.awl w).md 60 4) 30 16 ≠ 0) ∨ (2147483648 ≤ leField (s.awl w).md 56 4 ∧ bits (leField (s.awl w).md 56 4) 30 12 ≠ 0))))) ∧
    (∃ (s : State) (w : Nat) (h : Nat) (k : Nat) (o : AwlOp) (p : Packet) (c : Instr) (op : BitVec 8),
      s.sectorPresent (w / 256) = true ∧ s.awlAt w (awlWord op o) = some (h, p) ∧
      usesOk { d := true, a := true, bi := true } o = true ∧
      (c, op, k) ∈ ([ (Instr.add w o, 0x01, 1), (Instr.sub w o, 0x02, 1), (Instr.and w o, 0x03, 1), (Instr.or w o, 0x04, 1), (Instr.xor w o, 0x05, 1), (Instr.shl w o, 0x06, 1), (Instr.shr w o, 0x07, 1), (Instr.sar w o, 0x08, 1), (Instr.mul w o, 0x09, 3), (Instr.cka w o, 0x0D, 1)] : List (Instr × BitVec 8 × Nat)) ∧
      s.watchdogLimit w < (s.awl w).cycles + k) :=
  ⟨⟨(awlS 0x7F ⟨0, 0, 0, false, 0, 0⟩ (awl0)), 4095, 9, ⟨0, 0, 0, false, 0, 0⟩, packet 511 15 (.onAwl 4095), (awlS 0x7F ⟨0,
     0, 0, false, 0, 0⟩ (awl0)).awl 4095, ⟨awl0.window, [], [], none, 0, 0, 2, 1, 15, 255, 0⟩,
   rfl, ⟨by decide +kernel, by decide +kernel, by decide +kernel⟩, by decide +kernel, by decide +kernel, by decide +kernel⟩,
   ⟨awlS 0x01 ⟨0, 0, 0, false, 1, 0⟩ awl0, 4095, 9, ⟨0, 0, 0, false, 1, 0⟩, packet 511 15 (.onAwl 4095),
     ⟨(packet 511 15 (.onAwl 4095)).window, [], [], none, 0, 0, 3, 1, 15, 255, 0⟩, .add 4095 ⟨0, 0, 0, false, 1, 0⟩, 0x01,
     { d := true, a := true, bi := true }, 1,
   by decide +kernel, by decide +kernel, by decide +kernel, rfl, .tail _ (.head _),
     (fun h => by rcases h with h | h <;> cases h), (fun h => by rcases h with h | h <;> cases h),
     Or.inl (by decide +kernel)⟩,
   ⟨awlS 0x01 ⟨0, 0, 0, false, 0, 0⟩ { awl0 with cycles := 1000000000 }, 4095, 9, 1, ⟨0, 0, 0, false, 0, 0⟩,
     packet 511 15 (.onAwl 4095), .add 4095 ⟨0, 0, 0, false, 0, 0⟩, 0x01,
   by decide +kernel, by decide +kernel, by decide +kernel, .head _, by decide +kernel⟩⟩

theorem wit_RigDispatchAndSteal :
    (∃ (s : State) (k : Nat) (h : Nat) (rest : List Nat) (p : Packet),
      s.sectorPresent k = true ∧ s.running 48 = true ∧ s.heldReady k = none ∧ tgetD s.fr.dispatchQ k [] = h :: rest ∧
      s.pkt? h = some p ∧ p.ended = true ∧ s.olderSetting p = false ∧ (s.rigQueue k).length < 1024 ∧
      s.outstandingOf k < 8192 ∧ s.outstandingIn p.domain < 512 ∧ tgetD s.fr.holdQ p.domain [] = []) ∧
    (∃ (s : State) (w : Nat) (h : Nat) (rest : List Nat) (p : Packet),
      s.sectorPresent (w / 256) = true ∧ s.rigQueue (w / 256) = h :: rest ∧ s.pkt? h = some p ∧
      s.running (32 + w / 256) = true ∧ s.awlIdle w = true ∧ (∀ a, a < w % 256 → s.awlIdle (256 * (w / 256) + a) = false)) ∧
    (∃ (s : State),
      s.raw.toNat / 4194304 ≠ s.rg.lastReport.toNat / 4194304) ∧
    (∃ (s : State) (r : Nat) (v : Nat) (b : List Nat),
      s.sectorPresent r = true ∧ s.rigDry r = true ∧ (s.rig r).stealWait = none ∧ v = (r + 1) % s.sectors ∧ v ≠ r ∧
      b = s.stealBatch r v ∧ b ≠ []) ∧
    (∃ (s : State) (r : Nat) (v : Nat),
      s.stealBatch r v = []) :=
  ⟨⟨{ (up [48]).setPkt 9 (packet 480 15 .dispatchList) with fr := { ((up [48]).setPkt 9 (packet 480 15 .dispatchList)).fr with dispatchQ := [(15, [9])] } },
     15, 9, [], packet 480 15 .dispatchList, by decide +kernel⟩,
   ⟨(((up [47]).setPkt 9 (packet 480 15 (.rigQueue 15))).setRigQueue 15 [9]).setAwl 3840 { fenced := true }, 3841, 9, [],
     packet 480 15 (.rigQueue 15), by decide +kernel⟩,
   ⟨at_ (up []) 4194304, by decide +kernel⟩,
   ⟨regs ((((up [47, 32]).setPkt 9 (packet 0 0 (.rigQueue 0))).setPkt 10 (packet 0 0 (.rigQueue 0))).setRigQueue 0 [9,
     10]) [(Ix.stealLoadedDepth, 1, 1), (Ix.stealBatch, 16, 1)], 15, 0, [10], by decide +kernel⟩,
   ⟨up [32, 47], 15, 0, by decide +kernel⟩⟩

theorem wit_KeeperRetiresAndCommits :
    (∃ (s : State) (k : Nat) (h : Nat) (p : Packet),
      s.sectorPresent k = true ∧ s.running 48 = true ∧ s.nextRetire k = some (h, p)) ∧
    (∃ (s : State) (k : Nat) (h : Nat) (p : Packet) (r : Result),
      s.sectorPresent k = true ∧ s.running 48 = true ∧ s.nextRetire k = some (h, p) ∧ s.pkt? h = some p ∧ p.home = k ∧
      p.src < 512 ∧ p.committed = false ∧ p.faultParts = [] ∧ p.admitted = [] ∧ p.result = some r ∧ r.copies = [] ∧
      r.effects = [] ∧ r.police < 2147483648 ∧ s.reg Ix.surveyEnable 0 = 0 ∧
      (∀ n, n < 16 → s.reg Ix.postcardSample (n + 1) = 0 ∧ s.reg Ix.postcardCondition (n + 1) = 0)) ∧
    (∃ (s : State) (k : Nat) (h : Nat) (n : Nat) (p : Packet) (r : Result),
      s.sectorPresent k = true ∧ s.running 48 = true ∧ s.nextCommit k = some (h, p) ∧ s.pkt? h = some p ∧
      p.accepted = true ∧ p.retireNo = some n ∧ p.result = some r ∧ p.filterCounts = [] ∧
      (∀ m, (s.keeper k).lastCommit = some m → m < n) ∧ (∀ e ∈ r.effects, ∃ i x, e = .cntAdd i x)) ∧
    (∃ (s : State) (k : Nat) (h : Nat) (n : Nat) (m : Nat) (p : Packet),
      s.sectorPresent k = true ∧ s.running 48 = true ∧ s.nextCommit k = some (h, p) ∧ p.accepted = true ∧
      p.retireNo = some n ∧ (s.keeper k).lastCommit = some m ∧ n ≤ m) ∧
    (∃ (s : State) (k : Nat) (q : Nat) (n : Nat) (cells : Nat) (frame : List Byte) (p : Packet),
      k < 16 ∧ s.running 48 = true ∧ n = (tgetD s.fr.postcards k {}).records.length ∧ 0 < n ∧
      s.reg Ix.postcardFlush 0 * 65536000 ≤ s.since (tgetD s.fr.postcards k {}).first ∧ q = s.reg Ix.postcardDest (k + 1) ∧
      frame = leBytes 12 (s.reg Ix.postcardMac 0) ++ beBytes 2 (s.reg Ix.postcardEthertype 0) ++ [1#8] ++ leBytes 1 n ++ (tgetD s.fr.postcards k {}).records.flatten ∧
      cells = (frame.length + 4 + 255) / 256 ∧ p = s.ownPacket frame (s.lowestFree cells) q) :=
  ⟨⟨(up [48]).setPkt 9
     ({ packet 480 15 .atKeeper with result := some ⟨List.replicate 64 0, [], [.cntAdd 4063231 1], none, 0, 0, 2, 5, 15, 0, 0⟩ }),
     15, 9, { packet 480 15 .atKeeper with result := some ⟨List.replicate 64 0, [], [.cntAdd 4063231 1], none, 0, 0, 2, 5, 15, 0, 0⟩ },
     by decide +kernel⟩,
   ⟨regs ((up [48]).setPkt 9
     ({ packet 480 15 .atKeeper with result := some ⟨List.replicate 64 0, [], [], none, 0, 0, 2, 5, 15, 0, 0⟩ }))
     [(Ix.surveyEnable, 0, 0)], 15, 9,
     { packet 480 15 .atKeeper with result := some ⟨List.replicate 64 0, [], [], none, 0, 0, 2, 5, 15, 0, 0⟩ },
     ⟨List.replicate 64 0, [], [], none, 0, 0, 2, 5, 15, 0, 0⟩, by decide +kernel⟩,
   ⟨((up [48]).setPkt 9
     ({ packet 480 15 .retired with result := some ⟨List.replicate 64 0, [], [.cntAdd 4063231 1], none, 0, 0, 2, 5, 15, 0, 0⟩, retireNo := some 7 })).setKeeper
     15 { lastCommit := some 6 }, 15, 9, 7,
     { packet 480 15 .retired with result := some ⟨List.replicate 64 0, [], [.cntAdd 4063231 1], none, 0, 0, 2, 5, 15, 0, 0⟩, retireNo := some 7 },
     ⟨List.replicate 64 0, [], [.cntAdd 4063231 1], none, 0, 0, 2, 5, 15, 0, 0⟩,
   by decide +kernel, by decide +kernel, by decide +kernel, by decide +kernel, by decide +kernel, by decide +kernel,
     by decide +kernel, by decide +kernel, by intro m hm; cases hm; decide, by intro e he; simp at he; exact ⟨_, _, he⟩⟩,
   ⟨((up [48]).setPkt 9
     ({ packet 480 15 .retired with result := some ⟨List.replicate 64 0, [], [.cntAdd 4063231 1], none, 0, 0, 2, 5, 15, 0, 0⟩, retireNo := some 7 })).setKeeper
     15 { lastCommit := some 7 }, 15, 9, 7, 7,
     { packet 480 15 .retired with result := some ⟨List.replicate 64 0, [], [.cntAdd 4063231 1], none, 0, 0, 2, 5, 15, 0, 0⟩, retireNo := some 7 },
     by decide +kernel⟩,
   ⟨at_ ({ up [48] with fr := { postcards := [(15, { records := [[]] })] } }) 6553600000, 15, 0, 1, 1,
     List.replicate 12 0 ++ [0, 0, 1, 1],
     (at_ ({ up [48] with fr := { postcards := [(15, { records := [[]] })] } }) 6553600000).ownPacket (List.replicate 12 0
     ++ [0, 0, 1, 1]) ((at_ ({ up [48] with fr := { postcards := [(15, { records := [[]] })] } }) 6553600000).lowestFree 1) 0,
   by decide +kernel, by decide +kernel, by decide +kernel, by decide +kernel, by decide +kernel, by decide +kernel,
     by decide +kernel, rfl, rfl⟩⟩

theorem wit_AwlAndRigFaults :
    (∃ (s : State) (w : Nat) (r : Nat) (h : Nat) (p : Packet),
      s.sectorPresent (w / 256) = true ∧ r = w / 256 ∧ s.running (State.rigIsland r) = true ∧ (s.awl w).fenced = false ∧
      (s.awl w).pkt = some h ∧ s.pkt? h = some p ∧ s.reg Ix.awlsFenced (r + 1) + 1 < s.reg Ix.rigFenceLimit (r + 1)) ∧
    (∃ (s : State) (w : Nat) (h : Nat) (p : Packet),
      s.sectorPresent (w / 256) = true ∧ s.watchdogLimit w < (s.awl w).cycles ∧ (s.awl w).pkt = some h ∧
      s.pkt? h = some p ∧ s.sectorPresent p.home = true) ∧
    (∃ (s : State) (r : Nat),
      s.sectorPresent r = true ∧ s.running (State.rigIsland r) = true ∧ s.reg Ix.rigAutoReset (r + 1) = 0) :=
  ⟨⟨regs (((up [47]).setPkt 9 (packet 480 15 (.onAwl 4095))).setAwl 4095 { pkt := some 9 }) [(Ix.awlsFenced, 16, 6)], 4095,
     15, 9, packet 480 15 (.onAwl 4095),
   by decide +kernel, rfl, by decide +kernel, by decide +kernel, by decide +kernel, by decide +kernel, by decide +kernel⟩,
   ⟨((up [47]).setPkt 9 (packet 480 15 (.onAwl 4095))).setAwl 4095 { pkt := some 9, cycles := 1000000000 }, 4095, 9,
     packet 480 15 (.onAwl 4095), by decide +kernel⟩,
   ⟨regs (up [47]) [(Ix.rigAutoReset, 16, 0)], 15, by decide +kernel⟩⟩

theorem wit_ExactMatchTable :
    (∃ (s : State) (t : Nat) (key : Nat) (data : Nat) (record : List Byte),
      t < 64 ∧ record.length = 32 ∧ record = leBytes 16 key ++ leBytes 8 data ++ leBytes 8 0 ∧ key < 2 ^ 128 ∧
      data < 2 ^ 64 ∧ s.inReset 49 = false ∧ s.xmBits t ≠ 0 ∧
      (s.xmFind t key ≠ none ∨ (s.xmTable t).entries.length < s.reg Ix.xmCapacity (t + 1))) ∧
    (∃ (s : State) (t : Nat) (key : Nat) (data : Nat) (record : List Byte),
      t < 64 ∧ record = leBytes 16 key ++ leBytes 8 data ++ leBytes 8 1 ∧ key < 2 ^ 128 ∧ data < 2 ^ 64 ∧
      s.inReset 49 = false) ∧
    (∃ (s : State) (t : Nat),
      t < 64 ∧ 0 < s.reg Ix.xmAgeTime (t + 1) ∧
      (s.xmTable t).t0 + s.reg Ix.xmAgeTime (t + 1) * 65536000000000 ≤ s.rawTotal) :=
  ⟨⟨regs (up [49]) [(Ix.xmKeyBits, 64, 128), (Ix.xmCapacity, 64, 1)], 63, 2 ^ 128 - 1, 5,
     leBytes 16 (2 ^ 128 - 1) ++ leBytes 8 5 ++ leBytes 8 0,
   by decide +kernel, by decide +kernel, rfl, by decide +kernel, by decide +kernel, by decide +kernel, by decide +kernel,
     by decide +kernel⟩,
   ⟨up [49], 63, 0, 2 ^ 64 - 1, leBytes 16 0 ++ leBytes 8 (2 ^ 64 - 1) ++ leBytes 8 1,
   by decide +kernel, rfl, by decide +kernel, by decide +kernel, by decide +kernel⟩,
   ⟨at_ (regs (up [49]) [(Ix.xmAgeTime, 64, 1)]) 65536000000000, 63, by decide +kernel⟩⟩

theorem wit_ProgramLoading :
    (∃ (s : State),
      s.reg Ix.programStatus 0 ≠ 1 ∧ s.reg Ix.programStatus 0 ≠ 3) ∧
    (∃ (s : State),
      s.reg Ix.programStatus 0 ≠ 1 ∧ s.reg Ix.programStatus 0 ≠ 3) ∧
    (∃ (s : State),
      (s.reg Ix.programStatus 0 = 1 ∨ s.reg Ix.programStatus 0 = 3)) ∧
    (∃ (s : State) (im : List Byte),
      s.rg.progs.checking = some im ∧ s.imageFault im = none) ∧
    (∃ (s : State) (im : List Byte) (cause : Nat) (off : Nat),
      s.rg.progs.checking = some im ∧ s.imageFault im = some (cause, off)) :=
  ⟨⟨up [], by decide +kernel⟩,
   ⟨up [], by decide +kernel⟩,
   ⟨regs (up []) [(Ix.programStatus, 0, 3)], by decide +kernel⟩,
   ⟨{ up [] with rg := { progs := { checking := some yldImage } } }, yldImage, by decide +kernel⟩,
   ⟨{ up [] with rg := { progs := { checking := some (List.replicate 64 0) } } }, List.replicate 64 0, 1, 0,
     by decide +kernel⟩⟩

theorem wit_TxSelection :
    (∃ (s : State) (u : State) (p : Nat) (c : Nat) (d : QCopy) (k : Packet),
      s.portPresent p = true ∧ s.portUp p = true ∧ s.awake p = true ∧
      u = (List.range 8).foldl (fun t c => t.noteDeferral p c) ((s.sendReplies p).dropBadHeads p) ∧
      u.preemptActive p = false ∧ u.txCopy? p = none ∧ u.txCopy? (512 + p) = none ∧ c < 8 ∧ u.eligible p c = true ∧
      (u.expressClass p c = true ∨ (u.gate p).hold = false) ∧ (∀ e, c < e → e < 8 → u.eligible p e = false) ∧
      u.headOf (8 * p + c) = some (d, k)) ∧
    (∃ (s : State) (p : Nat) (pre : Bool) (x : TxCopy) (k : Packet) (data : List Byte),
      s.portPresent p = true ∧ s.txCopy? (State.macKey p pre) = some x ∧ s.pkt? x.copy.pkt = some k ∧ s.mayEnd x = true ∧
      data = (if x.stomp then (x.bytes ++ k.tail).take (x.cutAt.getD (x.bytes ++ k.tail).length) else x.bytes ++ k.tail)) :=
  ⟨⟨((upPort (up []) 511).setPkt 9 (packet 0 0 .retired)).setQueue 4088 [⟨9, 0, ⟨4088, false, false⟩, 3, 0, false, false,
     0xFFFF, 0, false⟩],
     (List.range 8).foldl (fun t c => t.noteDeferral 511 c) ((((((upPort (up []) 511).setPkt 9 (packet 0 0
     .retired)).setQueue 4088 [⟨9, 0, ⟨4088, false, false⟩, 3, 0, false, false, 0xFFFF, 0,
     false⟩])).sendReplies 511).dropBadHeads 511), 511, 0, ⟨9, 0, ⟨4088, false, false⟩, 3, 0, false, false, 0xFFFF, 0,
     false⟩, packet 0 0 .retired,
   by decide +kernel, by decide +kernel, by decide +kernel, rfl, by decide +kernel, by decide +kernel, by decide +kernel,
     by decide +kernel, by decide +kernel, by decide +kernel,
     by intro e h1 h2; revert h1; revert h2; revert e; decide +kernel, by decide +kernel⟩,
   ⟨{ (upPort (up []) 511).setPkt 9 (packet 0 0 .retired) with fr := { ((upPort (up []) 511).setPkt 9 (packet 0 0 .retired)).fr with tx := [(511, ⟨⟨9, 0, ⟨4088, false, false⟩, 3, 0, false, false, 0xFFFF, 0, false⟩, 4088, List.replicate 64 0, 0, 0, 0, 0, 64, false, false, none, false, false, false⟩)] } },
     511, false, ⟨⟨9, 0, ⟨4088, false, false⟩, 3, 0, false, false, 0xFFFF, 0, false⟩, 4088, List.replicate 64 0, 0, 0, 0,
     0, 64, false, false, none, false, false, false⟩, packet 0 0 .retired, List.replicate 64 0,
   by decide +kernel, by decide +kernel, by decide +kernel, by decide +kernel, rfl⟩⟩

theorem wit_GateSchedules :
    (∃ (s : State) (p : Nat),
      s.portPresent p = true ∧ s.running (State.portIsland p) = true ∧ s.entryDue p = true) ∧
    (∃ (s : State) (p : Nat) (x : Schedule),
      s.portPresent p = true ∧ s.running (State.portIsland p) = true ∧ (s.gate p).pending = some x ∧
      ((s.gate p).change : Int) * 65536 ≤ s.gateSync p x.domain) ∧
    (∃ (s : State) (p : Nat) (d : Int),
      s.portPresent p = true ∧ s.running (State.portIsland p) = true ∧ (s.gate p).hold = false ∧ s.gateEnabled p = true ∧
      s.holdAhead p = some d ∧ s.txCopy? (512 + p) = none) ∧
    (∃ (s : State) (g : Nat),
      s.streamGatePresent g = true ∧ s.running (gateIsland (512 + g)) = true ∧ s.changeDue (512 + g) = false ∧
      s.entryDue (512 + g) = true) ∧
    (∃ (s : State) (g : Nat),
      s.streamGatePresent g = true ∧ s.inReset (gateIsland (512 + g)) = true ∧
      (s.island (gateIsland (512 + g))).pend.length < 256) ∧
    (∃ (s : State) (g : Nat),
      s.streamGatePresent g = true ∧ s.inReset (gateIsland (512 + g)) = false) ∧
    (∃ (s : State) (p : Nat),
      s.portPresent p = true ∧ s.gateWakeDue p = true ∧ (s.portLink p).asleep = true) :=
  ⟨⟨(regs (upPort (up []) 511) [(Ix.gateEnable, 512,
     1)]).setGate 511 { oper := some { cycle := 1000, entries := [1000 + 0x55 * 4294967296] } }, 511, by decide +kernel⟩,
   ⟨at_ ((upPort (up []) 511).setGate 511
     { pending := some { cycle := 1000, entries := [1000 + 0x55 * 4294967296] }, change := 1 }) 65536, 511,
     { cycle := 1000, entries := [1000 + 0x55 * 4294967296] }, by decide +kernel⟩,
   ⟨(regs (upPort (up []) 511) [(Ix.gateEnable, 512, 1), (Ix.pmacHoldAdvance, 512,
     5)]).setGate 511 { oper := some { cycle := 1000, entries := [5 + 0x55 * 4294967296, 995 + 0x01AA * 4294967296] } },
     511, 327680, by decide +kernel⟩,
   ⟨(regs (up [31]) [(Ix.streamGateEnable, 16384,
     1)]).setGate 16895 { oper := some { cycle := 1000, entries := [1000 + 0x55 * 4294967296] } }, 16383, by decide +kernel⟩,
   ⟨up [], 16383, by decide +kernel⟩,
   ⟨up [31], 16383, by decide +kernel⟩,
   ⟨((regs (upPort (up []) 511) [(Ix.gateEnable, 512, 1), (Ix.gateWakeClasses, 512,
     255)]).setGate 511
     { oper := some { cycle := 1000, entries := [5 + 0x55 * 4294967296, 995 + 0x01AA * 4294967296] } }).setPortLink 511
     { asleep := true }, 511, by decide +kernel⟩⟩

theorem wit_QueueSampling :
    (∃ (s : State),
      s.running 48 = true ∧ s.reg Ix.queueSamplePeriod 0 ≠ 0 ∧
      s.fr.sampling.last.toNat / (s.reg Ix.queueSamplePeriod 0 * 65536) ≠ s.raw.toNat / (s.reg Ix.queueSamplePeriod 0 * 65536) ∧
      s.fr.sampling.samples + 1 < s.reg Ix.queueSampleWindow 0) ∧
    (∃ (s : State),
      s.running 48 = true ∧ s.reg Ix.queueSamplePeriod 0 ≠ 0 ∧
      s.fr.sampling.last.toNat / (s.reg Ix.queueSamplePeriod 0 * 65536) ≠ s.raw.toNat / (s.reg Ix.queueSamplePeriod 0 * 65536) ∧
      s.reg Ix.queueSampleWindow 0 ≤ s.fr.sampling.samples + 1) ∧
    (∃ (s : State) (which : Nat) (idx : Nat) (lo : Nat) (hi : Nat) (value : Nat),
      State.samplingParam which = some (idx, lo, hi) ∧ lo ≤ value ∧ value ≤ hi) ∧
    (∃ (s : State) (which : Nat) (idx : Nat) (lo : Nat) (hi : Nat) (value : Nat),
      State.samplingParam which = some (idx, lo, hi) ∧ (value < lo ∨ hi < value)) :=
  ⟨⟨at_ (regs (up [48]) [(Ix.queueSampleWindow, 0, 2)]) 655360000000, by decide +kernel⟩,
   ⟨at_ (regs (up [48]) [(Ix.queueSampleWindow, 0, 1)]) 655360000000, by decide +kernel⟩,
   ⟨up [48], 2, Ix.queueHistBase, 1, 1000000, 1000000, by decide +kernel⟩,
   ⟨up [48], 0, Ix.queueSamplePeriod, 100, 1000000000, 99, by decide +kernel⟩⟩

theorem wit_RecoveryAlgorithms :
    ∃ (s : State) (t : State) (f : Nat) (num : Nat) (h : Nat) (last : Nat) (hist : Nat) (d : Int),
      bit (s.recoverField f 0 1) 7 = true ∧ h = s.recoverField f 1 1 ∧ 2 ≤ h ∧ h ≤ 64 ∧ last = s.recoverField f 16 2 ∧
      hist = s.recoverField f 20 8 ∧ num < 65536 ∧ d = toSigned 16 (ofSigned 16 ((num : Int) - last)) :=
  ⟨(up [50]).setRecord Ix.recoveryFunc 0 262143 (leNat [128, 64, 0, 0, 0, 0, 0, 0, 0, 0, 0, 0, 0, 0, 0, 0, 255, 255]),
     ((up [50]).setRecord Ix.recoveryFunc 0 262143 (leNat [128, 64, 0, 0, 0, 0, 0, 0, 0, 0, 0, 0, 0, 0, 0, 0, 255, 255])),
     262143, 0, 64, 65535, 0, 1, by decide +kernel⟩

theorem wit_RecoveryRecords :
    (∃ (s : State) (f : Nat),
      f < 262144 ∧ s.recoveryValid f = true ∧ (s.recovery f).timerRunning = true ∧ s.recoverField f 4 2 ≠ 0 ∧
      s.recoverField f 4 2 * 65536000000 ≤ s.since (s.recovery f).lastPass) ∧
    (∃ (s : State) (f : Nat),
      f < 262144 ∧ s.recoveryValid f = true) ∧
    (∃ (s : State) (f : Nat),
      f < 262144 ∧ s.recoveryValid f = false) ∧
    (∃ (s : State) (f : Nat),
      262144 ≤ f) ∧
    (∃ (s : State) (f : Nat) (r : List Byte),
      f < 262144 ∧ r.length = 32 ∧ State.recoveryRecordOk r = true ∧ s.inReset 50 = false) ∧
    (∃ (s : State) (f : Nat) (r : List Byte),
      f < 262144 ∧ r.length = 32 ∧ State.recoveryRecordOk r = false) ∧
    (∃ (s : State) (f : Nat) (n : Nat),
      f < 262144 ∧ n < 65536 ∧ s.inReset 49 = false) ∧
    (∃ (s : State) (f : Nat),
      f < 262144 ∧ s.latentOn f = true ∧ (s.recovery f).testFrom + s.recoverField f 8 4 * 65536000000 ≤ s.rawTotal ∧
      toSigned 32 (s.recoverField f 28 4) ≤ (s.recoverField f 6 2 : Int)) ∧
    (∃ (s : State) (f : Nat),
      f < 262144 ∧ s.latentOn f = true ∧ (s.recovery f).testFrom + s.recoverField f 8 4 * 65536000000 ≤ s.rawTotal ∧
      (s.recoverField f 6 2 : Int) < toSigned 32 (s.recoverField f 28 4)) ∧
    (∃ (s : State) (f : Nat),
      f < 262144 ∧ s.latentOn f = true ∧ s.rawTotal < (s.recovery f).testFrom + s.recoverField f 8 4 * 65536000000 ∧
      (s.recovery f).resetFrom + s.recoverField f 12 4 * 65536000000 ≤ s.rawTotal) ∧
    (∃ (s : State) (f : Nat),
      f < 262144 ∧ s.latentOn f = true ∧ (s.recovery f).testFrom + s.recoverField f 8 4 * 65536000000 ≤ s.rawTotal ∧
      (s.recovery f).resetFrom + s.recoverField f 12 4 * 65536000000 ≤ s.rawTotal) :=
  ⟨⟨at_ (((up [50]).setRecord Ix.recoveryFunc 0 262143 (leNat [128, 2, 0, 0,
     1])).setRecovery 262143 { timerRunning := true }) 65536000000, 262143, by decide +kernel⟩,
   ⟨(up [50]).setRecord Ix.recoveryFunc 0 262143 (leNat [128, 2, 0, 0, 1]), 262143, by decide +kernel⟩,
   ⟨up [], 262143, by decide +kernel⟩,
   ⟨up [], 262144, by decide +kernel⟩,
   ⟨up [50], 262143, [0x87, 64, 8, 0, 1, 0, 0, 0, 1, 0, 0, 0, 1] ++ List.replicate 19 0, by decide +kernel⟩,
   ⟨up [50], 0, [0x80, 1] ++ List.replicate 30 0, by decide +kernel⟩,
   ⟨up [49], 262143, 65535, by decide +kernel⟩,
   ⟨at_ ((up [50]).setRecord Ix.recoveryFunc 0 262143 (leNat [132, 2, 2, 0, 0, 0, 0, 0, 1, 0, 0, 0, 2])) 65536000000,
     262143, by decide +kernel⟩,
   ⟨at_ ((up [50]).setRecord Ix.recoveryFunc 0 262143 (leNat [132, 2, 2, 0, 0, 0, 0, 0, 1, 0, 0, 0, 2, 0, 0, 0, 0, 0, 0, 0,
     0, 0, 0, 0, 0, 0, 0, 0, 1])) 65536000000, 262143, by decide +kernel⟩,
   ⟨at_ (((up [50]).setRecord Ix.recoveryFunc 0 262143 (leNat [132, 2, 2, 0, 0, 0, 0, 0, 1, 0, 0, 0,
     2])).setRecovery 262143 { testFrom := 131072000000 }) 131072000000, 262143, by decide +kernel⟩,
   ⟨at_ ((up [50]).setRecord Ix.recoveryFunc 0 262143 (leNat [132, 2, 2, 0, 0, 0, 0, 0, 1, 0, 0, 0, 2])) 131072000000,
     262143, by decide +kernel⟩⟩

theorem wit_GuaranteeAndRetainingReset :
    (∃ (s : State),
      s.sy.hold = none ∧ (s.reg Ix.startPhase 0 = 3 ∨ s.sy.retaining = true)) ∧
    (∃ (s : State),
      s.sy.hold = none ∧ s.reg Ix.startPhase 0 ≠ 3 ∧ s.sy.retaining = false) ∧
    (∃ (s : State) (h : Hold),
      s.sy.hold = some h) ∧
    (∃ (s : State),
      s.sy.retaining = true ∧ s.sy.rstLow = false ∧ s.sy.held = [] ∧ s.sy.heldReads = [] ∧ s.co.waiting = []) ∧
    (∃ (s : State) (links : List (Nat × Nat)) (handles : List Nat),
      s.sy.retaining = true ∧ s.sy.rstLow = true) :=
  ⟨⟨up [], by decide +kernel⟩,
   ⟨regs (up []) [(Ix.startPhase, 0, 2)], by decide +kernel⟩,
   ⟨State.reset, .porn, by decide +kernel⟩,
   ⟨{ up [] with sy := { hold := none, retaining := true } }, by decide +kernel⟩,
   ⟨{ up [] with sy := { hold := none, retaining := true, rstLow := true } }, [], [], by decide +kernel⟩⟩

theorem wit_RetakeKeepsSyncTime :
    (∃ (c : Correction) (r : Raw) (x : Raw),
      (x - c.pivot).toInt = (r - c.pivot).toInt + (x - r).toInt) ∧
    (∃ (s : State) (u : State) (d : Nat),
      d < 4 ∧ u = s.switchDomain d) :=
  ⟨⟨{ pivot := 18446744073709551615 }, 0, 5, by decide +kernel⟩,
   ⟨up [], ((up [])).switchDomain 3, 3,
   by decide +kernel, rfl⟩⟩

theorem wit_CorrectionSwitch :
    (∃ (s : State) (d : Nat) (r : Raw) (c : Correction) (rest : List (Raw × Correction)),
      d < 4 ∧ (s.dom d).queue = (r, c) :: rest ∧ 0 ≤ (s.raw - r).toInt ∧ (∀ e ∈ rest, (s.raw - e.1).toInt < 0) ∧
      (∀ g, g < 16 → (s.group g).armed = none) ∧ (∀ n, n < 32 → (s.pin n).next = none) ∧ c.at r = (s.dom d).corr.at r) ∧
    (∃ (s : State) (d : Nat),
      d < 4 ∧ (∀ e ∈ (s.dom d).queue, (s.raw - e.1).toInt < 0)) :=
  ⟨⟨at_ ((up []).setDom 3 { queue := [(65536, { pivot := 65536, sync := 65536 })] }) 65536, 3, 65536,
     { pivot := 65536, sync := 65536 }, [],
   by decide +kernel, by decide +kernel, by decide +kernel, by decide +kernel, by decide +kernel,
     by intro n hn; revert hn; revert n; decide +kernel, by decide +kernel⟩,
   ⟨(up []).setDom 3 { queue := [(65536, { pivot := 65536, sync := 65536 })] }, 3, by decide +kernel⟩⟩

theorem wit_TimeCommands :
    (∃ (s : State) (d : Nat) (v : Nat),
      d < 4 ∧ v / 65536 % 4294967296 < 1000000000) ∧
    (∃ (s : State) (d : Nat) (v : Nat),
      d < 4 ∧ 1000000000 ≤ v / 65536 % 4294967296) ∧
    (∃ (s : State) (d : Nat),
      d < 4) ∧
    (∃ (s : State) (d : Nat),
      d < 4) ∧
    (∃ (s : State) (d : Nat) (v : Int),
      d < 4 ∧ -549755813888 ≤ v ∧ v ≤ 549755813887 ∧ s.domState d ≠ 0) ∧
    (∃ (s : State) (d : Nat) (v : Int),
      d < 4 ∧ -549755813888 ≤ v ∧ v ≤ 549755813887 ∧ s.domState d = 0 ∧ (s.dom d).slew = 0 ∧ (s.dom d).part = 0) ∧
    (∃ (s : State) (d : Nat) (v : Int),
      d < 4 ∧ (v < -549755813888 ∨ 549755813887 < v)) ∧
    (∃ (s : State) (d : Nat),
      d < 4 ∧ s.slewDone d = true) :=
  ⟨⟨up [], 3, 999999999 * 65536, by decide +kernel⟩,
   ⟨up [], 3, 1000000000 * 65536, by decide +kernel⟩,
   ⟨up [], 3, by decide +kernel⟩,
   ⟨up [], 3, by decide +kernel⟩,
   ⟨regs (up []) [(Ix.timeDomainState, 4, 3)], 3, -549755813888, by decide +kernel⟩,
   ⟨up [], 3, 549755813887, by decide +kernel⟩,
   ⟨up [], 3, 549755813888, by decide +kernel⟩,
   ⟨at_ ((up []).setDom 3 { slew := 1, part := -1 }) 1, 3, by decide +kernel⟩⟩

theorem wit_ServoSteps :
    (∃ (s : State) (d : Nat) (theta : Int) (delay : Int) (rest : List (Int × Int)),
      d < 4 ∧ s.domState d ≠ 4 ∧ (s.reg Ix.servoSource (d + 1) = 2 ∨ s.reg Ix.servoSource (d + 1) = 3) ∧
      (s.dom d).offered = (theta, delay) :: rest ∧ (s.servo d).hasSample = true ∧
      s.since (s.servo d).lastAccepted < 512000000000) ∧
    (∃ (s : State) (d : Nat) (theta : Int) (delay : Int) (rest : List (Int × Int)),
      d < 4 ∧ s.domState d ≠ 4 ∧ (s.reg Ix.servoSource (d + 1) = 2 ∨ s.reg Ix.servoSource (d + 1) = 3) ∧
      (s.dom d).offered = (theta, delay) :: rest ∧
      (((s.servo d).hasSample = false ∨ 512000000000 ≤ s.since (s.servo d).lastAccepted) ∧ (s.servo d).settling = none ∧ ((s.servo d).detector = false ∨ (s.servo d).settled = true))) ∧
    (∃ (s : State) (d : Nat) (p : Nat) (theta : Int) (delay : Int) (alt : Bool),
      d < 4 ∧ s.domState d ≠ 4 ∧ s.reg Ix.servoSource (d + 1) = 1 ∧ s.reg Ix.timeRole (d + 1) = 1 ∧
      s.pathPort d alt = some p ∧ alt = s.onAlt d ∧ s.reg Ix.servoAltPort (d + 1) = 0xFFFF ∧
      (s.stampsValid p d = false ∨ ((s.servo d).hasSample = true ∧ s.since (s.servo d).lastAccepted < 512000000000))) ∧
    (∃ (s : State) (d : Nat) (p : Nat) (theta : Int) (delay : Int) (alt : Bool),
      d < 4 ∧ s.domState d ≠ 4 ∧ s.reg Ix.servoSource (d + 1) = 1 ∧ s.reg Ix.timeRole (d + 1) = 1 ∧
      s.pathPort d alt = some p ∧ alt = s.onAlt d ∧ s.reg Ix.servoAltPort (d + 1) = 0xFFFF ∧ s.stampsValid p d = true ∧
      (((s.servo d).hasSample = false ∨ 512000000000 ≤ s.since (s.servo d).lastAccepted) ∧ (s.servo d).settling = none ∧ ((s.servo d).detector = false ∨ (s.servo d).settled = true))) ∧
    (∃ (s : State) (d : Nat) (x : ServoInput),
      d < 4 ∧ s.domState d = 4) ∧
    (∃ (s : State) (d : Nat),
      d < 4 ∧ (s.domState d = 1 ∨ s.domState d = 2) ∧
      s.reg Ix.servoHoldoverTimeout (d + 1) * 65536000000 ≤ s.since (s.dom d).quietSince) ∧
    (∃ (s : State) (d : Nat),
      d < 4 ∧ bit (s.reg Ix.timeFlags (d + 1)) 0 = false ∧
      s.reg Ix.holdoverLimit (d + 1) * 65536000000000 ≤ s.since (s.dom d).enteredAt ∧
      s.reg Ix.holdoverLimit (d + 1) * 65536000000000 ≤ s.since (s.dom d).quietSince) ∧
    (∃ (s : State) (d : Nat),
      d < 4 ∧ s.reg Ix.silenceHoldover (d + 1) ≠ 0 ∧ s.reg Ix.silenceThreshold (d + 1) ≠ 0 ∧
      (s.domState d = 3 ∨ s.domState d = 4) ∧
      s.reg Ix.silenceHoldover (d + 1) * 65536000000 < s.since (s.dom d).enteredAt ∧ s.reg Ix.silenceState (d + 1) = 0) :=
  ⟨⟨((regs (up []) [(Ix.servoSource, 4, 3)]).setDom 3 { offered := [(5, 7)] }).setServo 3 { hasSample := true }, 3, 5, 7,
     [], by decide +kernel⟩,
   ⟨(regs (up []) [(Ix.servoSource, 4, 3)]).setDom 3 { offered := [(5, 7)] }, 3, 5, 7, [], by decide +kernel⟩,
   ⟨(regs (up []) [(Ix.servoSource, 4, 1), (Ix.timeRole, 4, 1), (Ix.ptpPortDomains, 512, 8), (Ix.ptpPortState, 512,
     3 * 256 ^ 3)]).setPtp 511 3 { syncLost := true }, 3, 511, 5, 7, false,
   by decide +kernel, by decide +kernel, by decide +kernel, by decide +kernel, by decide +kernel, rfl, by decide +kernel,
     by decide +kernel⟩,
   ⟨regs (up []) [(Ix.servoSource, 4, 1), (Ix.timeRole, 4, 1), (Ix.ptpPortDomains, 512, 8), (Ix.ptpPortState, 512,
     3 * 256 ^ 3)], 3, 511, 5, 7, false,
   by decide +kernel, by decide +kernel, by decide +kernel, by decide +kernel, by decide +kernel, rfl, by decide +kernel,
     by decide +kernel, by decide +kernel⟩,
   ⟨(up []).setReg Ix.timeDomainState 4 4, 3, .offered, by decide +kernel⟩,
   ⟨at_ (regs (up []) [(Ix.timeDomainState, 4, 2), (Ix.servoHoldoverTimeout, 4, 1)]) 65536000000, 3, by decide +kernel⟩,
   ⟨at_ (regs (up []) [(Ix.holdoverLimit, 4, 1)]) 65536000000000, 3, by decide +kernel⟩,
   ⟨at_ (regs (up []) [(Ix.timeDomainState, 4, 4), (Ix.silenceHoldover, 4, 1), (Ix.silenceThreshold, 4, 1)]) 65536000001,
     3, by decide +kernel⟩⟩

theorem wit_TimeProtocol :
    (∃ (s : State) (p : Nat),
      s.portPresent p = true ∧ s.inReset (p / 32) = false) ∧
    (∃ (s : State) (p : Nat),
      s.portPresent p = true ∧ s.reg Ix.tsCalStatus (p + 1) = 1) ∧
    (∃ (s : State) (p : Nat) (delays : List (Nat × Nat)),
      s.portPresent p = true ∧ s.reg Ix.tsCalStatus (p + 1) = 1) ∧
    (∃ (s : State) (p : Nat) (d : Nat) (frame : List Byte) (m : List Byte) (capture : Raw) (pipe : Int) (taken : List OnWire) (delay : Option Int),
      s.portPresent p = true ∧ s.portUp p = true ∧ s.timeMessage p frame = some (d, m) ∧
      (s.supervisorUp = false ∨ 1024 ≤ s.tm.waiting.length)) ∧
    (∃ (s : State) (p : Nat) (d : Nat) (frame : List Byte) (m : List Byte) (capture : Raw) (pipe : Int) (delay : Option Int),
      s.portPresent p = true ∧ s.portUp p = true ∧ s.timeMessage p frame = some (d, m) ∧ s.supervisorUp = true ∧
      s.tm.waiting.length < 1024) ∧
    (∃ (s : State) (t : State) (p : Nat) (d : Nat) (frame : List Byte) (m : List Byte) (capture : Raw) (pipe : Int) (taken : List OnWire) (delay : Option Int) (e : OnWire) (x : TimeMsg) (rest : List TimeMsg),
      s.portPresent p = true ∧ s.portUp p = true ∧ s.timeMessage p frame = some (d, m) ∧ s.supervisorUp = true ∧
      s.tm.waiting.length < 1024 ∧ exec (.timeMessageReceive p frame ⟨capture, pipe, taken⟩ delay) s = .next t ∧
      t.tm.waiting = x :: rest ∧ t.asks x = false) ∧
    (∃ (s : State) (p : Nat) (d : Nat) (launch : Raw) (pipe : Int),
      s.portPresent p = true ∧ d < 4 ∧ s.engineMay p d = true ∧ s.ptpState p d = 2 ∧ s.quorumHolds d = true ∧
      s.domState d ≠ 4 ∧ s.sendDue (s.ptp p d).sentSync (s.intervalNs Ix.ptpSyncInterval p) = true ∧
      s.canEmit p (s.timeOpen p (s.ptpClass p)) = true) ∧
    (∃ (s : State) (p : Nat) (d : Nat),
      s.portPresent p = true ∧ d < 4 ∧ (s.quorumHolds d = false ∨ s.domState d = 4)) ∧
    (∃ (s : State) (p : Nat) (d : Nat),
      s.portPresent p = true ∧ d < 4 ∧ s.engineMay p d = true ∧ s.ptpState p d = 2 ∧
      s.sendDue (s.ptp p d).sentAnnounce (s.intervalNs Ix.ptpAnnounceInterval p) = true ∧
      s.canEmit p (s.timeOpen p (s.ptpClass p)) = true) ∧
    (∃ (s : State) (p : Nat) (d : Nat),
      s.portPresent p = true ∧ d < 4 ∧ s.engineMay p d = true ∧ s.asksDelay p d = true ∧
      s.sendDue (s.ptp p d).sentPdelay (s.intervalNs Ix.ptpPdelayInterval p) = true ∧
      s.canEmit p (s.timeOpen p (s.ptpClass p)) = true) ∧
    (∃ (s : State) (p : Nat) (d : Nat),
      s.portPresent p = true ∧ d < 4 ∧ s.engineMay p d = true ∧ s.reg Ix.quorumEnable (d + 1) ≠ 0 ∧
      s.sendDue (s.ptp p d).sentAnnounce (s.reg Ix.rollPeriod (d + 1) * 1000000) = true ∧
      s.sendDue (s.ptp p d).sentRoll (s.reg Ix.rollPeriod (d + 1) * 1000000) = true ∧
      s.canEmit p (s.timeOpen p (s.ptpClass p)) = true) ∧
    (∃ (s : State) (p : Nat) (d : Nat),
      s.portPresent p = true ∧ d < 4 ∧ s.engineMay p d = true ∧ s.reg Ix.timeRole (d + 1) = 1 ∧ s.portUp p = true ∧
      s.domState d ≠ 4 ∧ 3 * s.intervalNs Ix.ptpAnnounceInterval p * 65536 ≤ s.since (s.ptp p d).lastAnnounce ∧
      ((s.ptp p d).announceSeen = true ∨ s.ptpState p d = 1) ∧ 1 ≤ s.ptpState p d ∧ s.ptpState p d ≤ 4 ∧
      (∀ q, q ≠ p → s.heardAt q d = none)) :=
  ⟨⟨up [15], 511, by decide +kernel⟩,
   ⟨regs (up []) [(Ix.tsCalStatus, 512, 1)], 511, by decide +kernel⟩,
   ⟨regs (upPort (up [15]) 511) [(Ix.tsCalStatus, 512, 1)], 511, [], by decide +kernel⟩,
   ⟨{ regs (upPort (up []) 511) [(Ix.ptpPortDomains, 512, 8)] with sy := { hold := none, superDown := true } }, 511, 3,
     List.replicate 12 0 ++ beBytes 2 0x88F7 ++ [0, 2, 0, 44, 3] ++ List.replicate 39 0, [0, 2, 0, 44,
     3] ++ List.replicate 39 0, 0, 0, [], none, by decide +kernel⟩,
   ⟨regs (upPort (up []) 511) [(Ix.ptpPortDomains, 512, 8)], 511, 3, List.replicate 12 0 ++ beBytes 2 0x88F7 ++ [0, 2, 0,
     44, 3] ++ List.replicate 39 0, [0, 2, 0, 44, 3] ++ List.replicate 39 0, 0, 0, none, by decide +kernel⟩,
   ⟨regs (upPort (up []) 511) [(Ix.ptpPortDomains, 512, 8)],
     nextOf (exec (.timeMessageReceive 511 (List.replicate 12 0 ++ beBytes 2 0x88F7 ++ [0, 2, 0, 44,
     3] ++ List.replicate 39 0) ⟨0, 0, []⟩ none) ((regs (upPort (up []) 511) [(Ix.ptpPortDomains, 512, 8)]))), 511, 3,
     List.replicate 12 0 ++ beBytes 2 0x88F7 ++ [0, 2, 0, 44, 3] ++ List.replicate 39 0, [0, 2, 0, 44,
     3] ++ List.replicate 39 0, 0, 0, [], none, ⟨0, 0⟩, ⟨511, 3, [0, 2, 0, 44, 3] ++ List.replicate 39 0, 0, false, 0,
     none⟩, [],
   by decide +kernel, by decide +kernel, by decide +kernel, by decide +kernel, by decide +kernel,
     eq_next_of_isNext (by decide +kernel), by decide +kernel, by decide +kernel⟩,
   ⟨regs (upPort (up []) 511) [(Ix.timeRole, 4, 1), (Ix.ptpPortDomains, 512, 8), (Ix.ptpPortState, 512, 2 * 256 ^ 3)], 511,
     3, 0, 0, by decide +kernel⟩,
   ⟨at_ (regs (up []) [(Ix.timeRole, 4, 1), (Ix.ptpPortDomains, 512, 8), (Ix.quorumEnable, 4, 1)]) 8192000000000, 511, 3,
     by decide +kernel⟩,
   ⟨regs (upPort (up []) 511) [(Ix.timeRole, 4, 1), (Ix.ptpPortDomains, 512, 8), (Ix.ptpPortState, 512, 2 * 256 ^ 3)], 511,
     3, by decide +kernel⟩,
   ⟨regs (upPort (up []) 511) [(Ix.timeRole, 4, 1), (Ix.ptpPortDomains, 512, 8), (Ix.ptpPortState, 512, 3 * 256 ^ 3)], 511,
     3, by decide +kernel⟩,
   ⟨regs (upPort (up []) 511) [(Ix.timeRole, 4, 1), (Ix.ptpPortDomains, 512, 8), (Ix.quorumEnable, 4, 1)], 511, 3,
     by decide +kernel⟩,
   ⟨at_ (regs (upPort (up []) 511) [(Ix.timeRole, 4, 1), (Ix.ptpPortDomains, 512, 8), (Ix.ptpPortState, 512,
     256 ^ 3)]) 393216000000000, 511, 3,
   by decide +kernel, by decide +kernel, by decide +kernel, by decide +kernel, by decide +kernel, by decide +kernel,
     by decide +kernel, by decide +kernel, by decide +kernel, by decide +kernel, by intro q _; rfl⟩⟩

theorem wit_Quorum :
    (∃ (s : State) (d : Nat),
      d < 4 ∧ s.memberId d < 32 ∧ 1 ≤ (s.quorum d).roll ∧ (s.quorum d).roll ≤ 65535 ∧
      s.reg Ix.rollPeriod (d + 1) * 65536000000 ≤ s.since (s.quorum d).lastRoll) ∧
    (∃ (s : State) (d : Nat) (body : List Byte),
      d < 4 ∧ (body.length < 76 ∨ beField body 0 1 ≠ 1 ∨ beField body 8 4 ≠ s.quorumDigest d)) ∧
    (∃ (s : State) (d : Nat) (body : List Byte),
      d < 4 ∧ 76 ≤ body.length ∧ beField body 0 1 = 1 ∧ beField body 8 4 = s.quorumDigest d) ∧
    (∃ (s : State) (u : State) (d : Nat) (m : Nat),
      d < 4 ∧ m < 32 ∧ m ∈ (s.quorum d).seen ∧
      s.reg Ix.quorumAge (d + 1) * 65536000000 ≤ s.since (tgetD (s.quorum d).rises m 0) ∧
      u = s.setQuorum d { s.quorum d with seen := (s.quorum d).seen.filter (· != m) }) ∧
    (∃ (s : State) (d : Nat),
      s.quorumHolds d = false ∧ s.domState d ≠ 4 ∧ s.reg Ix.quorumState (d + 1) = 1) ∧
    (∃ (s : State) (d : Nat),
      d < 4) :=
  ⟨⟨at_ ((regs (up []) [(Ix.quorumMemberId, 4, 31)]).setQuorum 3 { roll := 65535 }) 65536000000000, 3, by decide +kernel⟩,
   ⟨regs (up []) [(Ix.quorumEnable, 4, 1)], 3, List.replicate 75 0, by decide +kernel⟩,
   ⟨regs (up []) [(Ix.quorumEnable, 4, 1)], 3, [1] ++ List.replicate 7 0 ++ beBytes 4 ((regs (up []) [(Ix.quorumEnable, 4,
     1)]).quorumDigest 3) ++ List.replicate 64 0, by decide +kernel⟩,
   ⟨at_ ((up []).setQuorum 3 { seen := [31] }) 32768000000000,
     (at_ ((up []).setQuorum 3 { seen := [31] }) 32768000000000).setQuorum 3
     { (at_ ((up []).setQuorum 3 { seen := [31] }) 32768000000000).quorum 3 with seen := ((at_ ((up []).setQuorum 3 { seen := [31] }) 32768000000000).quorum 3).seen.filter (· != 31) },
     3, 31,
   by decide +kernel, by decide +kernel, by decide +kernel, by decide +kernel, rfl⟩,
   ⟨regs (up []) [(Ix.quorumEnable, 4, 1), (Ix.quorumState, 4, 1)], 3, by decide +kernel⟩,
   ⟨up [], 3, by decide +kernel⟩⟩

theorem wit_TimePins :
    (∃ (s : State) (n : Nat) (k : Nat) (r : Int),
      n < 32 ∧ s.tioMode n ≠ 4 ∧ (s.pin n).next = some (k, r) ∧ r ≤ (s.rawTotal : Int)) ∧
    (∃ (s : State) (n : Nat) (k : Nat) (r : Int),
      n < 32 ∧ s.tioMode n ≠ 4 ∧ (s.pin n).next = some (k, r) ∧ (s.rawTotal : Int) < r) ∧
    (∃ (s : State) (n : Nat) (x : Raw),
      n < 32 ∧ s.tioMode n = 4 ∧ s.pinEventAt n x = true ∧ 0 ≤ s.dueBy x) ∧
    (∃ (s : State) (n : Nat) (r : Raw),
      n < 32 ∧ (s.pin n).fallAt = some r ∧ 0 ≤ s.dueBy r) ∧
    (∃ (s : State) (n : Nat) (x : Raw) (ts : Raw) (rising : Bool),
      n < 32 ∧ s.captures n rising = true ∧ ts = s.captureTime n x ∧
      (∀ l, (s.pin n).lastEdge = some l → 524288 ≤ (ts - l).toNat) ∧ (s.pin n).fifo.length < 16) ∧
    (∃ (s : State) (n : Nat) (x : Raw) (rising : Bool),
      n < 32 ∧ s.captures n rising = true ∧
      (16 ≤ (s.pin n).fifo.length ∨ (∃ l, (s.pin n).lastEdge = some l ∧ (s.captureTime n x - l).toNat < 524288))) ∧
    (∃ (s : State) (n : Nat) (x : Raw) (rising : Bool),
      n < 32 ∧ s.captures n rising = false) ∧
    (∃ (s : State) (n : Nat) (r : List Byte) (rest : List (List Byte)),
      n < 32 ∧ (s.pin n).fifo = r :: rest) ∧
    (∃ (s : State) (n : Nat),
      n < 32 ∧ (s.pin n).fifo = []) :=
  ⟨⟨at_ ((regs (up []) [(Ix.tioMode, 32, 1)]).setPin 31 { next := some (3, 65536) }) 65536, 31, 3, 65536, by decide +kernel⟩,
   ⟨(up []).setPin 31 { next := some (3, 1) }, 31, 3, 1, by decide +kernel⟩,
   ⟨at_ ((regs (up []) [(Ix.tioMode, 32, 4), (Ix.tioEvent, 32, 32)]).setGroup 0 ⟨[], some ⟨time80 65536, 0, 65536, [], [3],
     false⟩⟩) 65536, 31, 65536, by decide +kernel⟩,
   ⟨at_ ((regs (up []) [(Ix.tioMode, 32, 1)]).setPin 31 { fallAt := some 65536 }) 65536, 31, 65536, by decide +kernel⟩,
   ⟨(regs (up []) [(Ix.tioMode, 32, 3), (Ix.tioConfig, 32, 2)]).setPin 31 { fifo := List.replicate 15 [] }, 31, 8192, 8192,
     false,
   by decide +kernel, by decide +kernel, by decide +kernel, (fun l h => nomatch h), by decide +kernel⟩,
   ⟨(regs (up []) [(Ix.tioMode, 32, 3), (Ix.tioConfig, 32, 2)]).setPin 31 { fifo := List.replicate 16 [] }, 31, 0, false,
   by decide +kernel, by decide +kernel, Or.inl (by decide +kernel)⟩,
   ⟨up [], 31, 0, true, by decide +kernel⟩,
   ⟨(up []).setPin 31 { fifo := [[1]] }, 31, [1], [], by decide +kernel⟩,
   ⟨up [], 31, by decide +kernel⟩⟩

theorem wit_RingCycles :
    (∃ (s : State) (m : Nat) (k : Nat) (inv : Nat),
      m < 16 ∧ s.ringGoesOn m = true ∧ s.gatherCycle m = some k ∧ s.invalidNow m = inv) ∧
    (∃ (s : State) (m : Nat) (k : Nat),
      m < 16 ∧ (s.mring m).gathered = some (k, none) ∧
      s.gatherOk (s.reg Ix.henayGatherBase (m + 1)) (s.reg Ix.henayGatherSize (m + 1)) Ix.henayGatherList (m + 1) = true) ∧
    (∃ (s : State) (m : Nat) (k : Nat) (error : Bool),
      m < 16 ∧ (s.mring m).gathered = some (k, none) ∧
      s.gatherOk (s.reg Ix.henayGatherBase (m + 1)) (s.reg Ix.henayGatherSize (m + 1)) Ix.henayGatherList (m + 1) = false) ∧
    (∃ (s : State) (m : Nat) (k : Nat) (out : Nat) (launch : Raw) (launchIn : Raw) (pipe : Int) (pipeIn : Int),
      m < 16 ∧ s.ringGoesOn m = true ∧ s.sendCycle m = some k ∧ out = s.reg Ix.henayOutPort (m + 1)) ∧
    (∃ (s : State) (m : Nat) (p : Nat) (onOut : Bool) (twin : Bool) (frame : List Byte) (capture : Raw) (pipe : Int) (h : CycleHead) (c : RingCycle),
      m < 16 ∧ p = (if onOut then s.reg Ix.henayOutPort (m + 1) else s.reg Ix.henayInPort (m + 1)) ∧
      cycleHead (s.reg Ix.henayEthertype 0) frame = some h ∧ h.ring = s.reg Ix.henayRingId (m + 1) ∧ s.running 54 = true ∧
      s.sy.retaining = false ∧ s.isMaster m = true ∧ h.node = s.nodeId m ∧ isStartClaim h frame = false ∧
      60 ≤ frame.length ∧ frame.length + 4 ≤ s.reg Ix.portMaxFrame (p + 1) ∧
      (s.mring m).cycles.find? (fun c => c.k % 4294967296 == h.counter) = some c ∧ h.version = 1 ∧ h.index < c.frames ∧
      s.syncNow c.timing.dom < c.timing.start (c.k + 1) ∧ twin = bit h.flags 3 ∧ (h.index, twin) ∉ c.back ∧
      ((s.reg Ix.henayTopology (m + 1) = 0 ∧ (onOut = false ∨ (s.mring m).broken = true)) ∨ (s.reg Ix.henayTopology (m + 1) ≠ 0 ∧ onOut = true)) ∧
      (∀ d ∈ (s.mring m).cycles, d.k + 2 ≠ c.k)) ∧
    (∃ (s : State) (m : Nat) (p : Nat) (onOut : Bool) (frame : List Byte) (capture : Raw) (pipe : Int) (h : CycleHead) (c : RingCycle),
      m < 16 ∧ p = (if onOut then s.reg Ix.henayOutPort (m + 1) else s.reg Ix.henayInPort (m + 1)) ∧ p < 512 ∧
      cycleHead (s.reg Ix.henayEthertype 0) frame = some h ∧ h.ring = s.reg Ix.henayRingId (m + 1) ∧ s.running 54 = true ∧
      s.sy.retaining = false ∧ s.isMaster m = true ∧ h.node = s.nodeId m ∧ isStartClaim h frame = false ∧
      60 ≤ frame.length ∧ frame.length + 4 ≤ s.reg Ix.portMaxFrame (p + 1) ∧
      (s.mring m).cycles.find? (fun c => c.k % 4294967296 == h.counter) = some c) ∧
    (∃ (s : State) (m : Nat) (p : Nat) (onOut : Bool) (frame : List Byte) (capture : Raw) (pipe : Int) (h : CycleHead),
      m < 16 ∧ p = (if onOut then s.reg Ix.henayOutPort (m + 1) else s.reg Ix.henayInPort (m + 1)) ∧
      cycleHead (s.reg Ix.henayEthertype 0) frame = some h ∧ h.ring = s.reg Ix.henayRingId (m + 1) ∧ s.running 54 = true ∧
      s.sy.retaining = false ∧ ((s.mring m).mode = 5 ∨ (s.mring m).mode = 6) ∧ 60 ≤ frame.length ∧
      frame.length + 4 ≤ s.reg Ix.portMaxFrame (p + 1)) ∧
    (∃ (s : State) (m : Nat) (at_ : Nat) (c : RingCycle) (d : RingCycle) (rest : List RingCycle),
      m < 16 ∧ (s.mring m).cycles = c :: rest ∧
      (State.RingCycle.allBack c = true ∨ c.timing.start (c.k + 1) ≤ s.syncNow c.timing.dom) ∧ d = (s.judgeRest m c).2 ∧
      at_ = s.reg Ix.henayStatusBase (m + 1) + c.k % s.reg Ix.henayStatusSlots (m + 1) * ((32 + 4 * s.reg Ix.henayLayoutCount (m + 1) + 63) / 64 * 64)) :=
  ⟨⟨ringS { mode := 2 }, 15, 0, 0, by decide +kernel⟩,
   ⟨ringS { mode := 2, gathered := some (0, none) }, 15, 0, by decide +kernel⟩,
   ⟨{ regs (ringS { mode := 2, gathered := some (0, none) }) [(Ix.henayGatherSize, 16, 4)] with lens := [(dictKey Ix.henayGatherList 16, 1)], tabs := [(recKey Ix.henayGatherList 16 0, 9223372036854775807)] },
     15, 0, false, by decide +kernel⟩,
   ⟨regs (ringS { mode := 2 }) [(Ix.henayOutPort, 16, 511)], 15, 0, 511, 0, 0, 0, 0, by decide +kernel⟩,
   ⟨regs (ringS { mode := 2, broken := true, cycles := [{ k := 0, timing := (ringS {}).ringTiming 15, era := 0, layout := [], gen := 0, kept := [], frames := 1, null := true, twin := false, invalid := false, sent := [], left := [0], ts0 := 0, back := [], slots := [] }] })
     [(Ix.henayOutPort, 16, 511)], 15, 511, true, false, (ringFrame 0 1 [] ++ List.replicate 14 0), 0, 0, ringHeadOf 0 1,
     { k := 0, timing := (ringS {}).ringTiming 15, era := 0, layout := [], gen := 0, kept := [], frames := 1, null := true, twin := false, invalid := false, sent := [], left := [0], ts0 := 0, back := [], slots := [] },
   by decide +kernel, by decide +kernel, by decide +kernel, by decide +kernel, by decide +kernel, by decide +kernel,
     by decide +kernel, by decide +kernel, by decide +kernel, by decide +kernel, by decide +kernel, by decide +kernel,
     by decide +kernel, by decide +kernel, by decide +kernel, rfl, by decide +kernel, by decide +kernel, by decide +kernel⟩,
   ⟨regs (ringS { mode := 2, broken := true, cycles := [{ k := 0, timing := (ringS {}).ringTiming 15, era := 0, layout := [], gen := 0, kept := [], frames := 1, null := true, twin := false, invalid := false, sent := [], left := [0], ts0 := 0, back := [], slots := [] }] })
     [(Ix.henayOutPort, 16, 511)], 15, 511, true, (ringFrame 0 1 [] ++ List.replicate 14 0), 0, 0, ringHeadOf 0 1,
     { k := 0, timing := (ringS {}).ringTiming 15, era := 0, layout := [], gen := 0, kept := [], frames := 1, null := true, twin := false, invalid := false, sent := [], left := [0], ts0 := 0, back := [], slots := [] },
     by decide +kernel⟩,
   ⟨regs (ringS { mode := 5 }) [(Ix.henayOutPort, 16, 511)], 15, 511, true, (ringFrame 0 1 [] ++ List.replicate 14 0), 0,
     0, ringHeadOf 0 1, by decide +kernel⟩,
   ⟨at_ (ringS { mode := 2, cycles := [{ k := 0, timing := (ringS {}).ringTiming 15, era := 0, layout := [], gen := 0, kept := [], frames := 1, null := true, twin := false, invalid := false, sent := [], left := [0], ts0 := 0, back := [(0, false)], slots := [] }] })
     65536000000, 15, 0,
     { k := 0, timing := (ringS {}).ringTiming 15, era := 0, layout := [], gen := 0, kept := [], frames := 1, null := true, twin := false, invalid := false, sent := [], left := [0], ts0 := 0, back := [(0, false)], slots := [] },
     ((at_ (ringS { mode := 2, cycles := [{ k := 0, timing := (ringS {}).ringTiming 15, era := 0, layout := [], gen := 0, kept := [], frames := 1, null := true, twin := false, invalid := false, sent := [], left := [0], ts0 := 0, back := [(0, false)], slots := [] }] })
     65536000000).judgeRest 15
     { k := 0, timing := (ringS {}).ringTiming 15, era := 0, layout := [], gen := 0, kept := [], frames := 1, null := true, twin := false, invalid := false, sent := [], left := [0], ts0 := 0, back := [(0, false)], slots := [] }).2,
     [],
   by decide +kernel, by decide +kernel, Or.inr (by decide +kernel), rfl, by decide +kernel⟩⟩

theorem wit_RingPairs :
    (∃ (s : State) (k : Nat) (inp : Nat) (out : Nat) (cyc : Nat) (frame : List Byte) (capture : Raw) (launch : Raw) (rxPipe : Int) (txPipe : Int) (h : CycleHead) (v : Service),
      k < 256 ∧ cycleHead (s.reg Ix.henayEthertype 0) frame = some h ∧ s.pairServes k = true ∧
      inp = s.reg Ix.henayPtPortA (k + 1) ∧ out = s.reg Ix.henayPtPortB (k + 1) ∧ inp < 512 ∧ out < 512 ∧ inp ≠ out ∧
      s.portUp inp = true ∧ s.portUp out = true ∧ h.ring = s.reg Ix.henayPtRingId (k + 1) ∧ 60 ≤ frame.length ∧
      frame.length + 4 ≤ s.reg Ix.portMaxFrame (inp + 1) ∧ h.version = 1 ∧
      (s.pairTiming k).cycleOf h.counter (s.syncAt (s.pairTiming k).dom (s.rxTimestamp inp capture rxPipe)) = some cyc ∧
      isStartClaim h frame = false ∧ (cyc, h.index) ∉ (s.ptPair k).seen ∧
      s.regI Ix.henayPtLinkDelayA (k + 1) 4 ≠ -2147483648 ∧
      v = (h.datagrams frame).foldl (serveDatagram (s.serving k cyc (decide ((s.pairTiming k).start cyc + (s.pairTiming k).output * 65536 ≤ s.syncAt (s.pairTiming k).dom (s.rxTimestamp inp capture rxPipe))))) { w := frame }) ∧
    (∃ (s : State) (k : Nat) (inp : Nat) (out : Nat) (cyc : Nat) (frame : List Byte) (capture : Raw) (launch : Raw) (rxPipe : Int) (txPipe : Int) (h : CycleHead),
      k < 256 ∧ cycleHead (s.reg Ix.henayEthertype 0) frame = some h ∧ s.pairServes k = true ∧
      inp = s.reg Ix.henayPtPortA (k + 1) ∧ out = s.reg Ix.henayPtPortB (k + 1) ∧ inp < 512 ∧ out < 512 ∧ inp ≠ out ∧
      s.portUp inp = true ∧ s.portUp out = true ∧ h.ring = s.reg Ix.henayPtRingId (k + 1) ∧ 60 ≤ frame.length ∧
      frame.length + 4 ≤ s.reg Ix.portMaxFrame (inp + 1) ∧ h.version = 1 ∧
      (s.pairTiming k).cycleOf h.counter (s.syncAt (s.pairTiming k).dom (s.rxTimestamp inp capture rxPipe)) = some cyc ∧
      ((cyc, h.index) ∈ (s.ptPair k).seen ∨ isStartClaim h frame = true)) ∧
    (∃ (c : Serving) (v : Service) (g : Datagram),
      g.addr = c.addr ∧ 1 ≤ g.addr ∧ g.addr ≤ 0x400 ∧ g.cmd = 2 ∧ c.late = false) ∧
    (∃ (s : State) (k : Nat) (cyc : Nat),
      k < 256 ∧ s.pairServes k = true ∧ s.pairCycle k (s.pairTiming k).input = cyc ∧ (s.ptPair k).sampled ≠ some cyc) ∧
    (∃ (s : State) (k : Nat) (cyc : Nat),
      k < 256 ∧ (s.ptPair k).inputs.find? (fun e => e.2.isNone) = some (cyc, none)) ∧
    (∃ (s : State) (k : Nat) (cyc : Nat) (addr : Nat),
      k < 256 ∧ s.pairServes k = true ∧ s.pairCycle k (s.pairTiming k).output = cyc ∧ (s.ptPair k).latched ≠ some cyc ∧
      addr = s.reg Ix.henayPtStatusAddr (k + 1)) ∧
    (∃ (s : State) (k : Nat) (cyc : Nat),
      k < 256 ∧ s.pairCycle k (s.pairTiming k).output = cyc ∧ (s.ptPair k).latched = some cyc) :=
  ⟨⟨(regs (upPort (upPort (up [54]) 510) 511) [(Ix.henayPtRingId, 256, 7), (Ix.henayPtPortA, 256, 510), (Ix.henayPtPortB,
     256, 511)]).setPtPair 255 { enabled := true }, 255, 510, 511, 0, (ringFrame 0 1 [] ++ List.replicate 14 0), 0, 0, 0,
     0, ringHeadOf 0 1,
     ((ringHeadOf 0 1).datagrams (ringFrame 0 1 [] ++ List.replicate 14 0)).foldl (serveDatagram ((((regs (upPort (upPort
     (up [54]) 510) 511) [(Ix.henayPtRingId, 256, 7), (Ix.henayPtPortA, 256, 510), (Ix.henayPtPortB, 256,
     511)]).setPtPair 255 { enabled := true })).serving 255 0 (decide (((((regs (upPort (upPort (up [54]) 510) 511)
     [(Ix.henayPtRingId, 256, 7), (Ix.henayPtPortA, 256, 510), (Ix.henayPtPortB, 256,
     511)]).setPtPair 255 { enabled := true })).pairTiming 255).start 0 + ((((regs (upPort (upPort (up [54]) 510) 511)
     [(Ix.henayPtRingId, 256, 7), (Ix.henayPtPortA, 256, 510), (Ix.henayPtPortB, 256,
     511)]).setPtPair 255 { enabled := true })).pairTiming 255).output * 65536 ≤ (((regs (upPort (upPort (up [54]) 510)
     511) [(Ix.henayPtRingId, 256, 7), (Ix.henayPtPortA, 256, 510), (Ix.henayPtPortB, 256,
     511)]).setPtPair 255 { enabled := true })).syncAt ((((regs (upPort (upPort (up [54]) 510) 511) [(Ix.henayPtRingId,
     256, 7), (Ix.henayPtPortA, 256, 510), (Ix.henayPtPortB, 256,
     511)]).setPtPair 255 { enabled := true })).pairTiming 255).dom ((((regs (upPort (upPort (up [54]) 510) 511)
     [(Ix.henayPtRingId, 256, 7), (Ix.henayPtPortA, 256, 510), (Ix.henayPtPortB, 256,
     511)]).setPtPair 255 { enabled := true })).rxTimestamp 510 0 0))))) { w := (ringFrame 0 1 [] ++ List.replicate 14 0) },
   by decide +kernel, by decide +kernel, by decide +kernel, by decide +kernel, by decide +kernel, by decide +kernel,
     by decide +kernel, by decide +kernel, by decide +kernel, by decide +kernel, by decide +kernel, by decide +kernel,
     by decide +kernel, by decide +kernel, by decide +kernel, by decide +kernel, by decide +kernel, by decide +kernel, rfl⟩,
   ⟨(regs (upPort (upPort (up [54]) 510) 511) [(Ix.henayPtRingId, 256, 7), (Ix.henayPtPortA, 256, 510), (Ix.henayPtPortB,
     256, 511)]).setPtPair 255 { enabled := true, seen := [(0, 0)] }, 255, 510, 511, 0,
     (ringFrame 0 1 [] ++ List.replicate 14 0), 0, 0, 0, 0, ringHeadOf 0 1, by decide +kernel⟩,
   ⟨⟨0x400, none, 0, 8, false, false, false, 0, 0, 0⟩, { w := List.replicate 60 0 }, ⟨14, 0x400, 0, 8, 2, false, 0, 0⟩,
     by decide +kernel⟩,
   ⟨at_ ((regs (upPort (upPort (up [54]) 510) 511) [(Ix.henayPtRingId, 256, 7), (Ix.henayPtPortA, 256, 510),
     (Ix.henayPtPortB, 256, 511)]).setPtPair 255 { enabled := true }) 32768000000, 255, 0, by decide +kernel⟩,
   ⟨(regs (upPort (upPort (up [54]) 510) 511) [(Ix.henayPtRingId, 256, 7), (Ix.henayPtPortA, 256, 510), (Ix.henayPtPortB,
     256, 511)]).setPtPair 255 { enabled := true, inputs := [(0, none)] }, 255, 0, by decide +kernel⟩,
   ⟨at_ ((regs (upPort (upPort (up [54]) 510) 511) [(Ix.henayPtRingId, 256, 7), (Ix.henayPtPortA, 256, 510),
     (Ix.henayPtPortB, 256, 511)]).setPtPair 255 { enabled := true }) 32768000000, 255, 0, 0, by decide +kernel⟩,
   ⟨at_ ((regs (upPort (upPort (up [54]) 510) 511) [(Ix.henayPtRingId, 256, 7), (Ix.henayPtPortA, 256, 510),
     (Ix.henayPtPortB, 256, 511)]).setPtPair 255 { enabled := true, latched := some 0 }) 32768000000, 255, 0,
     by decide +kernel⟩⟩

theorem wit_RingMastership :
    (∃ (s : State) (m : Nat),
      m < 16 ∧ s.standsBy m = true ∧ (s.mring m).yieldTo = none ∧ (s.mring m).backoff = none ∧
      s.listenTime m ≤ s.since (s.mring m).listenFrom ∧ s.reg Ix.henayColdStart (m + 1) ≠ 0) ∧
    (∃ (s : State) (m : Nat) (n : Nat),
      m < 16 ∧ s.claims m = true ∧
      (∀ r, (s.mring m).slotAt = some r → s.reg Ix.henayCycleTime (m + 1) * 65536 ≤ s.since r) ∧
      n = ((s.mring m).attempt + 1) % 4294967296) ∧
    (∃ (s : State) (m : Nat) (onOut : Bool) (frame : List Byte) (r : List Byte) (h : CycleHead),
      m < 16 ∧ s.ringHead m frame = some h ∧ s.claims m = true ∧ isStartClaim h frame = true ∧ h.node = s.nodeId m ∧
      (s.mring m).claimOut = true ∧ controlRecord h frame 2 = some r ∧ beField r 8 4 = (s.mring m).attempt ∧
      (s.reg Ix.henayTopology (m + 1) ≠ 1 ∨ onOut = true) ∧ 60 ≤ frame.length ∧
      frame.length + 4 ≤ s.reg Ix.portMaxFrame ((if onOut then s.reg Ix.henayOutPort (m + 1) else s.reg Ix.henayInPort (m + 1)) + 1)) ∧
    (∃ (s : State) (m : Nat) (frame : List Byte) (h : CycleHead),
      m < 16 ∧ s.ringHead m frame = some h ∧ s.claims m = true ∧ (s.vectors m h frame).1 ≤ (s.vectors m h frame).2) ∧
    (∃ (s : State) (m : Nat) (frame : List Byte) (h : CycleHead),
      m < 16 ∧ s.ringHead m frame = some h ∧
      (s.standsBy m = true ∨ s.claims m = true ∧ (s.vectors m h frame).2 < (s.vectors m h frame).1)) ∧
    (∃ (s : State) (m : Nat) (n : Nat) (r : Stamp),
      m < 16 ∧ s.standsBy m = true ∧ (s.mring m).yieldTo = some (n, r) ∧ s.listenTime m ≤ s.since r) ∧
    (∃ (s : State) (m : Nat) (stop : Stamp),
      m < 16 ∧ s.standsBy m = true ∧ (s.mring m).backoff = some (stop, true) ∧ stop ≤ s.rawTotal) ∧
    (∃ (s : State) (m : Nat) (stop : Stamp),
      m < 16 ∧ s.standsBy m = true ∧ (s.mring m).backoff = some (stop, false) ∧ stop ≤ s.rawTotal) ∧
    (∃ (s : State) (m : Nat) (k : Nat),
      m < 16 ∧ s.standsBy m = true ∧ s.watchCycle m = k ∧ (s.mring m).judged ≠ some k ∧
      k % 4294967296 % s.reg Ix.henayRefDivider (m + 1) = 0) ∧
    (∃ (s : State) (m : Nat) (frame : List Byte) (h : CycleHead),
      m < 16 ∧ s.ringHead m frame = some h ∧ s.ringCycles m = true ∧ (s.mring m).leaving = false ∧ h.node ≠ s.nodeId m ∧
      isStartClaim h frame = false ∧ (s.vectors m h frame).1 ≤ (s.vectors m h frame).2) :=
  ⟨⟨at_ (ringS { mode := 5 }) 196608000000, 15, by decide +kernel⟩,
   ⟨ringS { mode := 6 }, 15, 1,
   by decide +kernel, by decide +kernel, (fun r h => nomatch h), rfl⟩,
   ⟨ringS { mode := 6, claimOut := true, attempt := 5 }, 15, true, claimFrame 1 0 ++ List.replicate 10 0, claimRecord 0,
     ringHeadOf 1 1, by decide +kernel⟩,
   ⟨ringS { mode := 6 }, 15, claimFrame 2 0xFFFFFFFF, ringHeadOf 1 2, by decide +kernel⟩,
   ⟨ringS { mode := 5 }, 15, ringFrame 0 2 [], ringHeadOf 0 2, by decide +kernel⟩,
   ⟨at_ (ringS { mode := 5, yieldTo := some (9, 0) }) 196608000000, 15, 9, 0, by decide +kernel⟩,
   ⟨ringS { mode := 5, backoff := some (0, true) }, 15, 0, by decide +kernel⟩,
   ⟨ringS { mode := 5, backoff := some (0, false) }, 15, 0, by decide +kernel⟩,
   ⟨at_ (ringS { mode := 5 }) 32768000000, 15, 0, by decide +kernel⟩,
   ⟨ringS { mode := 2 }, 15, ringFrame 0 2 [], ringHeadOf 0 2, by decide +kernel⟩⟩

theorem wit_HostLinkAndPower :
    (∃ (s : State),
      s.ho.perst = false ∧ s.hostOn = true) ∧
    (∃ (s : State),
      s.ho.perst = false ∧ s.hostOn = true) ∧
    (∃ (s : State),
      s.ho.perst = true) ∧
    (∃ (s : State) (width : Nat) (rate : Nat),
      s.ho.perst = false ∧ s.hostOn = true ∧ width ∈ [1, 2, 4, 8, 16] ∧ rate ∈ [2500, 5000, 8000, 16000, 32000]) ∧
    (∃ (s : State) (l : Nat),
      1 ≤ l ∧ l ≤ 3 ∧ s.ho.width ≠ 0 ∧ s.ho.link = 0 ∧ s.ho.l0Wanted = false) ∧
    (∃ (s : State),
      s.ho.link ≠ 0 ∧ (∀ v, (s.vec v).held = false)) ∧
    (∃ (s : State) (v : Nat),
      s.ho.link ≠ 0 ∧ (s.vec v).held = true ∧ s.hostPowered = true) ∧
    (∃ (s : State) (u : State) (d3 : Bool) (bme : Bool) (msix : Bool) (fmask : Bool) (pmeEn : Bool),
      s.ho.perst = false ∧
      u = { s with ho := { s.ho with d3hot := d3, busMaster := bme, msixEnable := msix, functionMask := fmask, pmeEnable := pmeEn } }) ∧
    (∃ (s : State),
      (s.ho.d3hot = true ∨ s.ho.busMaster = true) ∧ s.sy.retaining = false ∧ s.ho.pmeEnable = true ∧
      s.ho.pmeStatus = false ∧ s.ho.perst = false ∧ s.reg Ix.pmeAgeThreshold 0 * 65536000 ≤ s.pendingAge) :=
  ⟨⟨hostS {}, by decide +kernel⟩,
   ⟨hostS {}, by decide +kernel⟩,
   ⟨{ up [] with ho := { perst := true } }, by decide +kernel⟩,
   ⟨hostS {}, 1, 2500, by decide +kernel⟩,
   ⟨hostS {}, 3, by decide +kernel⟩,
   ⟨{ up [] with ho := { link := 3, vecs := [(2047, { count := 1 })] } },
   by decide +kernel, by intro v; simp [State.vec, tgetD, tget]; split <;> rfl⟩,
   ⟨({ hostS {} with ho := { (hostS {}).ho with link := 3 } }).setVec 2047 { held := true }, 2047, by decide +kernel⟩,
   ⟨hostS {}, { (hostS {}) with ho := { ((hostS {})).ho with d3hot := true, busMaster := false, msixEnable := false, functionMask := true, pmeEnable := true } },
     true, false, false, true, true,
   by decide +kernel, rfl⟩,
   ⟨at_ ({ up [] with ho := { d3hot := true, pmeEnable := true, vecs := [(2047, { count := 1 })] } }) 65536000000000,
     by decide +kernel⟩⟩

theorem wit_DoorbellsAndUnits :
    (∃ (s : State) (c : Nat),
      s.sy.retaining = false ∧ c < 4096 ∧ 3 ≤ s.reg Ix.startPhase 0 ∧ (s.channel c).entry = none) ∧
    (∃ (s : State) (c : Nat) (e : List Byte),
      s.sy.retaining = false ∧ c < 4096 ∧ 3 ≤ s.reg Ix.startPhase 0 ∧ s.chanReady c = some e) ∧
    (∃ (s : State) (c : Nat) (e : List Byte),
      s.sy.retaining = false ∧ c < 4096 ∧ 3 ≤ s.reg Ix.startPhase 0 ∧ (s.channel c).entry = some e ∧
      ((s.channel c).entryBad = true ∨ entKind e = 0)) ∧
    (∃ (s : State) (v : Nat) (whole : Bool),
      s.sy.retaining = false ∧ (whole = false ∨ 4096 ≤ v ∨ s.reg Ix.startPhase 0 < 3)) ∧
    (∃ (s : State) (v : Nat),
      s.sy.retaining = false ∧ (1024 ≤ v ∨ s.reg Ix.cringEnable (v + 1) = 0)) ∧
    (∃ (s : State) (v : Nat) (whole : Bool),
      s.sy.retaining = true ∧ s.sy.held.length < 1024) ∧
    (∃ (s : State) (c : Nat) (left : Nat) (n : Nat) (i : Nat) (e : List Byte) (d : List Byte) (u : HUnit),
      s.hostPowered = true ∧ s.arbiterPick = some (c, left) ∧ s.chanReady c = some e ∧ 1 ≤ entBurst e ∧
      i = (s.channel c).accepted ∧
      n = (if (s.channel c).reading then s.loadNat (entIndexBlock e) 4 else (s.channel c).producer) ∧
      (n + 4294967296 - (s.channel c).consumer) % 4294967296 ≤ entRingSize e ∧
      State.belowProducer (s.channel c).consumer n i = true ∧ s.readOk (entIndexBlock e) 4 = true ∧
      (∀ j, s.readOk (State.descAddr e j) 32 = true) ∧ d = s.load (State.descAddr e i) 32 ∧ bit (dCtl d) 0 = true ∧
      ((entKind e = 1 ∧ bit (dCtl d) 1 = true ∧ bit (dCtl d) 2 = true ∧ State.chainCause [(i, d)] = 0 ∧ u = { kind := 0, first := i, descs := [(i, d)], cls := dClass d % 8, turn := s.ho.turnCount + 1 }) ∨ (entKind e ≠ 1 ∧ State.descCause (entKind e) d = 0 ∧ u = { kind := entKind e - 1, first := i, descs := [(i, d)], turn := s.ho.turnCount + 1 }))) ∧
    (∃ (s : State) (c : Nat) (left : Nat) (n : Nat) (i : Nat) (e : List Byte),
      s.hostPowered = true ∧ s.arbiterPick = some (c, left) ∧ s.chanReady c = some e ∧ 1 ≤ entBurst e ∧
      i = (s.channel c).accepted ∧
      n = (if (s.channel c).reading then s.loadNat (entIndexBlock e) 4 else (s.channel c).producer) ∧
      (n + 4294967296 - (s.channel c).consumer) % 4294967296 ≤ entRingSize e ∧
      State.belowProducer (s.channel c).consumer n i = true ∧ s.readOk (entIndexBlock e) 4 = true ∧
      s.readOk (State.descAddr e i) 32 = true ∧ bit (dCtl (s.load (State.descAddr e i) 32)) 0 = false) ∧
    (∃ (s : State) (r : Nat) (n : Nat),
      s.sy.retaining = false ∧ r < 1024 ∧ 3 ≤ s.reg Ix.startPhase 0 ∧ s.reg Ix.cringEnable (r + 1) ≠ 0 ∧
      s.hostPowered = true ∧ n = s.loadNat (s.reg Ix.cringIndexAddr (r + 1) + 8) 4 ∧
      s.readOk (s.reg Ix.cringIndexAddr (r + 1) + 8) 4 = true ∧
      ((s.cring r).producer + 4294967296 - n) % 4294967296 ≤ s.reg Ix.cringSize (r + 1)) ∧
    (∃ (s : State) (c : Nat) (e : List Byte) (u : HUnit),
      s.chanEntry c = some e ∧ (s.channel c).units.find? (fun u => u.stage == .accepted) = some u ∧ u.kind = 0 ∧
      s.hostPowered = true ∧ s.inTurn u = true) ∧
    (∃ (s : State) (c : Nat) (e : List Byte) (u : HUnit),
      s.chanEntry c = some e ∧ (s.channel c).units.find? (fun u => u.stage == .accepted) = some u ∧ u.kind = 1) ∧
    (∃ (s : State) (r : Nat) (k : Nat),
      r < 1024 ∧ s.hostPowered = true ∧ s.reg Ix.cringEnable (r + 1) ≠ 0 ∧ s.reg Ix.cringSize (r + 1) < 4294967296 ∧
      (s.cring r).producer < 4294967296 ∧ (s.cring r).consumer < 4294967296 ∧
      k = min 64 (min (s.cring r).backlog.length (s.ringRoom r))) :=
  ⟨⟨hostS {}, 4095, by decide +kernel⟩,
   ⟨hostS { entry := some (entry 1) }, 4095, entry 1, by decide +kernel⟩,
   ⟨hostS { entry := some (entry 0) }, 4095, entry 0, by decide +kernel⟩,
   ⟨hostS {}, 4096, true, by decide +kernel⟩,
   ⟨hostS {}, 1024, by decide +kernel⟩,
   ⟨{ up [] with sy := { hold := none, retaining := true } }, 0, true, by decide +kernel⟩,
   ⟨({ hostS { entry := some (entry 3), more := true, producer := 1 } with mm := { (hostS { entry := some (entry 3), more := true, producer := 1 }).mm with host := memStore [] 0 (descWith 1 3 0 8 65536) } }
     : State), 4095, 0, 1, 0, entry 3, descWith 1 3 0 8 65536,
     { kind := 2, first := 0, descs := [(0, descWith 1 3 0 8 65536)], turn := 1 },
   by decide +kernel, by decide +kernel, by decide +kernel, by decide +kernel, by decide +kernel, by decide +kernel,
     by decide +kernel, by decide +kernel, by decide +kernel, by
     intro j; rw [descAddr_entry]; have h : j % 16 < 16 := Nat.mod_lt _ (by decide)
     revert h; generalize j % 16 = r; revert r; decide +kernel, by decide +kernel, by decide +kernel, by decide +kernel⟩,
   ⟨hostS { entry := some (entry 3), more := true, producer := 1 }, 4095, 0, 1, 0, entry 3, by decide +kernel⟩,
   ⟨regs (hostS {}) [(Ix.cringEnable, 1024, 1), (Ix.cringSize, 1024, 16)], 1023, 0, by decide +kernel⟩,
   ⟨hostS { entry := some (entry 1), units := [{ kind := 0, first := 3, descs := [(3, desc 1 0 64 0)] }] }, 4095, entry 1,
     { kind := 0, first := 3, descs := [(3, desc 1 0 64 0)] }, by decide +kernel⟩,
   ⟨hostS { entry := some (entry 2), units := [{ kind := 1, first := 3, descs := [(3, desc 2 0 2048 0)] }] }, 4095,
     entry 2, { kind := 1, first := 3, descs := [(3, desc 2 0 2048 0)] }, by decide +kernel⟩,
   ⟨regs (hostS {}) [(Ix.cringEnable, 1024, 1)], 1023, 0, by decide +kernel⟩⟩

theorem wit_HostDelivery :
    (∃ (s : State) (h : Nat) (c : Nat) (q : Nat) (first : Nat) (d : QCopy) (k : Packet) (us : List HUnit),
      h < 4 ∧ s.hostPowered = true ∧ c < 8 ∧ q = 4096 + 8 * h + c ∧ s.rxReady q = some (d, k, us) ∧
      (∀ e, c < e → e < 8 → s.rxReady (4096 + 8 * h + e) = none) ∧ s.mayStart d.chan = true ∧
      s.reg Ix.chShadowArm (d.chan + 1) = 0 ∧ s.hasBadCell d.pkt = false ∧ (us.map HUnit.first).Nodup ∧
      first = (us.head?.map HUnit.first).getD 0) ∧
    (∃ (s : State) (h : Nat) (d : Nat) (limit : Nat) (k : Packet) (target : Int),
      s.pkt? h = some k ∧ k.launch = some (target, d, limit) ∧ s.rawDelta d target ≤ 0) ∧
    (∃ (s : State) (c : Nat) (e : List Byte) (u : HUnit),
      c < 4096 ∧ s.mayWriteBack c = some (e, u) ∧ s.ho.link = 0 ∧ s.writebackOk e u = true) ∧
    (∃ (s : State) (c : Nat) (e : List Byte) (u : HUnit),
      s.mayWriteBack c = some (e, u) ∧ s.ho.link ≠ 0) ∧
    (∃ (s : State) (v : Nat),
      v < 2048 ∧ s.messageDue v = true) ∧
    (∃ (s : State) (v : Nat),
      v < 2048) ∧
    (∃ (s : State) (v : Nat),
      v < 2048) :=
  ⟨⟨((hostS { entry := some (entry 2), units := [{ kind := 1, first := 3, descs := [(3, desc 2 0 2048 0)], stage := .usable }] }).setPkt
     9 (packet 480 15 .retired)).setQueue 4127 [⟨9, 0, ⟨4127, false, false⟩, 3, 0, false, false, 4095, 0, false⟩], 3, 7,
     4127, 3, ⟨9, 0, ⟨4127, false, false⟩, 3, 0, false, false, 4095, 0, false⟩, packet 480 15 .retired,
     [{ kind := 1, first := 3, descs := [(3, desc 2 0 2048 0)], stage := .usable }],
   by decide +kernel, by decide +kernel, by decide +kernel, by decide +kernel, by decide +kernel, by intro e h1 h2; omega,
     by decide +kernel, by decide +kernel, by decide +kernel, by decide +kernel, by decide +kernel⟩,
   ⟨at_ ((up []).setPkt 9 ({ packet 480 15 .retired with launch := some (65536, 3, 0) })) 65536, 9, 3, 0,
     { packet 480 15 .retired with launch := some (65536, 3, 0) }, 65536, by decide +kernel⟩,
   ⟨hostS { entry := some (entry 3), units := [{ moveUnit 3 with stage := .finished }] }, 4095, entry 3,
     { moveUnit 3 with stage := .finished }, by decide +kernel⟩,
   ⟨{ hostS { entry := some (entry 3), units := [{ moveUnit 3 with stage := .finished }] } with ho := { (hostS { entry := some (entry 3), units := [{ moveUnit 3 with stage := .finished }] }).ho with link := 3 } },
     4095, entry 3, { moveUnit 3 with stage := .finished }, by decide +kernel⟩,
   ⟨(hostS {}).setVec 2047 { count := 1 }, 2047, by decide +kernel⟩,
   ⟨hostS {}, 2047, by decide +kernel⟩,
   ⟨hostS {}, 2047, by decide +kernel⟩⟩

theorem wit_ChannelCache :
    (∃ (s : State) (c : Nat) (e : List Byte),
      c < 4096 ∧ (s.channel c).ringing = true ∧ (s.channel c).entry = none ∧ s.hostPowered = true ∧
      s.readOk (s.reg Ix.chTableBase 0 + 128 * c) 128 = true ∧ e = s.load (s.reg Ix.chTableBase 0 + 128 * c) 128) ∧
    (∃ (s : State) (c : Nat),
      c < 4096) ∧
    (∃ (s : State) (v : Nat),
      4096 ≤ v ∧ v ≠ 0xFFFF) :=
  ⟨⟨hostS { ringing := true }, 4095, List.replicate 128 0, by decide +kernel⟩,
   ⟨hostS {}, 4095, by decide +kernel⟩,
   ⟨hostS {}, 4096, by decide +kernel⟩⟩

theorem wit_MovesAndChunks :
    (∃ (s : State) (u : State) (c : Nat) (op : Nat) (e : List Byte) (x : HUnit) (i : Instr),
      (i, op) ∈ [(Instr.moveCopy c, 3), (Instr.indexGather c, 4), (Instr.indexScatter c, 5), (Instr.planeSplit c, 6), (Instr.planeMerge c, 7)] ∧
      (∃ d, s.chanEntry c = some d) ∧ (s.channel c).units.find? (fun u => u.stage == .accepted) = some x ∧ x.kind = 2 ∧
      dOp x.last.2 = op ∧ s.mayStart c = true ∧ s.inTurn x = true ∧
      (bit (dClass x.last.2) 0 = false ∨ s.earlierDone c x.first = true) ∧ u = s.handOver c x.first ∧
      u.chanEntry c = some e) ∧
    (∃ (s : State) (e : List Byte) (d : List Byte),
      dOp d = 3 ∧ dLen d ≠ 0 ∧ bit (dCtl d) 8 = false ∧ bit (dCtl d) 9 = false ∧ s.memExists (dAddr d) (dLen d) = true ∧
      s.memExists (dLaunch d) (dLen d) = true ∧
      (rangesMeet (dAddr d) (dLen d) (dLaunch d) (dLen d) = false ∨ spaceAddr (dLaunch d) ≤ spaceAddr (dAddr d))) ∧
    (∃ (s : State) (c : Nat) (op : Nat) (x : HUnit) (i : Instr),
      (i, op) ∈ [(Instr.moveCopy c, 3), (Instr.indexGather c, 4), (Instr.indexScatter c, 5), (Instr.planeSplit c, 6), (Instr.planeMerge c, 7)] ∧
      (s.channel c).units.find? (fun u => u.stage == .accepted) = some x ∧ dOp x.last.2 ≠ op) ∧
    (∃ (s : State) (c : Nat) (e : List Byte) (u : HUnit) (x : Xfer) (rest : List Xfer),
      (s.channel c).entry = some e ∧ (s.channel c).units.find? (fun u => u.stage == .started && !u.todo.isEmpty) = some u ∧
      u.todo = x :: rest ∧ s.hostPowered = true ∧ s.ringsAhead = false ∧ s.paceAllows c e = true ∧
      s.chanChunks c < entInflight e ∧ s.stageUsed < 2048) ∧
    (∃ (s : State) (c : Nat) (e : List Byte),
      (s.channel c).entry = some e ∧
      (s.ringsAhead = true ∨ s.paceAllows c e = false ∨ entInflight e ≤ s.chanChunks c ∨ 2048 ≤ s.stageUsed)) ∧
    (∃ (s : State) (c : Nat) (first : Nat) (src : Nat) (dst : Nat) (n : Nat) (e : List Byte) (u : HUnit) (rest : List Xfer) (corrected : List (Nat × Nat)),
      c < 4096 ∧ (s.channel c).entry = some e ∧ s.unit? c first = some u ∧ u.stage = .started ∧ u.kind = 2 ∧
      u.copy = none ∧ u.flying = .copy src dst n :: rest ∧ s.readOk src n = true ∧ s.writeOk dst n = true ∧
      (corrected = [] ∨ (∃ k m, k < 8 ∧ corrected = [(k, m)]))) :=
  ⟨⟨hostS { entry := some (entry 3), units := [moveUnit 3] },
     ((hostS { entry := some (entry 3), units := [moveUnit 3] })).handOver 4095 3, 4095, 3, entry 3, moveUnit 3,
     Instr.moveCopy 4095,
   by decide +kernel, ⟨entry 3, by decide +kernel⟩, by decide +kernel, by decide +kernel, by decide +kernel,
     by decide +kernel, by decide +kernel, by decide +kernel, rfl, by decide +kernel⟩,
   ⟨hostS {}, entry 3, desc 3 0 4097 65536, by decide +kernel⟩,
   ⟨hostS { entry := some (entry 3), units := [moveUnit 3] }, 4095, 7, moveUnit 3, Instr.planeMerge 4095, by decide +kernel⟩,
   ⟨hostS { entry := some (entry 3), units := [movingUnit [.copy 4096 69632 1] []] }, 4095, entry 3,
     movingUnit [.copy 4096 69632 1] [], .copy 4096 69632 1, [], by decide +kernel⟩,
   ⟨hostS { entry := some (entry 3), units := [{ movingUnit [] [.copy 0 65536 4096] with stage := .started }] }, 4095,
     entry 3, by decide +kernel⟩,
   ⟨hostS { entry := some (entry 3), units := [movingUnit [] [.copy 0 65536 4096]] }, 4095, 3, 0, 65536, 4096, entry 3,
     movingUnit [] [.copy 0 65536 4096], [], [],
   by decide +kernel, by decide +kernel, by decide +kernel, by decide +kernel, by decide +kernel, by decide +kernel,
     by decide +kernel, by decide +kernel, by decide +kernel, Or.inl rfl⟩⟩

theorem wit_DmaErrorsAndControl :
    (∃ (s : State) (c : Nat) (first : Nat) (e : List Byte) (u : HUnit),
      (s.channel c).entry = some e ∧ s.unit? c first = some u ∧ u.stage = .started ∧ u.flying ≠ []) ∧
    (∃ (s : State) (c : Nat) (e : List Byte),
      c < 4096 ∧ (s.channel c).entry = some e ∧ ((s.channel c).reading = true ∨ (s.channel c).more = true)) ∧
    (∃ (s : State) (c : Nat) (e : List Byte) (u : HUnit) (rest : List HUnit),
      (s.channel c).entry = some e ∧ (s.channel c).units = u :: rest ∧ u.stage = .finished ∧ u.outcome = 1 ∧
      (bit (dCtl u.last.2) 4 = true ∨ isLpddr (entRingBase e) = true)) ∧
    (∃ (s : State) (c : Nat) (e : List Byte) (u : HUnit) (rest : List HUnit),
      c < 4096 ∧ (s.channel c).entry = some e ∧ (s.channel c).units = u :: rest ∧ u.stage = .finished ∧
      s.hostPowered = true) ∧
    (∃ (s : State) (c : Nat),
      s.reg Ix.chHaltCause (c + 1) ≠ 0 ∧ s.reg Ix.chHaltCause (c + 1) ≠ 5 ∧
      (((s.setReg Ix.chHaltCause (c + 1) 0).chanReady c).isSome = true ∨ (s.channel c).entry = none)) ∧
    (∃ (s : State) (c : Nat) (v : Nat),
      (v = 0 ∨ v = 1 ∧ (s.reg Ix.chHaltCause (c + 1) = 0 ∨ s.reg Ix.chHaltCause (c + 1) = 5))) ∧
    (∃ (s : State) (c : Nat) (v : Nat),
      1 < v) ∧
    (∃ (s : State) (c : Nat) (i : Nat),
      c < 4096 ∧ i < 4294967296 ∧ (∀ u ∈ (s.channel c).units, ∀ d ∈ u.descs, d.1 ≠ i)) ∧
    (∃ (s : State) (c : Nat) (i : Nat) (u : HUnit),
      c < 4096 ∧ i < 4294967296 ∧ (s.channel c).units.find? (fun u => u.descs.any fun d => d.1 == i) = some u) ∧
    (∃ (s : State) (v : Nat),
      v / 4096 % 1048576 ≠ 0) ∧
    (∃ (s : State) (c : Nat) (v : Nat),
      v ≤ 1) ∧
    (∃ (s : State) (v : Nat),
      s.ho.dmaNext = some v ∧ (∀ e ∈ s.ho.channels, ∀ u ∈ e.2.units, u.transferring = false)) :=
  ⟨⟨hostS { entry := some (entry 3), units := [movingUnit [] [.copy 0 65536 4096]] }, 4095, 3, entry 3,
     movingUnit [] [.copy 0 65536 4096], by decide +kernel⟩,
   ⟨hostS { entry := some (entry 3), reading := true }, 4095, entry 3, by decide +kernel⟩,
   ⟨hostS { entry := some (entry 3), units := [{ kind := 2, first := 3, descs := [(3, descWith 16 3 0 4097 65536)], stage := .finished, outcome := 1 }] },
     4095, entry 3, { kind := 2, first := 3, descs := [(3, descWith 16 3 0 4097 65536)], stage := .finished, outcome := 1 },
     [], by decide +kernel⟩,
   ⟨hostS { entry := some (entry 3), units := [{ kind := 2, first := 3, descs := [(3, descWith 16 3 0 4097 65536)], stage := .finished, outcome := 1 }] },
     4095, entry 3, { kind := 2, first := 3, descs := [(3, descWith 16 3 0 4097 65536)], stage := .finished, outcome := 1 },
     [], by decide +kernel⟩,
   ⟨regs (hostS { entry := some (entry 3) }) [(Ix.chHaltCause, 4096, 1)], 4095, by decide +kernel⟩,
   ⟨hostS {}, 4095, 0,
   Or.inl rfl⟩,
   ⟨hostS {}, 4095, 2, by decide +kernel⟩,
   ⟨hostS { accepted := 1 }, 4095, 0, by decide +kernel⟩,
   ⟨hostS { entry := some (entry 3), units := [{ moveUnit 3 with stage := .finished }] }, 4095, 3,
     { moveUnit 3 with stage := .finished }, by decide +kernel⟩,
   ⟨hostS {}, 4096, by decide +kernel⟩,
   ⟨hostS {}, 4095, 1, by decide +kernel⟩,
   ⟨{ hostS {} with ho := { (hostS {}).ho with dmaNext := some 1 } }, 1, by decide +kernel⟩⟩

theorem wit_DictionaryEntries :
    (∃ (s : State),
      s.trafficWaits = true) ∧
    (∃ (s : State),
      s.trafficWaits = false ∧ s.reg Ix.cormusTagRequired 0 ≠ 0) ∧
    (∃ (s : State) (idx : Nat),
      s.trafficWaits = false ∧ (idx = Ix.cormusTagRequired ∨ 0xB000 ≤ idx ∧ idx ≤ 0xBFFF)) ∧
    (∃ (s : State) (idx : Nat) (sub : Nat) (o : ObjDesc) (tagged : Bool),
      s.trafficWaits = false ∧ (tagged = true ∨ s.reg Ix.cormusTagRequired 0 = 0) ∧ objAt idx = some o ∧
      (o.cnt = .scalar ∨ sub ≠ 0) ∧ s.elementPresent o sub = true) ∧
    (∃ (s : State) (idx : Nat) (sub : Nat) (o : ObjDesc) (data : List Byte) (tagged : Bool) (i : Instr),
      s.trafficWaits = false ∧ tagged = true ∧ idx ≠ Ix.imageCommand ∧ objAt idx = some o ∧ (o.cnt = .scalar ∨ sub ≠ 0) ∧
      s.elementWritable o sub = true ∧ (i = .write idx sub data tagged ∨ i = .objectWrite idx sub data)) ∧
    (∃ (s : State) (idx : Nat) (sub : Nat) (o : ObjDesc) (v : List Byte) (c : List Byte),
      s.trafficWaits = false ∧ objAt idx = some o ∧ o.cnt = .scalar ∧ s.elementPresent o 0 = true ∧ v.length = o.ty.width ∧
      c.length = o.ty.width) ∧
    (∃ (s : State) (b : Byte),
      s.trafficWaits = false ∧ s.nv.minSecurity < b.toNat ∧ b.toNat ≤ fwSecurity s.booted ∧ b.toNat ≤ 63 ∧
      s.reg Ix.supplyState 0 ≠ 1) ∧
    (∃ (s : State) (idx : Nat) (sub : Nat) (off : Nat) (size : Nat) (count : Nat) (o : ObjDesc) (data : List Byte),
      s.trafficWaits = false ∧ objAt idx = some o ∧ s.elementPresent o sub = true ∧ o.ty = .table size count ∧
      (o.acc = .rw ∨ o.acc = .rwb)) ∧
    (∃ (s : State) (v : Nat),
      v < 8 ∧ s.islandState 55 = 3) :=
  ⟨⟨regs (up []) [(Ix.startPhase, 0, 2)], by decide +kernel⟩,
   ⟨regs (up []) [(Ix.cormusTagRequired, 0, 1)], by decide +kernel⟩,
   ⟨up [], 0xBFFF, by decide +kernel⟩,
   ⟨up [], Ix.queueAlpha, 4128, ⟨Ix.queueAlpha, .u 1, .rwb, .cfg, .queues, .island 48, 5, .within 0 9⟩, false,
     by decide +kernel⟩,
   ⟨up [], Ix.queueAlpha, 1, ⟨Ix.queueAlpha, .u 1, .rwb, .cfg, .queues, .island 48, 5, .within 0 9⟩, [5], true,
     .objectWrite Ix.queueAlpha 1 [5],
   by decide +kernel, rfl, by decide +kernel, by decide +kernel, by decide +kernel, by decide +kernel, by decide +kernel⟩,
   ⟨up [], Ix.islandReset, 0, ⟨Ix.islandReset, .u 1, .rwg, .sc, .scalar, .island 55, 255, .any⟩, [54], [201],
     by decide +kernel⟩,
   ⟨{ up [] with nv := { fwSlots := [(0, List.replicate 16 0 ++ [1, 0, 0, 0])] } }, 1, by decide +kernel⟩,
   ⟨up [], Ix.copyList, 0, 0, 128, 16384, ⟨Ix.copyList, .table 128 16384, .rw, .cfg, .scalar, .island 49, 0, .any⟩, [1],
     by decide +kernel⟩,
   ⟨up [55], 7, by decide +kernel⟩⟩

theorem wit_CormusAndManagementPort :
    (∃ (s : State) (frame : List Byte),
      s.cormusOf 512 frame = none) ∧
    (∃ (s : State) (s1 : State) (port : Nat) (frame : List Byte) (b : List Byte) (u : Option Udp),
      s.sy.hold = none ∧ s.sy.recovery = false ∧
      (port < 512 ∧ s.portPresent port = true ∨ port = 512 ∧ s.reg Ix.t1sEnable 0 ≠ 0) ∧ s1 = s.count Ix.cormusRx 0 1 ∧
      s.cormusOf port frame = some (b, u)) ∧
    (∃ (s : State) (port : Nat) (frame : List Byte) (f : List Byte),
      s.trafficWaits = false ∧ s.resolution frame = some f ∧
      (port < 512 ∧ s.portPresent port = true ∨ port = 512 ∧ s.reg Ix.t1sEnable 0 ≠ 0)) ∧
    (∃ (s : State),
      s.plcaOn = true ∧ s.reg Ix.t1sPlcaNodeId 0 ≠ 0) ∧
    (∃ (s : State),
      s.plcaOn = true ∧ s.reg Ix.t1sPlcaNodeId 0 = 0) ∧
    (∃ (s : State) (w : List Byte) (rest : List (List Byte)),
      s.mp.out = w :: rest ∧ s.reg Ix.t1sEnable 0 ≠ 0) ∧
    (∃ (s : State) (frame : List Byte) (w : List Byte),
      s.reg Ix.t1sEnable 0 ≠ 0 ∧ s.sy.hold = none ∧ s.sy.recovery = false ∧ w = frame.take (frame.length - 4)) :=
  ⟨⟨up [], List.replicate 60 0, by decide +kernel⟩,
   ⟨{ up [] with dict := (up []).dict ++ [(dictKey Ix.deviceMacBase 0, 0)] },
     (({ up [] with dict := (up []).dict ++ [(dictKey Ix.deviceMacBase 0, 0)] })).count Ix.cormusRx 0 1, 512,
     List.replicate 6 0xFF ++ List.replicate 6 0 ++ beBytes 2 0x88B5 ++ [1, 2, 3], [1, 2, 3], none,
   by decide +kernel, by decide +kernel, by decide +kernel, rfl, by decide +kernel⟩,
   ⟨{ regs (up []) [(Ix.deviceIpv4, 0, leNat [10, 0, 0, 1])] with dict := (regs (up []) [(Ix.deviceIpv4, 0, leNat [10, 0, 0, 1])]).dict ++ [(dictKey Ix.deviceMacBase 0, 0)] },
     511, List.replicate 12 0xFF ++ beBytes 2 0x0806 ++ [0, 1, 8, 0, 6, 4, 0, 1, 2, 0, 0, 0, 0, 1, 10, 0, 0, 2, 0, 0, 0, 0,
     0, 0, 10, 0, 0, 1],
     ((({ regs (up []) [(Ix.deviceIpv4, 0, leNat [10, 0, 0, 1])] with dict := (regs (up []) [(Ix.deviceIpv4, 0, leNat [10, 0, 0, 1])]).dict ++ [(dictKey Ix.deviceMacBase 0, 0)] })).resolution
     ((List.replicate 12 0xFF ++ beBytes 2 0x0806 ++ [0, 1, 8, 0, 6, 4, 0, 1, 2, 0, 0, 0, 0, 1, 10, 0, 0, 2, 0, 0, 0, 0, 0,
     0, 10, 0, 0, 1]))).getD [], by decide +kernel⟩,
   ⟨regs (up []) [(Ix.t1sPlcaEnable, 0, 1)], by decide +kernel⟩,
   ⟨regs (up []) [(Ix.t1sPlcaEnable, 0, 1), (Ix.t1sPlcaNodeId, 0, 0)], by decide +kernel⟩,
   ⟨{ up [] with mp := { out := [[1]] } }, [1], [], by decide +kernel⟩,
   ⟨up [], List.replicate 64 0, List.replicate 60 0, by decide +kernel⟩⟩

theorem wit_MemoryView :
    (∃ (s : State),
      s.viewOpen = false) ∧
    (∃ (s : State) (off : Nat) (n : Nat) (v : List Byte) (i : Instr),
      s.viewOpen = true ∧ s.viewWaits = true ∧ off < 0x4000000 ∧ off ≠ 0x100008) ∧
    (∃ (s : State) (off : Nat) (n : Nat),
      s.viewOpen = true ∧ s.viewWaits = false ∧ off < 0x4000000 ∧ off ≠ 0x100008 ∧ (n ≠ 4 ∧ n ≠ 8 ∨ off % n ≠ 0)) ∧
    (∃ (s : State) (off : Nat) (v : List Byte),
      s.viewOpen = true ∧ s.viewWaits = false ∧ 0x100050 ≤ off ∧ off < 0x4000000) ∧
    (∃ (s : State) (o : ObjDesc) (off : Nat),
      s.viewOpen = true ∧ s.viewWaits = false ∧ off < 0xE0000 ∧ off % 16 = 0 ∧ s.slotObj (0x1000 + off / 16) = some o ∧
      (o.acc = .ro ∨ o.acc = .rw ∨ o.acc = .rwb)) ∧
    (∃ (s : State) (o : ObjDesc) (off : Nat) (v : List Byte),
      s.viewOpen = true ∧ s.viewWaits = false ∧ off < 0xE0000 ∧ off % 16 = 0 ∧ s.slotObj (0x1000 + off / 16) = some o ∧
      o.acc ≠ .rwg ∧ v.length = 4) ∧
    (∃ (s : State) (v : List Byte),
      s.viewOpen = true ∧ s.viewWaits = false ∧ v.length = 8) ∧
    (∃ (s : State) (o : ObjDesc) (idx : Nat) (sub : Nat),
      s.viewOpen = true ∧ s.viewWaits = false ∧ s.sy.recovery = false ∧ idx < 65536 ∧ sub + 1 < 65536 ∧
      s.mv.indAddr = idx + 65536 * sub ∧ objAt idx = some o ∧ 1 ≤ sub ∧ sub ≤ s.elementCount o ∧
      s.elementPresent o sub = true ∧ o.cnt ≠ .scalar ∧ (o.acc = .rw ∨ o.acc = .rwb) ∧ o.ty.isTable = false ∧
      o.ty.width ≤ 4) ∧
    (∃ (s : State) (o : ObjDesc) (off : Nat) (v : List Byte),
      s.viewOpen = true ∧ s.viewWaits = false ∧ off < 0xE0000 ∧ off % 16 = 0 ∧ s.slotObj (0x1000 + off / 16) = some o ∧
      o.acc = .rwg ∧ v.length = 4) ∧
    (∃ (s : State) (idx : Nat) (x : Nat) (t0 : Stamp),
      s.mv.guarded = some (idx, x, t0)) :=
  ⟨⟨up [], by decide +kernel⟩,
   ⟨regs (up [55]) [(Ix.strapValues, 0, 4), (Ix.startPhase, 0, 2)], 0, 8, [], .mvIndDataRead 8, by decide +kernel⟩,
   ⟨regs (up [55]) [(Ix.strapValues, 0, 4)], 2, 4, by decide +kernel⟩,
   ⟨regs (up [55]) [(Ix.strapValues, 0, 4)], 0x100050, List.replicate 8 0, by decide +kernel⟩,
   ⟨regs (up [55]) [(Ix.strapValues, 0, 4)], ⟨Ix.imageActiveSlot, .u 1, .ro, .hv, .scalar, .island 55, 0, .any⟩,
     (Ix.imageActiveSlot - 0x1000) * 16, by decide +kernel⟩,
   ⟨regs (up [55]) [(Ix.strapValues, 0, 4)], ⟨Ix.cormusEthertype, .u 2, .rw, .cfg, .scalar, .island 55, 34997, .any⟩,
     (Ix.cormusEthertype - 0x1000) * 16, [1, 2, 3, 4], by decide +kernel⟩,
   ⟨regs (up [55]) [(Ix.strapValues, 0, 4)], List.replicate 8 1, by decide +kernel⟩,
   ⟨{ regs (up [55]) [(Ix.strapValues, 0, 4)] with mv := { indAddr := Ix.applyDomain + 65536 * 16 } }, ⟨Ix.applyDomain,
     .u 1, .rw, .cfg, .fixed 16, .island 55, 0, .within 0 3⟩, Ix.applyDomain, 16, by decide +kernel⟩,
   ⟨regs (up [55]) [(Ix.strapValues, 0, 4)], ⟨Ix.islandReset, .u 1, .rwg, .sc, .scalar, .island 55, 255, .any⟩,
     (Ix.islandReset - 0x1000) * 16, [0x25, 0, 0, 0], by decide +kernel⟩,
   ⟨at_ ({ up [] with mv := { guarded := some (Ix.islandReset, 0x25, 0) } }) 65536000000, Ix.islandReset, 0x25, 0,
     by decide +kernel⟩⟩

theorem wit_ImageCommands :
    (∃ (s : State) (i : Instr),
      s.nv.imgJob.isSome = true ∧
      i ∈ [.imageSave, .imageSelect, .imageRestore, .imageFactory, .imageErase, .imageCompare, .imageInstall]) ∧
    (∃ (s : State) (i : Instr) (code : Nat) (shown : Nat),
      s.nv.imgJob = none ∧
      (i, code, shown) ∈ [(Instr.imageSave, 1, 1), (.imageSelect, 2, 7), (.imageErase, 5, 9), (.imageInstall, 7, 10)]) ∧
    (∃ (s : State) (im : List Byte),
      im = buildImage s.variant.code s.imgNextSeq (fwVersion s.booted) s.savedList) ∧
    (∃ (s : State) (n : Nat),
      s.nv.imgJob = none ∧ s.reg Ix.imageActiveSlot 0 = n ∧ n < 2) ∧
    (∃ (s : State),
      s.nv.imgJob = none ∧ 2 ≤ s.reg Ix.imageActiveSlot 0) ∧
    (∃ (s : State) (u : State),
      s.nv.imgJob = none ∧ u = s.factoryAll) ∧
    (∃ (s : State) (j : NvJob),
      s.nv.imgJob = some j) :=
  ⟨⟨{ up [] with nv := { imgJob := some ⟨1, [], 1, 0, 0⟩ } }, .imageInstall, by decide +kernel⟩,
   ⟨up [], .imageInstall, 7, 10, by decide +kernel⟩,
   ⟨up [], buildImage ((up [])).variant.code ((up [])).imgNextSeq (fwVersion ((up [])).booted) ((up [])).savedList,
   rfl⟩,
   ⟨regs (up []) [(Ix.imageActiveSlot, 0, 1)], 1, by decide +kernel⟩,
   ⟨regs (up []) [(Ix.imageActiveSlot, 0, 2)], by decide +kernel⟩,
   ⟨up [], ((up [])).factoryAll,
   by decide +kernel, rfl⟩,
   ⟨{ up [] with nv := { imgJob := some ⟨1, [], 1, 0, 0⟩ } }, ⟨1, [], 1, 0, 0⟩, by decide +kernel⟩⟩

theorem wit_LaneBringUp :
    (∃ (s : State) (k : Nat),
      s.sectorPresent k = true) ∧
    (∃ (s : State) (l : Nat),
      s.portPresent l = true ∧ s.laneState l = 1 ∧ (s.lane l).backoff = none) ∧
    (∃ (s : State) (l : Nat) (n : Nat) (coeffs : List Byte),
      s.portPresent l = true ∧ s.laneState l = 2 ∧ coeffs.length = 14 ∧ (coeffs.headD 0#8).toNat < 32 ∧
      n = (if s.laneMode l = 1 then 2 else if s.laneMode l = 2 then 7 else 14)) ∧
    (∃ (s : State) (l : Nat) (i : Instr),
      s.portPresent l = true ∧
      ((i = .laneSignalLoss l ∧ (s.laneState l = 2 ∨ s.laneState l = 3)) ∨ (i = .laneAdaptTimeout l ∧ s.laneState l = 2 ∧ State.ns (s.reg Ix.laneAdaptTimeout (l + 1) * 1000000) ≤ s.since (s.lane l).entered) ∨ (i = .laneLockTimeout l ∧ s.laneState l = 3 ∧ State.ns (s.reg Ix.laneLockTimeout (l + 1) * 1000000) ≤ s.since (s.lane l).entered))) ∧
    (∃ (s : State) (p : Nat) (an : Bool),
      s.portPresent p = true ∧ s.reg Ix.portMode (p + 1) ≠ 0 ∧ s.reg Ix.portMode (p + 1) ≠ 8 ∧
      (s.reg Ix.portMode (p + 1) ≠ 1 ∨ s.reg Ix.laneAnEnable (p + 1) = 0 ∨ an = true) ∧
      (∀ l, l ∈ s.portLanes p → s.laneState l = 3 ∧ State.ns 1000000 ≤ s.since (s.lane l).entered)) ∧
    (∃ (s : State) (l : Nat),
      s.portPresent l = true ∧ s.laneState l = 4) ∧
    (∃ (s : State) (l : Nat) (ms : Nat) (t0 : Stamp),
      s.portPresent l = true ∧ (s.lane l).backoff = some (t0, ms) ∧ State.ns (ms * 1000000) ≤ s.since t0) ∧
    (∃ (s : State) (l : Nat) (t0 : Stamp),
      s.portPresent l = true ∧ (s.lane l).linkTimer = some t0 ∧
      State.ns (s.reg Ix.laneLinkupTimeout (l + 1) * 1000000) ≤ s.since t0) :=
  ⟨⟨up [], 15, by decide +kernel⟩,
   ⟨(regs (up []) [(Ix.portMode, 512, 2), (Ix.laneState, 512, 1)]).setLane 511 {}, 511, by decide +kernel⟩,
   ⟨(regs (up []) [(Ix.portMode, 512, 2), (Ix.laneState, 512, 2)]).setLane 511 {}, 511, 7, List.replicate 14 0,
     by decide +kernel⟩,
   ⟨(regs (up []) [(Ix.portMode, 512, 2), (Ix.laneState, 512, 3)]).setLane 511 {}, 511, .laneSignalLoss 511,
     by decide +kernel⟩,
   ⟨at_ ((regs (up []) [(Ix.portMode, 512, 1), (Ix.laneState, 512, 3)]).setLane 511 {}) 65536000000, 511, true,
     by decide +kernel⟩,
   ⟨(regs (up []) [(Ix.portMode, 512, 2), (Ix.laneState, 512, 4)]).setLane 511 {}, 511, by decide +kernel⟩,
   ⟨at_ ((regs (up []) [(Ix.portMode, 512, 2), (Ix.laneState, 512,
     1)]).setLane 511 { backoff := some (0, 1) }) 65536000000, 511, 1, 0, by decide +kernel⟩,
   ⟨at_ ((regs (up []) [(Ix.portMode, 512, 2), (Ix.laneState, 512,
     1)]).setLane 511 { linkTimer := some 0 }) 0x4000000000000000, 511, 0, by decide +kernel⟩⟩

theorem wit_LaneUpkeepAndSleep :
    (∃ (s : State) (l : Nat),
      s.portPresent l = true ∧ s.laneState l = 4 ∧ (s.lane l).guard = false ∧
      (∀ p ∈ s.portsOfLane l, s.rxFrame? (State.macKey p false) = none) ∧
      State.ns (s.reg Ix.laneIdleGuardTime (l + 1) * 1000) ≤ s.since (s.lane l).lastData) ∧
    (∃ (s : State) (l : Nat) (period : Nat) (coeffs : List Byte),
      s.portPresent l = true ∧ s.laneState l = 4 ∧ period = State.ns (s.reg Ix.laneAnchorRefresh (l + 1) * 1000000000) ∧
      period ≠ 0 ∧ period ≤ s.since (s.lane l).refreshFrom ∧ s.lanePort l = some l ∧ s.laneMode l ∉ [1, 2] ∧
      coeffs.length = 14 ∧ (coeffs.headD 0#8).toNat < 32) ∧
    (∃ (s : State) (l : Nat),
      s.portPresent l = true ∧ s.inReset (l / 32) = false) ∧
    (∃ (s : State) (p : Nat),
      s.portPresent p = true) ∧
    (∃ (s : State) (l : Nat) (tq : Nat),
      s.portPresent l = true ∧ s.laneMode l = 5 ∧ s.laneState l = 4) ∧
    (∃ (s : State) (p : Nat),
      s.portPresent p = true ∧ s.linkUp p = true ∧ s.reg Ix.portMode (p + 1) ≠ 1 ∧ s.reg Ix.portMode (p + 1) ≠ 5) ∧
    (∃ (s : State) (l : Nat) (v : Nat) (h : Nat) (coeffs : List Byte),
      s.portPresent l = true ∧ s.laneState l = 4 ∧ v < 65536 ∧ h < 65536 ∧ State.ns 100000000 ≤ s.since (s.lane l).eyeAt) ∧
    (∃ (s : State) (l : Nat) (errors : List Bool),
      s.portPresent l = true ∧ s.laneState l = 5 ∧ s.reg Ix.laneTestMode (l + 1) = 1) ∧
    (∃ (s : State) (l : Nat) (e : Bool),
      s.portPresent l = true ∧ s.laneState l = 5 ∧ s.reg Ix.laneTestMode (l + 1) = 1) :=
  ⟨⟨at_ ((regs (up []) [(Ix.portMode, 512, 2), (Ix.laneState, 512, 4)]).setLane 511 {}) 0x4000000000000000, 511,
     by decide +kernel⟩,
   ⟨at_ (regs ((regs (up []) [(Ix.portMode, 512, 5), (Ix.laneState, 512, 4)]).setLane 511 {}) [(Ix.laneAnchorRefresh, 512,
     1)]) 0x4000000000000000, 511, State.ns 1000000000, List.replicate 14 0, by decide +kernel⟩,
   ⟨up [15], 511, by decide +kernel⟩,
   ⟨up [], 511, by decide +kernel⟩,
   ⟨(regs (up []) [(Ix.portMode, 512, 5), (Ix.laneState, 512, 4)]).setLane 511 {}, 511, 0, by decide +kernel⟩,
   ⟨(regs (up []) [(Ix.portMode, 512, 2), (Ix.laneState, 512, 4)]).setLane 511 {}, 511, by decide +kernel⟩,
   ⟨at_ ((regs (up []) [(Ix.portMode, 512, 2), (Ix.laneState, 512, 4)]).setLane 511 {}) 0x4000000000000000, 511, 65535,
     65535, List.replicate 14 0, by decide +kernel⟩,
   ⟨regs ((regs (up []) [(Ix.portMode, 512, 2), (Ix.laneState, 512, 5)]).setLane 511 {}) [(Ix.laneTestMode, 512, 1)], 511,
     [], by decide +kernel⟩,
   ⟨regs ((regs (up []) [(Ix.portMode, 512, 2), (Ix.laneState, 512, 5)]).setLane 511 {}) [(Ix.laneTestMode, 512, 1)], 511,
     true, by decide +kernel⟩⟩

theorem wit_MemoryIsland :
    (∃ (s : State) (c : Nat),
      c < 8 ∧ s.memServes c = true ∧ State.ns (s.reg Ix.memRetrainPeriod 0 * 1000000) ≤ s.since (s.memChan c).checked) ∧
    (∃ (s : State) (c : Nat) (code : Nat),
      c < 8 ∧ code < 256 ∧ s.memServes c = true ∧ State.ns 16000000 ≤ s.since (s.memChan c).polled) ∧
    (∃ (s : State) (c : Nat) (why : Nat),
      c < 8) ∧
    (∃ (s : State) (c : Nat),
      c < 8) ∧
    (∃ (s : State) (c : Nat),
      c < 8 ∧ s.reg Ix.memChState (c + 1) = 2 ∧ s.sy.retaining = false) ∧
    (∃ (s : State) (corrected : List (Nat × Nat)),
      2 ≤ s.reg Ix.memState 0 ∧ s.sy.retaining = false ∧
      s.mm.scrubbed + s.reg Ix.memScrubPeriod 0 * State.second ≤ s.rawTotal) ∧
    (∃ (s : State) (w : Nat) (copy : Nat) (c : Nat),
      s.reg Ix.memState 0 ≥ 2 ∧ s.sy.retaining = false ∧
      s.mm.scrubbed + s.reg Ix.memScrubPeriod 0 * State.second ≤ s.rawTotal ∧ 64 * w < s.memLimit ∧ s.memServes c = true) :=
  ⟨⟨at_ (regs (up [53]) [(Ix.memState, 0, 2)]) 0x4000000000000000, 7, by decide +kernel⟩,
   ⟨at_ (regs (up [53]) [(Ix.memState, 0, 2)]) 1048576000000, 7, 255, by decide +kernel⟩,
   ⟨regs (up [53]) [(Ix.memState, 0, 1)], 7, 0, by decide +kernel⟩,
   ⟨regs (up [53]) [], 7, by decide +kernel⟩,
   ⟨regs (up [53]) [(Ix.memChState, 8, 2)], 7, by decide +kernel⟩,
   ⟨at_ ({ regs (up [53]) [(Ix.memState, 0, 2), (Ix.memScrubPeriod, 0, 3600)] with mm := {} }) 235929600000000000, [],
     by decide +kernel⟩,
   ⟨at_ ({ regs (up [53]) [(Ix.memState, 0, 2), (Ix.memScrubPeriod, 0, 3600)] with mm := { mirror := 64, chanData := 16 } })
     235929600000000000, 0, 1, 1, by decide +kernel⟩⟩

theorem wit_NonVolatileAndQuotes :
    (∃ (s : State) (i : Instr) (code : Nat),
      (i, code) ∈ [(Instr.fwInstall, 1), (.fwSelect, 2), (.fwErase, 3)]) ∧
    (∃ (s : State) (j : NvJob),
      s.nv.fwJob = some j) ∧
    (∃ (s : State) (j : NvJob),
      s.nv.imgJob = some j ∧ j.left ≠ 0 ∧ j.cause = 0 ∧ s.reg Ix.nvState 0 ≠ 1) ∧
    (∃ (s : State) (j : NvJob),
      s.nv.imgJob = some j ∧ j.left ≠ 0 ∧ j.cause = 0 ∧ s.reg Ix.nvState 0 ≠ 1) ∧
    (∃ (s : State) (v : Nat) (c : Nat),
      v + c ≠ 255) ∧
    (∃ (s : State) (v : Nat) (c : Nat),
      v + c = 255) ∧
    (∃ (s : State) (key : List Byte),
      Ix.ownerKey ∉ s.nv.locked ∧ key.length = 60) ∧
    (∃ (s : State) (q : QuoteJob),
      s.nv.quote = some q ∧ q.leaf = none ∧ s.treeReady = true ∧ s.reg Ix.nvState 0 ≠ 1) ∧
    (∃ (s : State) (q : QuoteJob),
      s.nv.quote = some q ∧ q.leaf = none ∧ s.treeReady = true ∧ s.reg Ix.nvState 0 ≠ 1) ∧
    (∃ (s : State) (q : QuoteJob) (leaf : Nat),
      s.nv.quote = some q ∧ q.leaf = some leaf ∧ s.reg Ix.nvState 0 ≠ 1) ∧
    (∃ (s : State) (q : QuoteJob) (ok : Bool),
      s.nv.quote = some q ∧ q.leaf = none ∧ s.treeReady = false ∧ s.reg Ix.nvState 0 ≠ 1) :=
  ⟨⟨up [], .fwErase, 3, by decide +kernel⟩,
   ⟨{ up [] with nv := { fwJob := some ⟨1, [], 1, 0, 0⟩ } }, ⟨1, [], 1, 0, 0⟩, by decide +kernel⟩,
   ⟨{ up [] with nv := { imgJob := some ⟨1, [], 1, 0, 0⟩ } }, ⟨1, [], 1, 0, 0⟩, by decide +kernel⟩,
   ⟨{ up [] with nv := { imgJob := some ⟨1, [], 1, 0, 0⟩ } }, ⟨1, [], 1, 0, 0⟩, by decide +kernel⟩,
   ⟨up [], 1, 255, by decide +kernel⟩,
   ⟨up [], 1, 254, by decide +kernel⟩,
   ⟨up [], List.replicate 60 1, by decide +kernel⟩,
   ⟨{ up [] with nv := { quote := some { nonce := [], domain := 0, raw := 0, sync := 0 } } },
     { nonce := [], domain := 0, raw := 0, sync := 0 }, by decide +kernel⟩,
   ⟨{ up [] with nv := { quote := some { nonce := [], domain := 0, raw := 0, sync := 0 } } },
     { nonce := [], domain := 0, raw := 0, sync := 0 }, by decide +kernel⟩,
   ⟨{ up [] with nv := { quote := some { nonce := [], domain := 0, raw := 0, sync := 0, leaf := some 5 } } },
     { nonce := [], domain := 0, raw := 0, sync := 0, leaf := some 5 }, 5, by decide +kernel⟩,
   ⟨{ up [] with nv := { quote := some { nonce := [], domain := 0, raw := 0, sync := 0 }, nextLeaf := 32768 } },
     { nonce := [], domain := 0, raw := 0, sync := 0 }, true, by decide +kernel⟩⟩

theorem wit_AgeingAndSupply :
    (∃ (s : State) (i : Nat) (a : Int) (b : Int),
      s.islandPresent i = true ∧ a ≤ b ∧ -2147483648 ≤ b ∧ b ≤ 2147483647 ∧ s.sy.hold = none ∧
      State.hour ≤ s.since s.ag.benchAt) ∧
    (∃ (s : State) (u : State) (temps : List Int) (rails : List Nat),
      u = (s.setSensors temps).setRails rails) ∧
    (∃ (s : State) (u : State),
      s.sy.hold = none ∧ State.hour ≤ s.since s.ag.hourAt ∧
      u = { s with ag := { s.ag with hours := s.ag.hours + 1, hourAt := s.rawTotal } }) ∧
    (∃ (s : State) (m : Int) (naks : Nat) (v : Nat),
      1 ≤ s.sectors ∧ -32768 ≤ m ∧ m ≤ 32767 ∧ s.su.loopOff = false ∧ s.sy.hold = none ∧ s.sy.superDown = false ∧
      State.second ≤ s.since s.su.measuredAt ∧ (∀ t0, s.su.moved = some t0 → 10 * State.second ≤ s.since t0) ∧
      s.reg Ix.avsSetpoint 0 = v) ∧
    (∃ (s : State) (u : State) (r : Nat) (mv : Nat),
      r < 7 ∧ s.sy.hold = none ∧ u = s.setRail r mv) ∧
    (∃ (s : State) (u : State) (n : Nat) (x : Int),
      n < 48 ∧ s.sy.hold = none ∧ u = s.setSensor n x) ∧
    (∃ (s : State) (u : State) (temps : List Int),
      u = s.setSensors temps) ∧
    (∃ (s : State) (w : Nat),
      s.sy.hold = none ∧ s.sy.superDown = false) :=
  ⟨⟨at_ (up []) 235929600000000000, 55, -2147483648, 2147483647, by decide +kernel⟩,
   ⟨up [], (((up [])).setSensors [25]).setRails [780], [25], [780],
   rfl⟩,
   ⟨at_ (up []) 235929600000000000,
     { (at_ (up []) 235929600000000000) with ag := { ((at_ (up []) 235929600000000000)).ag with hours := ((at_ (up []) 235929600000000000)).ag.hours + 1, hourAt := ((at_ (up []) 235929600000000000)).rawTotal } },
   by decide +kernel, by decide +kernel, rfl⟩,
   ⟨at_ (up []) 235929600000000000, -32768, 3, 780,
   by decide +kernel, by decide +kernel, by decide +kernel, by decide +kernel, by decide +kernel, by decide +kernel,
     by decide +kernel, (fun t0 h => nomatch h), by decide +kernel⟩,
   ⟨up [], ((up [])).setRail 6 600, 6, 600,
   by decide +kernel, by decide +kernel, rfl⟩,
   ⟨up [], ((up [])).setSensor 47 25, 47, 25,
   by decide +kernel, by decide +kernel, rfl⟩,
   ⟨up [], ((up [])).setSensors [25], [25],
   rfl⟩,
   ⟨up [], 0, by decide +kernel⟩⟩

theorem wit_ResetsAndTestPort :
    (∃ (s : State) (u : State) (rails : List Nat),
      s.sy.hold = some .porn ∧ u = s.setRails rails) ∧
    (∃ (s : State),
      s.sy.hold = none ∧ s.reg Ix.startPhase 0 = 1) ∧
    (∃ (s : State) (u : State) (straps : Nat) (linear : Bool) (rails : List Nat) (temps : List Int),
      u = (s.setRails rails).setSensors temps) ∧
    (∃ (s : State),
      s.sy.hold = none ∧ s.sy.retaining = false ∧ s.sy.superDown = false ∧ s.reg Ix.startPhase 0 ≠ 0 ∧
      State.ns (s.reg Ix.supervisorWatchdogTime 0 * 1000000) ≤ s.since s.sy.upSince) ∧
    (∃ (s : State),
      s.sy.superDown = true ∧ s.sy.held = [] ∧ s.sy.heldReads = [] ∧ s.co.waiting = []) ∧
    (∃ (s : State) (i : Instr) (code : Nat),
      ((i, code) ∈ [(Instr.extest, 0x00), (.idcode, 0x01), (.samplePreload, 0x02), (.extestPulse, 0x08), (.extestTrain, 0x09), (.highz, 0x0A), (.clamp, 0x0B)] ∨ code = 0xFF ∧ (∃ c, i = .bypass c ∧ c ∉ [0x00, 0x01, 0x02, 0x08, 0x09, 0x0A, 0x0B]))) ∧
    (∃ (s : State) (c : Nat),
      c ∈ [0x00, 0x01, 0x02, 0x08, 0x09, 0x0A, 0x0B]) :=
  ⟨⟨State.reset, ((State.reset)).setRails [], [],
   by decide +kernel, rfl⟩,
   ⟨regs (up []) [(Ix.startPhase, 0, 1)], by decide +kernel⟩,
   ⟨State.reset, (((State.reset)).setRails []).setSensors [], 0, false, [], [],
   rfl⟩,
   ⟨at_ (up []) 0x4000000000000000, by decide +kernel⟩,
   ⟨{ up [] with sy := { hold := none, superDown := true } }, by decide +kernel⟩,
   ⟨up [], .bypass 0x55, 0xFF,
   Or.inr ⟨rfl, _, rfl, by decide +kernel⟩⟩,
   ⟨up [], 0x0B, by decide +kernel⟩⟩

theorem wit_StepRunsFrontCommand :
    (∃ (c : Instr) (rest : List Instr) (s : State),
      s.pending = c :: rest) ∧
    (∃ (s : State),
      s.pending = []) :=
  ⟨⟨.applyNow 65535, [], { up [] with pending := [.applyNow 65535] },
   rfl⟩,
   ⟨{ up [] with tm := { refPresent := false } }, by decide +kernel⟩⟩

theorem wit_ResetState :
    ∃ (i : Nat),
      i < 56 :=
  ⟨55, by decide +kernel⟩

theorem wit_AwlLimitsAreKept :
    ∃ (s : State) (t : State) (c : Instr) (rest : List Instr) (w : Nat) (o : AwlOp),
      s.pending = c :: rest ∧
      c ∈ [.nop w o, .add w o, .sub w o, .and w o, .or w o, .xor w o, .shl w o, .shr w o, .sar w o, .mul w o, .movi w o, .movh w o, .cmp w o, .cka w o, .hsh w o, .hex w o, .hin w o, .mld w o, .mst w o, .hins w o, .hdel w o, .sld w o, .sst w o, .sadd w o, .xlk w o, .tlk w o, .crd w o, .xwrInsert w o, .xwrDelete w o, .cntAdd w o, .cntFrame w o, .mtr w o, .fwd w o, .rep w o, .mir w o, .drop w o, .spl w o, .rcv w o, .pcd w o, .svi w o, .tsr w o, .br w o, .bz w o, .bnz w o, .bf w o, .bnf w o, .call w o, .jr w o, .yld w o] ∧
      s.awlsOk = true ∧ step s = .next t :=
  ⟨{ awlS 0x00 ⟨0, 0, 0, false, 0, 0⟩ awl0 with pending := [.nop 4095 ⟨0, 0, 0, false, 0, 0⟩] },
     nextOf (step (({ awlS 0x00 ⟨0, 0, 0, false, 0, 0⟩ awl0 with pending := [.nop 4095 ⟨0, 0, 0, false, 0, 0⟩] }))),
     .nop 4095 ⟨0, 0, 0, false, 0, 0⟩, [], 4095, ⟨0, 0, 0, false, 0, 0⟩,
   rfl, .head _, by decide +kernel, eq_next_of_isNext (by decide +kernel)⟩

end Sys2Proof.Tests
end

section
/-! Elements a write leaves: the frame `regsBut` of a run of writes, and the reading of an element of another object. -/

namespace Sys2Proof.Proofs
open Sys2Proof Sys2Proof.Machine Sys2Proof.Laws

/-- Elements of different objects have different keys. -/
theorem dictKey_ne_of_index_ne {i j i' j' : Nat} (hj : j < 65536) (hj' : j' < 65536) (h : i ≠ i') : dictKey i j ≠ dictKey i' j' :=
  fun e => h ((dictKey_inj hj hj').mp e).1

/-- A write of one object leaves the elements of every other. -/
theorem reg_setReg_of_index_ne (s : State) {i j ix sub : Nat} (v : Nat) (h : ix ≠ i) (hs : sub < 65536) (hj : j < 65536) :
    (s.setReg i j v).reg ix sub = s.reg ix sub :=
  reg_setReg_ne s i j v ix sub (dictKey_ne_of_index_ne hs hj h)

/-- A saturating count of one object leaves the elements of every other. -/
theorem reg_countSat_of_index_ne (s : State) {i j ix sub : Nat} (n : Nat) (h : ix ≠ i) (hs : sub < 65536) (hj : j < 65536) :
    (s.countSat i j n).reg ix sub = s.reg ix sub :=
  reg_setReg_of_index_ne s _ h hs hj

theorem regsBut_of_reg_eq {s t : State} (keys : List Nat) (h : ∀ ix sub, t.reg ix sub = s.reg ix sub) : s.regsBut t keys :=
  fun ix sub _ => h ix sub

theorem regsBut_trans {s t u : State} {keys : List Nat} (h : s.regsBut t keys) (h' : t.regsBut u keys) : s.regsBut u keys :=
  fun ix sub hk => (h' ix sub hk).trans (h ix sub hk)

/-- A write of a listed element stays within the frame. -/
theorem regsBut_setReg {s t : State} {keys : List Nat} {i j : Nat} (v : Nat) (h : s.regsBut t keys) (hk : dictKey i j ∈ keys) :
    s.regsBut (t.setReg i j v) keys :=
  fun ix sub hn => (reg_setReg_ne t i j v ix sub fun e => hn (by rw [e]; exact hk)).trans (h ix sub hn)

/-- An answer leaves every element. -/
theorem regsBut_reply {s t : State} {keys : List Nat} (a : Answer) (h : s.regsBut t keys) : s.regsBut (t.reply a) keys := h

@[simp] theorem satAdd_32 (v n : Nat) : satAdd 32 v n = min (v + n) 0xFFFFFFFF := by simp [satAdd]

@[simp] theorem wrapAdd_32 (v n : Nat) : wrapAdd 32 v n = (v + n) % 4294967296 := by simp [wrapAdd]

@[simp] theorem islandState_setIslandState_same (s : State) (i v : Nat) : (s.setIslandState i v).islandState i = v :=
  reg_setReg_same s _ _ v

@[simp] theorem islandState_setIsland (s : State) (i : Nat) (x : Island) (k : Nat) :
    (s.setIsland i x).islandState k = s.islandState k := rfl

@[simp] theorem resetting_setGroup (s : State) (g : Nat) (x : ApplyGroup) (i : Nat) : (s.setGroup g x).resetting i = s.resetting i := rfl

/-- An island is in reset where it reads RESET or INIT (R31). -/
theorem resetting_eq_false_iff {s : State} {i : Nat} : s.resetting i = false ↔ s.islandState i ≠ 1 ∧ s.islandState i ≠ 2 := by
  simp [State.resetting]

/-- The number of a present island is below 56. -/
theorem lt_of_islandPresent {s : State} {i : Nat} (h : s.islandPresent i = true) : i < 56 := by
  unfold State.islandPresent at h
  split at h
  · omega
  · exact of_decide_eq_true h

end Sys2Proof.Proofs
end

section
/-! Time beacons and time-lost islands (R15, R17). -/

namespace Sys2Proof.Proofs
open Sys2Proof Sys2Proof.Machine Sys2Proof.Laws

/-- Island `i` takes the beacon `sent` and leaves time-lost (R15, R17). -/
def takeBeacon (s : State) (i : Nat) (sent : Raw) : State :=
  (s.findTime i).setIsland i
    { (s.findTime i).island i with beacon := sent, heard := s.rawTotal, beaconRate := refPeriod5 s.tm.refFreq }

theorem exec_timeBeacon_of_due {s : State} {j : Nat} {sent : Raw} (hp : s.islandPresent j = true)
    (hs : sent.toNat = s.raw.toNat / 67108864 * 67108864) (hd : s.islandState j = 4 ∨ (s.island j).beacon ≠ sent) :
    exec (.timeBeacon j) s = .next (takeBeacon s j sent) := by
  have hsent : BitVec.ofNat 64 (s.raw.toNat / State.beaconPeriod * State.beaconPeriod) = sent := by
    rw [show State.beaconPeriod = 67108864 from rfl, ← hs, BitVec.ofNat_toNat, BitVec.setWidth_eq]
  have hn : ¬ (s.islandPresent j = false ∨ (s.timeLost j = false ∧ (s.island j).beacon = sent)) := by
    rintro (h | ⟨h4, hb⟩)
    · simp [hp] at h
    · rcases hd with h | h
      · simp [State.timeLost, h] at h4
      · exact h hb
  show execTimeBeacon j s = _
  simp only [execTimeBeacon, hsent, if_neg hn, takeBeacon]

/-- An island that finds its time keeps the end of the time-lost interval; without gates that wait nothing else changes but its
state, back to RUN where it was time-lost (R17). -/
theorem findTime_of_no_gates {s : State} {j : Nat} (h : s.islandState j ≠ 4 ∨ ∀ k ∈ tkeys s.eg.gates, gateIsland k ≠ j) :
    s.findTime j =
      let u := s.setIsland j { s.island j with lost := (s.island j).lost.map fun e => (e.1, some s.raw) }
      if s.islandState j = 4 then u.setIslandState j 3 else u := by
  unfold State.findTime
  by_cases h4 : s.islandState j = 4
  · have hg : (tkeys s.eg.gates).filter (fun k => gateIsland k == j) = [] := by
      simpa using h.resolve_left (not_not_intro h4)
    simp [State.timeLost, h4, hg]
  · simp [State.timeLost, h4]

/-- An island that has fallen silent becomes time-lost, and its count rises (R17). -/
def losesTime (s : State) (i : Nat) : State :=
  ((s.setIsland i { s.island i with lost := some (s.raw, none) }).setIslandState i 4).countSat Ix.timeBusLostCount (i + 1) 1

theorem exec_timeLost_of_silent {s : State} {i : Nat} (hp : s.islandPresent i = true) (h3 : s.islandState i = 3) (hi : i ≠ 51)
    (hq : 268435456 ≤ s.since (s.island i).heard) :
    exec (.timeLost i) s = .next ((losesTime s i).event Ix.timeBusLostCount 1 i []) := by
  show execTimeLost i s = _
  simp only [execTimeLost, hp, Bool.true_eq_false, if_false]
  exact if_pos ⟨h3, hi, hq⟩

theorem losesTime_spec {s : State} {i : Nat} (hp : s.islandPresent i = true) :
    (losesTime s i).islandState i = 4 ∧
      (losesTime s i).reg Ix.timeBusLostCount (i + 1) = min (s.reg Ix.timeBusLostCount (i + 1) + 1) 0xFFFFFFFF ∧
      s.regsBut (losesTime s i) [dictKey Ix.islandState (i + 1), dictKey Ix.timeBusLostCount (i + 1)] := by
  have hi := lt_of_islandPresent hp
  refine ⟨?_, ?_, ?_⟩
  · show State.reg (State.setReg _ _ _ _) _ _ = _
    rw [reg_setReg_of_index_ne _ _ (by decide) (by omega) (by omega)]
    exact islandState_setIslandState_same _ _ _
  · unfold losesTime State.setIslandState
    rw [reg_countSat_same, satAdd_32, reg_setReg_of_index_ne _ _ (by decide) (by omega) (by omega)]; rfl
  · exact regsBut_setReg _ (regsBut_setReg _ (regsBut_of_reg_eq _ fun _ _ => rfl) (by simp)) (by simp)

/-- Settles O1: the beacon is the last write of TIME_BEACON, so it is read back whatever the gates do; without waiting gates the
island and its state are all that `findTime` touches. -/
theorem timeBusBeaconAndLoss : Obligations.TimeBusBeaconAndLoss := by
  refine ⟨fun s j sent hp hs hd => ⟨takeBeacon s j sent, exec_timeBeacon_of_due hp hs hd, ?_⟩,
    fun s i hp h3 hi hq => ⟨losesTime s i, exec_timeLost_of_silent hp h3 hi hq, ?_⟩⟩
  · unfold takeBeacon
    refine ⟨by simp, by simp, by simp, fun hg => ?_⟩
    rw [findTime_of_no_gates hg]
    by_cases h4 : s.islandState j = 4
    · simp only [h4, if_true]
      refine ⟨islandState_setIslandState_same _ _ _, ?_, ?_, fun k hk => ?_, ?_, rfl⟩
      · simp [State.setIslandState]
      · simp [State.setIslandState]
      · simp [State.setIslandState, island_setIsland_ne _ _ _ hk]
      · exact regsBut_setReg _ (regsBut_of_reg_eq _ fun _ _ => rfl) (by simp)
    · simp only [h4, if_false]
      exact ⟨rfl, by simp, by simp, fun k hk => by simp [island_setIsland_ne _ _ _ hk], fun _ _ _ => rfl, rfl⟩
  · obtain ⟨h4, hc, hf⟩ := losesTime_spec hp
    exact ⟨h4, by simp [losesTime, State.setIslandState, State.countSat],
      fun k hk => by simp [losesTime, State.setIslandState, State.countSat, island_setIsland_ne _ _ _ hk], hc, hf, rfl⟩

end Sys2Proof.Proofs
end

section
/-! Immediate strobes (R20, R21, R27). -/

namespace Sys2Proof.Proofs
open Sys2Proof Sys2Proof.Machine Sys2Proof.Laws

/-- `s` with the apply groups `G`. -/
def withGroups (s : State) (G : Tbl ApplyGroup) : State := { s with isl := { s.isl with groups := G } }

/-- Group `g` of `s` with an immediate strobe more, for every island present and at the present sync time (R21, R27). -/
def strobed (s : State) (g : Nat) : ApplyGroup :=
  { s.group g with strobes := (s.group g).strobes ++ [⟨s.islandsPresent, time80 (s.syncNow (s.reg Ix.applyDomain (g + 1)))⟩] }

theorem startStrobe_eq_setGroup (s : State) (g : Nat) : s.startStrobe g = s.setGroup g (strobed s g) := rfl

/-- A strobe of another group shows in a group as in the state before it. -/
theorem strobed_startStrobe_ne (s : State) {a g : Nat} (h : g ≠ a) : strobed (s.startStrobe a) g = strobed s g := by
  unfold strobed
  rw [startStrobe_eq_setGroup, group_setGroup_ne _ _ _ h]
  rfl

/-- Strobes requested of distinct groups: each of them once, and nothing but the groups changes (R21). -/
theorem startStrobes_spec (gs : List Nat) (hn : gs.Nodup) (s : State) :
    (∀ g, (gs.foldl State.startStrobe s).group g = if g ∈ gs then strobed s g else s.group g) ∧
      ∃ G, gs.foldl State.startStrobe s = withGroups s G := by
  induction gs generalizing s with
  | nil => exact ⟨fun _ => rfl, s.isl.groups, rfl⟩
  | cons a gs ih =>
    obtain ⟨ha, hn⟩ := List.nodup_cons.mp hn
    obtain ⟨hg, G, hG⟩ := ih hn (s.startStrobe a)
    refine ⟨fun g => ?_, G, hG⟩
    rw [List.foldl_cons, hg]
    by_cases h : g = a
    · subst h
      simp [ha, startStrobe_eq_setGroup]
    · simp only [List.mem_cons, h, false_or, strobed_startStrobe_ne s h]
      rw [startStrobe_eq_setGroup, group_setGroup_ne _ _ _ h]

/-- The oldest strobe that waits for island `i` is found behind those that have reached it (R21). -/
theorem findIdx_waiting {before : List Strobe} (after : List Strobe) {b : Strobe} {i : Nat} (hb : ∀ c ∈ before, i ∉ c.waiting)
    (hi : i ∈ b.waiting) : (before ++ b :: after).findIdx? (fun c => c.waiting.contains i) = some before.length := by
  have hn : before.findIdx? (fun c => c.waiting.contains i) = none := by simpa [List.findIdx?_eq_none_iff] using hb
  rw [List.findIdx?_append, hn]
  simp [List.findIdx?_cons, hi]

theorem modify_length_append {α : Type} (before after : List α) (b : α) (f : α → α) :
    (before ++ b :: after).modify before.length f = before ++ f b :: after := by
  induction before with
  | nil => rfl
  | cons c cs ih => simp [ih]

/-- A strobe that every island has applied is counted, with its arrival in APPLY_LAST, whether or not a target is armed (R27). -/
theorem exec_applyComplete_strobe {s : State} {g : Nat} {b : Strobe} {rest : List Strobe} (hg : g < 16)
    (hs : (s.group g).strobes = b :: rest) (hb : b.waiting = []) :
    exec (.applyComplete g) s = .next (s.completeStrobe g (s.group g) b) := by
  show execApplyComplete g s = _
  unfold execApplyComplete
  rw [if_neg (by omega)]
  cases ha : (s.group g).armed <;> simp [hs, ha, hb]

/-- Settles O2: the requests by induction on the masked groups, the arrival by the place of the oldest waiting strobe. -/
theorem immediateStrobe : Obligations.ImmediateStrobe := by
  refine ⟨fun s mask => ?_, fun s i g before after b hp hg hs hb hi => ?_, fun s g b rest hg hs hb => ?_⟩
  · obtain ⟨hgr, G, hG⟩ := startStrobes_spec ((List.range 16).filter (bit mask ·)) (List.nodup_range.filter _) s
    refine ⟨(((List.range 16).filter (bit mask ·)).foldl State.startStrobe s).reply {}, rfl, fun g hg => ?_, ?_⟩
    · rw [group_reply, hgr]
      simp only [List.mem_filter, List.mem_range, hg, true_and]
      rfl
    · rw [hG]; rfl
  · show execStrobeArrival i g s = _
    unfold execStrobeArrival
    rw [if_neg (by simp [hp]; omega)]
    simp only [hs, findIdx_waiting after hb hi, modify_length_append]
    rfl
  · refine ⟨_, exec_applyComplete_strobe hg hs hb, ?_, ?_, ?_, ?_, rfl⟩
    · simp [State.completeStrobe, State.count32, hs]
    · unfold State.completeStrobe
      rw [State.count32, reg_setReg_of_index_ne _ _ (by decide) (by omega) (by omega), reg_setReg_same]
    · unfold State.completeStrobe
      rw [reg_count32_same, wrapAdd_32, reg_setReg_of_index_ne _ _ (by decide) (by omega) (by omega), setGroup_reg]
    · exact regsBut_setReg _ (regsBut_setReg _ (regsBut_of_reg_eq _ fun _ _ => rfl) (by simp)) (by simp)

end Sys2Proof.Proofs
end

section
/-! Scheduled strobes (R22, R23, R25 to R27). -/

namespace Sys2Proof.Proofs
open Sys2Proof Sys2Proof.Machine Sys2Proof.Laws

/-- The target `a` once island `i` is done with it. -/
def doneAt (a : Armed) (i : Nat) (late : Bool) : Armed :=
  { a with held := a.held.filter (· != i), unsent := a.unsent.filter (· != i), late := late }

/-- The target `a` once island `i` holds it. -/
def heldAt (a : Armed) (i : Nat) : Armed := { a with held := a.held ++ [i], unsent := a.unsent.filter (· != i) }

/-- An island of the group that is not in reset is done with its target by applying; late where it, or one before it, was (R22, R25). -/
theorem settleTarget_applies {s : State} {i g : Nat} {a : Armed} (late : Bool) (ha : (s.group g).armed = some a)
    (hr : s.resetting i = false) (hg : s.reg Ix.applyGroup (i + 1) = g) :
    s.settleTarget i g late =
      (s.setGroup g { s.group g with armed := some (doneAt a i (a.late || late)) }).applyIsland i (some a.raw) := by
  simp [State.settleTarget, State.strobeIsland, ha, hr, hg, doneAt]

section
variable {s : State} {i g : Nat} {a : Armed}

/-- Arming a group that is not armed, with a target neither past nor beyond the reach of raw time (R22, R23). -/
theorem exec_applyArm_ahead {d : Nat} {target : Int} (hg : g < 16) (ha : (s.group g).armed = none) (hd : d = s.reg Ix.applyDomain (g + 1))
    (ht : target = ofTime80 (s.reg Ix.applyTime (g + 1))) (h0 : 0 ≤ s.rawDelta d target)
    (h1 : s.rawDelta d target ≤ 9223372036854775807) (h2 : target - s.syncNow d ≤ 39 * 3600 * 65536000000000) :
    exec (.applyArm g) s = .next ((((s.setGroup g { s.group g with armed := some ⟨s.reg Ix.applyTime (g + 1), d,
      s.raw + BitVec.ofInt 64 (s.rawDelta d target), [], s.islandsPresent, false⟩ }).setReg Ix.applyArm (g + 1) 1).setReg
        Ix.applyStatus (g + 1) 1).reply {}) := by
  subst hd ht
  have hfar : ¬ (State.horizon < s.rawDelta (s.reg Ix.applyDomain (g + 1)) (ofTime80 (s.reg Ix.applyTime (g + 1))) ∨
      farAhead < ofTime80 (s.reg Ix.applyTime (g + 1)) - s.syncNow (s.reg Ix.applyDomain (g + 1))) := by
    unfold State.horizon farAhead; omega
  show execApplyArm g s = _
  unfold execApplyArm State.writeApplyArm
  simp only [ha, Option.isSome_none, hfar, Int.not_lt.mpr h0, Nat.not_le.mpr hg, if_false, Bool.false_eq_true, Nat.lt_irrefl,
    Nat.one_ne_zero]
  rfl

/-- Cancelling before the target falls due (R26). -/
theorem exec_applyCancel_before (hg : g < 16) (ha : (s.group g).armed = some a) (hd : (s.raw - a.raw).toInt < 0) :
    exec (.applyCancel g) s = .next ((((s.setGroup g { s.group g with armed := none }).setReg Ix.applyArm (g + 1) 0).setReg
      Ix.applyStatus (g + 1) 0).reply {}) := by
  have hdue : ¬ 0 ≤ s.dueBy a.raw := Int.not_le.mpr hd
  show execApplyCancel g s = _
  unfold execApplyCancel State.writeApplyArm
  simp only [ha, hdue, Nat.not_le.mpr hg, if_false, if_true, Nat.not_lt_zero]
  rfl

variable (hp : s.islandPresent i = true) (hg : g < 16) (ha : (s.group g).armed = some a)
include hp hg ha

/-- A target that has not passed, or that reaches an island without its time, is held (R22, R25). -/
theorem exec_applyTargetReceipt_holds (hi : i ∈ a.unsent)
    (hd : (s.raw - a.raw).toInt ≤ 0 ∨ s.islandState i = 4 ∨ s.lostWhen i a.raw = true) :
    exec (.applyTargetReceipt i g) s = .next (s.setGroup g { s.group g with armed := some (heldAt a i) }) := by
  have hn : ¬ (0 < s.dueBy a.raw ∧ s.timeLost i = false ∧ s.lostWhen i a.raw = false) := by
    rintro ⟨h0, h4, hl⟩
    rcases hd with h | h | h
    · exact absurd h0 (Int.not_lt.mpr h)
    · simp [State.timeLost, h] at h4
    · simp [h] at hl
  show execApplyTargetReceipt i g s = _
  simp [execApplyTargetReceipt, hp, Nat.not_le.mpr hg, ha, hi, hn, heldAt]

/-- A target that has passed already is settled at its receipt, late (R23). -/
theorem exec_applyTargetReceipt_late (hi : i ∈ a.unsent) (hd : 0 < (s.raw - a.raw).toInt) (hl : s.lostWhen i a.raw = false)
    (h4 : s.islandState i ≠ 4) : exec (.applyTargetReceipt i g) s = .next (s.settleTarget i g true) := by
  have hdue : 0 < s.dueBy a.raw := hd
  show execApplyTargetReceipt i g s = _
  simp [execApplyTargetReceipt, hp, Nat.not_le.mpr hg, ha, hi, hdue, hl, State.timeLost, h4]

/-- A held target that falls due is settled as it stands (R22). -/
theorem exec_scheduledApply_due (hi : i ∈ a.held) (hd : 0 ≤ (s.raw - a.raw).toInt) (hl : s.lostWhen i a.raw = false) :
    exec (.scheduledApply i g) s = .next (s.settleTarget i g a.late) := by
  have hdue : 0 ≤ s.dueBy a.raw := hd
  show execScheduledApply i g s = _
  simp [execScheduledApply, hp, Nat.not_le.mpr hg, ha, hi, hdue, hl]

/-- The fire message settles the target of an island that was time-lost, late (R25). -/
theorem exec_applyFireMessage_lost (hi : i ∈ a.held ∨ i ∈ a.unsent) (hd : 0 ≤ (s.raw - a.raw).toInt)
    (hl : s.lostWhen i a.raw = true ∨ s.timeLost i = true) :
    exec (.applyFireMessage i g) s = .next (s.settleTarget i g true) := by
  have hdue : 0 ≤ s.dueBy a.raw := hd
  show execApplyFireMessage i g s = _
  simp [execApplyFireMessage, hp, Nat.not_le.mpr hg, ha, hi, hdue, hl]

end

/-- Settles O3, command by command: each is said once above, and an island that settles its target applies. -/
theorem scheduledStrobe : Obligations.ScheduledStrobe := by
  refine ⟨fun s g d target hg ha hd ht h0 h1 h2 => ?arm, fun s g a hg ha hd => ?cancel,
    fun s i g a hp hg ha hi hd => exec_applyTargetReceipt_holds hp hg ha hi hd,
    fun s i g a hp hg ha hi hd hl h3 hgr => ?late, fun s i g a hp hg ha hi hd hl h1 h2 hgr => ?due,
    fun s i g a hp hg ha hi hd hl hgr => ?fire⟩
  case arm =>
    refine ⟨_, exec_applyArm_ahead hg ha hd ht h0 h1 h2, ?_, by simp, by simp, ?_, rfl⟩
    · rw [reply_reg, reg_setReg_of_index_ne _ _ (by decide) (by omega) (by omega), reg_setReg_same]
    · exact regsBut_reply _ (regsBut_setReg _ (regsBut_setReg _ (regsBut_of_reg_eq _ fun _ _ => rfl) (by simp)) (by simp))
  case cancel =>
    refine ⟨_, exec_applyCancel_before hg ha hd, ?_, by simp, by simp, ?_, rfl⟩
    · rw [reply_reg, reg_setReg_of_index_ne _ _ (by decide) (by omega) (by omega), reg_setReg_same]
    · exact regsBut_reply _ (regsBut_setReg _ (regsBut_setReg _ (regsBut_of_reg_eq _ fun _ _ => rfl) (by simp)) (by simp))
  case late =>
    have hr : s.resetting i = false := resetting_eq_false_iff.mpr (by omega)
    rw [exec_applyTargetReceipt_late hp hg ha hi hd hl (by omega), settleTarget_applies true ha hr hgr, Bool.or_true]
    rfl
  case due =>
    have hr : s.resetting i = false := resetting_eq_false_iff.mpr ⟨h1, h2⟩
    rw [exec_scheduledApply_due hp hg ha hi hd hl, settleTarget_applies a.late ha hr hgr, Bool.or_self]
    rfl
  case fire =>
    have hr : s.resetting i = false := resetting_eq_false_iff.mpr (by omega)
    have hlost : s.lostWhen i a.raw = true ∨ s.timeLost i = true :=
      hl.symm.imp And.left fun h => by simp [State.timeLost, h]
    rw [exec_applyFireMessage_lost hp hg ha hi hd hlost, settleTarget_applies true ha hr hgr, Bool.or_true]
    rfl

/-- A target that every island has applied completes, where no immediate strobe of the group is under way (R22). -/
theorem exec_applyComplete_target {s : State} {g : Nat} {a : Armed} (hg : g < 16) (hs : (s.group g).strobes = [])
    (ha : (s.group g).armed = some a) (hd : 0 ≤ (s.raw - a.raw).toInt) (hh : a.held = []) (hu : a.unsent = []) :
    exec (.applyComplete g) s = .next (s.completeTarget g (s.group g) a) := by
  have hdue : 0 ≤ s.dueBy a.raw := hd
  show execApplyComplete g s = _
  simp [execApplyComplete, Nat.not_le.mpr hg, hs, ha, hdue, hh, hu]

/-- Settles O4: the four elements are four writes of different objects. -/
theorem scheduledStrobeCompletes : Obligations.ScheduledStrobeCompletes := by
  intro s g a hg hs ha hd hh hu
  have hne {i ix : Nat} (h : ix ≠ i) : dictKey ix (g + 1) ≠ dictKey i (g + 1) := dictKey_ne_of_index_ne (by omega) (by omega) h
  refine ⟨_, exec_applyComplete_target hg hs ha hd hh hu, ?_, ?_, ?_, ?_, ?_, ?_, rfl⟩
  · simp [State.completeTarget, State.count32, hs]
  all_goals unfold State.completeTarget
  · rw [reg_count32_ne _ _ _ _ _ _ (hne (by decide)), reg_setReg_ne _ _ _ _ _ _ (hne (by decide)),
      reg_setReg_ne _ _ _ _ _ _ (hne (by decide)), reg_setReg_same]
  · rw [reg_count32_ne _ _ _ _ _ _ (hne (by decide)), reg_setReg_ne _ _ _ _ _ _ (hne (by decide)), reg_setReg_same]
  · rw [reg_count32_ne _ _ _ _ _ _ (hne (by decide)), reg_setReg_same]
  · rw [reg_count32_same, wrapAdd_32, reg_setReg_ne _ _ _ _ _ _ (hne (by decide)), reg_setReg_ne _ _ _ _ _ _ (hne (by decide)),
      reg_setReg_ne _ _ _ _ _ _ (hne (by decide)), setGroup_reg]
  · exact regsBut_setReg _ (regsBut_setReg _ (regsBut_setReg _ (regsBut_setReg _ (regsBut_of_reg_eq _ fun _ _ => rfl)
      (by simp)) (by simp)) (by simp)) (by simp)

end Sys2Proof.Proofs
end

section
/-! Island resets (R28 to R31). -/

namespace Sys2Proof.Proofs
open Sys2Proof Sys2Proof.Machine Sys2Proof.Laws

section
variable {s : State} {v c : Nat}

/-- A guarded write with its complement reaches ISLAND_RESET (R28). -/
theorem exec_islandReset_guarded (hv : v < 256) (hc : c = 255 - v) : exec (.islandReset v c) s = (s.writeIslandReset v).out := by
  have hok : complementOk v c = true := beq_iff_eq.mpr (by omega)
  show execIslandReset v c s = _
  rw [execIslandReset, if_pos hok]

theorem exec_islandReset_wrong_guard (hv : v < 256) (hne : c ≠ 255 - v) :
    exec (.islandReset v c) s = .next (s.reply { abort := 0x0204 }) := by
  have hok : ¬ complementOk v c = true := fun h => hne (by have := beq_iff_eq.mp h; omega)
  show execIslandReset v c s = _
  rw [execIslandReset, if_neg hok]
  rfl

theorem writeIslandReset_not_resettable (h : s.resettable v = false) : s.writeIslandReset v = (s, 0x0403) := if_pos h

theorem writeIslandReset_in_reset (h : s.resettable v = true) (h12 : s.islandState v = 1 ∨ s.islandState v = 2) :
    s.writeIslandReset v = (s, 0) := by
  rw [State.writeIslandReset, if_neg (by simp [h]), if_pos h12]

/-- The reset of an island that is not in reset begins as its kind says (R28 to R30). -/
theorem writeIslandReset_begins (h : s.resettable v = true) (h1 : s.islandState v ≠ 1) (h2 : s.islandState v ≠ 2) :
    s.writeIslandReset v =
      let u := (if 32 ≤ v ∧ v < 48 then s else s.discardPending v).setReg Ix.islandResetLast 0 v
      (if v < 16 then u.resetLanes v else if v < 32 then u.resetPorts (v - 16)
        else if v < 48 then u.startRigReset (v - 32) else u.resetRings, 0) := by
  rw [State.writeIslandReset, if_neg (by simp [h]), if_neg (by simp [h1, h2])]
  dsimp only
  split
  · rfl
  · split
    · rfl
    · split <;> rfl

/-- The reset of a rig begins (R30). -/
theorem writeIslandReset_rig {r : Nat} (h : s.resettable (32 + r) = true) (hr : r < 16) (h1 : s.islandState (32 + r) ≠ 1)
    (h2 : s.islandState (32 + r) ≠ 2) :
    s.writeIslandReset (32 + r) = ((s.setReg Ix.islandResetLast 0 (32 + r)).startRigReset r, 0) := by
  have hrig : 32 ≤ 32 + r ∧ 32 + r < 48 := by omega
  have h16 : ¬ 32 + r < 16 := by omega
  have h32 : ¬ 32 + r < 32 := by omega
  rw [writeIslandReset_begins h h1 h2]
  dsimp only
  rw [if_pos hrig, if_neg h16, if_neg h32, if_pos hrig.2, Nat.add_sub_cancel_left]

end

section
variable (s : State) (r : Nat)

/-- Discarding pending writes changes the island's store and its count (R29). -/
theorem regsBut_discardPending (i : Nat) {keys : List Nat} (hk : dictKey Ix.applyDiscardCount (i + 1) ∈ keys) :
    s.regsBut (s.discardPending i) keys :=
  regsBut_setReg _ (regsBut_of_reg_eq _ fun _ _ => rfl) hk

/-- The islands of a rig's reset are those with its pending writes discarded (R29). -/
theorem startRigReset_isl : (s.startRigReset r).isl = (s.discardPending (32 + r)).isl := stopAwls_isl _ _

theorem startRigReset_island_same : (s.startRigReset r).island (32 + r) = { s.island (32 + r) with pend := [] } := by
  rw [State.island, startRigReset_isl]
  exact island_setIsland_same _ _ _

theorem startRigReset_island_ne {k : Nat} (h : k ≠ 32 + r) : (s.startRigReset r).island k = s.island k := by
  rw [State.island, startRigReset_isl]
  exact island_setIsland_ne _ _ _ h

theorem startRigReset_islandState : (s.startRigReset r).islandState (32 + r) = 1 := islandState_setIslandState_same _ _ _

theorem regsBut_startRigReset : s.regsBut (s.startRigReset r) [dictKey Ix.islandState (32 + r + 1),
    dictKey Ix.applyDiscardCount (32 + r + 1), dictKey Ix.handlesRedispatched (r + 1)] := by
  refine regsBut_setReg _ (regsBut_trans (regsBut_discardPending s (32 + r) (by simp)) fun ix sub h => ?_) (by simp [State.rigIsland])
  exact stopAwls_reg _ _ _ _ fun e => h (by simp [e])

theorem startRigReset_discards (hr : r < 16) : (s.startRigReset r).reg Ix.applyDiscardCount (32 + r + 1) =
    min (s.reg Ix.applyDiscardCount (32 + r + 1) + (s.island (32 + r)).pend.length) 0xFFFFFFFF := by
  unfold State.startRigReset State.setIslandState State.rigIsland
  rw [reg_setReg_of_index_ne _ _ (by decide) (by omega) (by omega),
    stopAwls_reg _ _ _ _ (dictKey_ne_of_index_ne (by omega) (by omega) (by decide)), State.discardPending, reg_countSat_same,
    satAdd_32, setIsland_reg]

/-- No awl of a rig in reset holds a packet (R30). -/
theorem startRigReset_awls : ∀ e ∈ (s.startRigReset r).rg.awls, e.1 / 256 = r → e.2.pkt = none := stopAwls_awls _ _

end

section
variable (s : State) (r : Nat)

/-- Showing the faulted part changes no island, rig or part (R192). -/
theorem showFault_isl : s.showFault.isl = s.isl := by
  unfold State.showFault
  dsimp only
  split <;> rfl

theorem showFault_rg : s.showFault.rg = s.rg := by
  unfold State.showFault
  dsimp only
  split <;> rfl

/-- The end of a part's fault shows in two objects at most (R192). -/
theorem partRecovers_reg (code ix sub : Nat) (h1 : dictKey ix sub ≠ dictKey Ix.guaranteeFaultPart 0)
    (h2 : dictKey ix sub ≠ dictKey Ix.guaranteeState 0) : (s.partRecovers code).reg ix sub = s.reg ix sub :=
  showFault_reg _ _ _ h1 h2

theorem fillScratch_reg (ix sub : Nat) : (s.fillScratch r).reg ix sub = s.reg ix sub := rfl

theorem rigRuns_island (k : Nat) : (s.rigRuns r).island k = s.island k := by
  rw [State.island, State.rigRuns, State.partRecovers, showFault_isl]
  rfl

/-- A rig that runs is no faulted part (R192). -/
theorem rigRuns_faultParts : State.partRig r ∉ (s.rigRuns r).isl.faultParts := by
  rw [State.rigRuns, State.partRecovers, showFault_isl]
  simp

/-- A rig that runs has no awl fenced (R98). -/
theorem rigRuns_awls : ∀ e ∈ (s.rigRuns r).rg.awls, e.1 / 256 ≠ r := by
  rw [State.rigRuns, State.partRecovers, showFault_rg]
  intro e he
  simpa using (List.mem_filter.mp he).2

/-- A rig that runs changes the two elements of its fence and the two of the guarantee (R98, R192). -/
theorem regsBut_rigRuns : s.regsBut (s.rigRuns r) [dictKey Ix.awlsFenced (r + 1), dictKey Ix.awlFenceMap (r + 1),
    dictKey Ix.guaranteeFaultPart 0, dictKey Ix.guaranteeState 0] := by
  intro ix sub h
  simp only [List.mem_cons, not_or, List.not_mem_nil, not_false_eq_true, and_true] at h
  obtain ⟨hf, hm, hp, hg⟩ := h
  unfold State.rigRuns
  rw [partRecovers_reg _ _ _ _ hp hg, fillScratch_reg, reg_setReg_ne _ _ _ _ _ _ hm, reg_setReg_ne _ _ _ _ _ _ hf]
  rfl

/-- A rig that runs leaves the elements of every object but those four. -/
theorem rigRuns_reg_of_index_ne (hr : r < 16) {ix sub : Nat} (hs : sub < 65536)
    (h : ix ∉ [Ix.awlsFenced, Ix.awlFenceMap, Ix.guaranteeFaultPart, Ix.guaranteeState]) : (s.rigRuns r).reg ix sub = s.reg ix sub := by
  simp only [List.mem_cons, List.not_mem_nil, or_false, not_or] at h
  obtain ⟨h1, h2, h3, h4⟩ := h
  have hne {i j : Nat} (hi : ix ≠ i) (hj : j < 65536) := dictKey_ne_of_index_ne hs hj hi
  refine regsBut_rigRuns s r _ _ ?_
  simp only [List.mem_cons, List.not_mem_nil, or_false, not_or]
  exact ⟨hne h1 (by omega), hne h2 (by omega), hne h3 (by omega), hne h4 (by omega)⟩

/-- A rig that runs shows no awl fenced (R98). -/
theorem rigRuns_fence (hr : r < 16) : (s.rigRuns r).reg Ix.awlsFenced (r + 1) = 0 ∧ (s.rigRuns r).reg Ix.awlFenceMap (r + 1) = 0 := by
  have hne (ix i j : Nat) (h : ix ≠ i) (hj : j < 65536) : dictKey ix (r + 1) ≠ dictKey i j :=
    dictKey_ne_of_index_ne (by omega) hj h
  unfold State.rigRuns
  constructor
  · rw [partRecovers_reg _ _ _ _ (hne _ _ _ (by decide) (by omega)) (hne _ _ _ (by decide) (by omega)), fillScratch_reg,
      reg_setReg_of_index_ne _ _ (by decide) (by omega) (by omega), reg_setReg_same]
  · rw [partRecovers_reg _ _ _ _ (hne _ _ _ (by decide) (by omega)) (hne _ _ _ (by decide) (by omega)), fillScratch_reg,
      reg_setReg_same]

end

/-- An island in reset reaches RUN in a device in operation (R31). -/
theorem exec_islandResetDone_runs {s : State} {i : Nat} (h : s.resettable i = true) (hh : s.sy.hold = none)
    (hr : s.sy.retaining = false) (hp : s.reg Ix.startPhase 0 = 3) (hs : s.islandState i = 1 ∨ s.islandState i = 2) :
    exec (.islandResetDone i) s = .next ((s.islandRuns i).countSat Ix.islandResetCount (i + 1) 1) := by
  have hi : s.islandPresent i = true := (Bool.and_eq_true_iff.mp h).1
  show execIslandResetDone i s = _
  rw [execIslandResetDone, if_neg (by simp [hi]), if_pos ⟨h, by simp [hh], hr, hp, hs⟩]

/-- Island `i` reads RUN and has the present time (R31). -/
def readsRun (s : State) (i : Nat) : State :=
  (s.setIslandState i 3).setIsland i { s.island i with beacon := s.raw, heard := s.rawTotal, lost := none }

theorem readsRun_reg_ne (s : State) (i ix sub : Nat) (h : dictKey ix sub ≠ dictKey Ix.islandState (i + 1)) :
    (readsRun s i).reg ix sub = s.reg ix sub := reg_setReg_ne _ _ _ _ _ _ h

/-- A rig island that runs reads RUN, has its time, and its rig runs (R31, R98). -/
theorem islandRuns_rig (s : State) {r : Nat} (hr : r < 16) : s.islandRuns (32 + r) = (readsRun s (32 + r)).rigRuns r := by
  have h16 : ¬ 32 + r < 16 := by omega
  have h32 : ¬ 32 + r < 32 := by omega
  have h48 : 32 + r < 48 := by omega
  rw [State.islandRuns, if_neg h16, if_neg h32, if_pos h48, Nat.add_sub_cancel_left]
  rfl

/-- Settles O7: the guarded write by its refusals and its beginning, a rig's reset and its end by what `startRigReset` and
`rigRuns` do. -/
theorem islandReset : Obligations.IslandReset := by
  refine ⟨fun s v c hv hc h h1 h2 => ?begins, fun s v c hv hc h hlo hhi h1 h2 => ?rig, fun s v c hv hc h h12 => ?inReset,
    fun s v c hv hc h => ?notResettable, fun s v c hv _ hne => exec_islandReset_wrong_guard hv hne,
    fun s i h hh hr hp hs => exec_islandResetDone_runs h hh hr hp hs, fun s i h hlo hhi hh hr hp hs => ?rigDone⟩
  case begins =>
    rw [exec_islandReset_guarded hv hc, writeIslandReset_begins h h1 h2]; rfl
  case inReset =>
    rw [exec_islandReset_guarded hv hc, writeIslandReset_in_reset h h12]; rfl
  case notResettable =>
    rw [exec_islandReset_guarded hv hc, writeIslandReset_not_resettable h]; rfl
  case rig =>
    obtain ⟨r, rfl⟩ := Nat.exists_eq_add_of_le hlo
    have hr : r < 16 := by omega
    rw [exec_islandReset_guarded hv hc, writeIslandReset_rig h hr h1 h2, Nat.add_sub_cancel_left]
    have hf := regsBut_startRigReset (s.setReg Ix.islandResetLast 0 (32 + r)) r
    have hlast : dictKey Ix.islandResetLast 0 ∉ [dictKey Ix.islandState (32 + r + 1), dictKey Ix.applyDiscardCount (32 + r + 1),
        dictKey Ix.handlesRedispatched (r + 1)] := by
      have hne {i j : Nat} (hi : Ix.islandResetLast ≠ i) (hj : j < 65536) := dictKey_ne_of_index_ne (by omega : 0 < 65536) hj hi
      simp only [List.mem_cons, List.not_mem_nil, or_false, not_or]
      exact ⟨hne (by decide) (by omega), hne (by decide) (by omega), hne (by decide) (by omega)⟩
    refine ⟨_, rfl, rfl, startRigReset_islandState _ _, ?_, ?_, ?_, startRigReset_awls _ _, fun k hk => ?_, ?_⟩
    · rw [reply_reg, hf _ _ hlast, reg_setReg_same]
    · rw [island_reply, startRigReset_island_same]
    · rw [reply_reg, startRigReset_discards _ _ hr, reg_setReg_of_index_ne _ _ (by decide) (by omega) (by omega), island_setReg]
    · rw [island_reply, startRigReset_island_ne _ _ hk, island_setReg]
    · intro ix sub hn
      simp only [List.mem_cons, List.not_mem_nil, or_false, not_or] at hn
      obtain ⟨hstate, hlast, hdisc, hredis⟩ := hn
      rw [reply_reg, hf ix sub (by simp [hstate, hdisc, hredis]), reg_setReg_ne _ _ _ _ _ _ hlast]
  case rigDone =>
    obtain ⟨r, rfl⟩ := Nat.exists_eq_add_of_le hlo
    have hr16 : r < 16 := by omega
    rw [exec_islandResetDone_runs h hh hr hp hs, islandRuns_rig s hr16, Nat.add_sub_cancel_left]
    have hf := regsBut_rigRuns (readsRun s (32 + r)) r
    obtain ⟨hfenced, hmap⟩ := rigRuns_fence (readsRun s (32 + r)) r hr16
    refine ⟨_, rfl, ?_, ?_, ?_, ?_, ?_, rigRuns_awls _ r, rigRuns_faultParts _ r, ?_⟩
    · rw [State.islandState, reg_countSat_of_index_ne _ _ (by decide) (by omega) (by omega),
        rigRuns_reg_of_index_ne _ _ hr16 (by omega) (by decide)]
      exact reg_setReg_same _ _ _ _
    · rw [reg_countSat_same, satAdd_32, rigRuns_reg_of_index_ne _ _ hr16 (by omega) (by decide),
        readsRun_reg_ne _ _ _ _ (dictKey_ne_of_index_ne (by omega) (by omega) (by decide))]
    · show ((readsRun s (32 + r)).rigRuns r).island (32 + r) = _
      rw [rigRuns_island]
      exact island_setIsland_same _ _ _
    · rw [reg_countSat_of_index_ne _ _ (by decide) (by omega) (by omega), hfenced]
    · rw [reg_countSat_of_index_ne _ _ (by decide) (by omega) (by omega), hmap]
    · intro ix sub hn
      simp only [List.mem_cons, List.not_mem_nil, or_false, not_or] at hn
      obtain ⟨hstate, hcount, hfn, hmp, hpart, hgs⟩ := hn
      rw [reg_countSat_ne _ _ _ _ _ _ hcount, hf ix sub (by simp [hfn, hmp, hpart, hgs]), readsRun_reg_ne _ _ _ _ hstate]

end Sys2Proof.Proofs
end

section
/-! Corrections that take force (R16). -/

namespace Sys2Proof.Proofs
open Sys2Proof Sys2Proof.Machine Sys2Proof.Laws

/-- Changes that all lie ahead wait (R16). -/
theorem takeDue_of_ahead {s : State} (c : Correction) {q : List (Raw × Correction)} (h : ∀ e ∈ q, (s.raw - e.1).toInt < 0) :
    s.takeDue c q = (c, q, false) := by
  cases q with
  | nil => rfl
  | cons e rest => exact if_neg (Int.not_le.mpr (h e (by simp)))

/-- One change that is due, and is no step, takes force; those after it wait (R16). -/
theorem takeDue_of_first_due {s : State} {c c' : Correction} {r : Raw} {rest : List (Raw × Correction)} (hr : 0 ≤ (s.raw - r).toInt)
    (hrest : ∀ e ∈ rest, (s.raw - e.1).toInt < 0) (hc : c'.at r = c.at r) : s.takeDue c ((r, c') :: rest) = (c', rest, false) := by
  have hdue : 0 ≤ s.dueBy r := hr
  simp [State.takeDue, hdue, takeDue_of_ahead c' hrest, hc]

/-- Without an armed target nothing is converted again (R24). -/
theorem retargets_of_unarmed {s : State} (d : Nat) {gs : List Nat} (h : ∀ g ∈ gs, (s.group g).armed = none) :
    gs.foldl (fun t g => t.retarget d g) s = s := by
  induction gs with
  | nil => rfl
  | cons g gs ih =>
    have hg : s.retarget d g = s := by simp [State.retarget, h g (by simp)]
    rw [List.foldl_cons, hg, ih fun k hk => h k (List.mem_cons_of_mem _ hk)]

/-- Without an edge to come no pin changes (R230). -/
theorem repins_of_no_edge {s : State} (d : Nat) (stepped : Bool) {ns : List Nat} (h : ∀ n ∈ ns, (s.pin n).next = none) :
    ns.foldl (fun t n => t.repin d n stepped) s = s := by
  induction ns with
  | nil => rfl
  | cons n ns ih =>
    have hn : s.repin d n stepped = s := by simp [State.repin, h n (by simp)]
    rw [List.foldl_cons, hn, ih fun k hk => h k (List.mem_cons_of_mem _ hk)]

/-- A domain none of whose changes is due stays as it is (R16). -/
theorem switchDomain_of_ahead {s : State} {d : Nat} (h : ∀ e ∈ (s.dom d).queue, (s.raw - e.1).toInt < 0) : s.switchDomain d = s := by
  simp [State.switchDomain, takeDue_of_ahead _ h]

/-- A change that is due and no step, with no target armed and no edge set, changes the correction and the queue alone (R16). -/
theorem switchDomain_of_first_due {s : State} {d : Nat} {r : Raw} {c : Correction} {rest : List (Raw × Correction)}
    (hq : (s.dom d).queue = (r, c) :: rest) (hr : 0 ≤ (s.raw - r).toInt) (hrest : ∀ e ∈ rest, (s.raw - e.1).toInt < 0)
    (hg : ∀ g, g < 16 → (s.group g).armed = none) (hn : ∀ n, n < 32 → (s.pin n).next = none) (hc : c.at r = (s.dom d).corr.at r) :
    s.switchDomain d = s.setDom d { s.dom d with corr := c, queue := rest } := by
  have hlen : rest.length ≠ ((r, c) :: rest).length := by simp
  have hgs := retargets_of_unarmed (s := s.setDom d { s.dom d with corr := c, queue := rest }) d (gs := List.range 16)
    fun g h => hg g (List.mem_range.mp h)
  have hns := repins_of_no_edge (s := s.setDom d { s.dom d with corr := c, queue := rest }) d false (ns := List.range 32)
    fun n h => hn n (List.mem_range.mp h)
  unfold State.switchDomain
  dsimp only
  rw [hq, takeDue_of_first_due hr hrest hc]
  simp only [hlen, if_false, Bool.false_eq_true]
  rw [hgs, hns]

/-- Settles O33: the first change alone is due, and without targets and pins to convert only the domain changes. -/
theorem correctionSwitch : Obligations.CorrectionSwitch := by
  have hexec {s : State} {d : Nat} (hd : d < 4) : exec (.correctionSwitch d) s = .next (s.switchDomain d) := if_neg (Nat.not_le.mpr hd)
  refine ⟨fun s d r c rest hd hq hr hrest hg hn hc => ?_, fun s d hd h => ?_⟩
  · rw [hexec hd, switchDomain_of_first_due hq hr hrest hg hn hc]
    exact ⟨_, rfl, dom_setDom_same _ _ _, fun e he => dom_setDom_ne _ _ _ he, rfl⟩
  · rw [hexec hd, switchDomain_of_ahead h]

end Sys2Proof.Proofs
end

section
/-! mPackets of the preemptable MAC and the verification of pre-emption (R45, R46). -/

namespace Sys2Proof.Proofs
open Sys2Proof Sys2Proof.Machine Sys2Proof.Laws

section
variable {s : State} {p : Nat} {m : MPacket} (hp : s.portPresent p = true) (he : s.regB Ix.pmacEnable (p + 1) = true)
  (hl : s.linkUp p = true) (h1 : s.islandState (16 + p / 32) ≠ 1) (h2 : s.islandState (16 + p / 32) ≠ 2)

/-- A preemptable MAC that is enabled, its link up and its port island out of reset, takes what arrives (R30, R45). -/
theorem pmac_takes_mpackets (he : s.regB Ix.pmacEnable (p + 1) = true) (hl : s.linkUp p = true)
    (h1 : s.islandState (16 + p / 32) ≠ 1) (h2 : s.islandState (16 + p / 32) ≠ 2) :
    ¬ (s.regB Ix.pmacEnable (p + 1) = false ∨ s.linkUp p = false ∨ s.resetting (State.portIsland p) = true) := by
  have hr : s.resetting (State.portIsland p) = false := resetting_eq_false_iff.mpr ⟨h1, h2⟩
  simp [he, hl, hr]

/-- A fragment is whole: long enough, and checked by its mCRC unless it is the final one (R45). -/
theorem fragment_whole (hlong : m.longEnough = true) (hcrc : m.final = true ∨ m.mcrcOk = true) :
    ¬ (m.longEnough = false ∨ (m.final = false ∧ m.mcrcOk = false)) := by
  rcases hcrc with h | h <;> simp [hlong, h]

include hp he hl h1 h2

theorem exec_mpacketReceive_verify (hk : m.kind = .verify) :
    exec (.mpacketReceive p m) s = .next (s.setPmac p { s.pmac p with responds := (s.pmac p).responds + 1 }) := by
  show execMpacketReceive p m s = _
  rw [execMpacketReceive, if_neg (by simp [hp]), if_neg (pmac_takes_mpackets he hl h1 h2)]
  simp only [hk]

theorem exec_mpacketReceive_respond (hk : m.kind = .respond) (hv : s.reg Ix.pmacVerifyStatus (p + 1) = 2) :
    exec (.mpacketReceive p m) s = .next (s.setReg Ix.pmacVerifyStatus (p + 1) 3) := by
  show execMpacketReceive p m s = _
  rw [execMpacketReceive, if_neg (by simp [hp]), if_neg (pmac_takes_mpackets he hl h1 h2)]
  simp only [hk, hv, if_true]

/-- A first fragment where nothing is being reassembled starts a frame (R45). -/
theorem exec_mpacketReceive_start {f : Nat} (hk : m.kind = .start f) (hn : (s.pmac p).reassembling = false)
    (hrx : s.rxFrame? (512 + p) = none) (hlong : m.longEnough = true) (hcrc : m.final = true ∨ m.mcrcOk = true) :
    let u := (s.count Ix.pmacFragmentsRx (p + 1) 1).startRx (512 + p) p m.capture m.pipe []
    exec (.mpacketReceive p m) s =
      .next ((u.setPmac p { u.pmac p with smd := f % 4, nextFrag := 3, reassembling := true }).takeFragment p m) := by
  have hrx' : ((s.count Ix.pmacFragmentsRx (p + 1) 1).rxFrame? (512 + p)).isSome = false := by
    rw [show (s.count Ix.pmacFragmentsRx (p + 1) 1).rxFrame? (512 + p) = none from hrx]; rfl
  show execMpacketReceive p m s = _
  rw [execMpacketReceive, if_neg (by simp [hp]), if_neg (pmac_takes_mpackets he hl h1 h2)]
  simp only [hk, hn, hrx', fragment_whole hlong hcrc, if_false, Bool.false_eq_true]

/-- A fragment with the expected frame and fragment numbers continues the frame (R45). -/
theorem exec_mpacketReceive_cont {f n : Nat} (hk : m.kind = .cont f n) (hr : (s.pmac p).reassembling = true)
    (hf : f % 4 = (s.pmac p).smd) (hn : n % 4 = (s.pmac p).nextFrag) (hlong : m.longEnough = true)
    (hcrc : m.final = true ∨ m.mcrcOk = true) :
    exec (.mpacketReceive p m) s = .next (((s.laneData p).count Ix.pmacFragmentsRx (p + 1) 1).takeFragment p m) := by
  have hw : ¬ (n % 4 ≠ (s.pmac p).nextFrag ∨ m.longEnough = false ∨ (m.final = false ∧ m.mcrcOk = false)) :=
    not_or.mpr ⟨fun hne => hne hn, fragment_whole hlong hcrc⟩
  show execMpacketReceive p m s = _
  rw [execMpacketReceive, if_neg (by simp [hp]), if_neg (pmac_takes_mpackets he hl h1 h2)]
  simp only [hk, hr, hw, hf, if_false, Bool.true_eq_false, ne_eq, not_true_eq_false]

/-- A fragment of another frame number ends the frame as a reassembly error (R45). -/
theorem exec_mpacketReceive_cont_wrong_frame {f n : Nat} (hk : m.kind = .cont f n) (hr : (s.pmac p).reassembling = true)
    (hf : f % 4 ≠ (s.pmac p).smd) :
    exec (.mpacketReceive p m) s = .next (((s.laneData p).count Ix.pmacFragmentsRx (p + 1) 1).reassemblyError p true) := by
  show execMpacketReceive p m s = _
  rw [execMpacketReceive, if_neg (by simp [hp]), if_neg (pmac_takes_mpackets he hl h1 h2)]
  simp only [hk, hr, hf, if_false, if_true, Bool.true_eq_false, ne_eq, not_false_eq_true]

end

/-- A verify mPacket that is due is the next attempt, or, after three, the failure of the verification (R46). -/
theorem exec_pmacVerifySend_due {s : State} {p : Nat} (hp : s.portPresent p = true) (he : s.regB Ix.pmacEnable (p + 1) = true)
    (hd : s.regB Ix.pmacVerifyDisable (p + 1) = false) (hu : s.portUp p = true)
    (hs : s.reg Ix.pmacVerifyStatus (p + 1) = 1 ∨ s.reg Ix.pmacVerifyStatus (p + 1) = 2)
    (ht : (s.pmac p).attempts = 0 ∨ s.reg Ix.pmacVerifyTime (p + 1) * 65536000000 ≤ s.since (s.pmac p).lastVerify) :
    exec (.pmacVerifySend p) s = .next (if (s.pmac p).attempts < 3 then
      (s.setPmac p { s.pmac p with attempts := (s.pmac p).attempts + 1, lastVerify := s.rawTotal }).setReg Ix.pmacVerifyStatus (p + 1) 2
      else s.setReg Ix.pmacVerifyStatus (p + 1) 4) := by
  have hdue : (s.pmac p).attempts = 0 ∨ State.ns (s.reg Ix.pmacVerifyTime (p + 1) * 1000000) ≤ s.since (s.pmac p).lastVerify :=
    ht.imp_right fun h => by rwa [State.ns, Nat.mul_assoc]
  have hst : ¬ (s.reg Ix.pmacVerifyStatus (p + 1) ≠ 1 ∧ s.reg Ix.pmacVerifyStatus (p + 1) ≠ 2) := by omega
  show execPmacVerifySend p s = _
  rw [execPmacVerifySend, if_neg (by simp [hp]), if_neg (by simp [he, hd, hu, hst, hdue]), ← apply_ite Host.Outcome.next]

/-- Settles O10, kind by kind of mPacket, and by the number of attempts. -/
theorem preemptableMac : Obligations.PreemptableMac := by
  refine ⟨fun s p m hp he hl h1 h2 => ⟨exec_mpacketReceive_verify hp he hl h1 h2, exec_mpacketReceive_respond hp he hl h1 h2,
    fun f => exec_mpacketReceive_start hp he hl h1 h2, fun f n => exec_mpacketReceive_cont hp he hl h1 h2,
    fun f n => exec_mpacketReceive_cont_wrong_frame hp he hl h1 h2⟩, fun s p hp he hd hu hs ht => ⟨fun h => ?_, fun h => ?_⟩⟩
  · rw [exec_pmacVerifySend_due hp he hd hu hs ht, if_pos h]
  · rw [exec_pmacVerifySend_due hp he hd hu hs ht, if_neg (Nat.not_lt.mpr h)]

end Sys2Proof.Proofs
end

section
/-! Frames at the receive MACs and their first cells (R36, R37, R55, R57, R68, R72, R73). -/

namespace Sys2Proof.Proofs
open Sys2Proof Sys2Proof.Machine Sys2Proof.Laws

/-- What a receive MAC keeps of a frame of port `p` as it begins (R36, R37, R221). -/
def begunFrame (s : State) (p : Nat) (capture : Raw) (pipe : Int) (bytes : List Byte) : RxFrame :=
  { ts := s.rxTimestamp p capture pipe, tsInvalid := s.tsInvalid p, duringReset := !s.running (State.portIsland p), bytes := bytes,
    pkt := none, failed := false, complete := false, cormusIds := s.cormusIds }

/-- A frame that begins is data on its port's lanes, and counted where its port island is in reset (R36, R37). -/
theorem startRx_eq (s : State) (key p : Nat) (capture : Raw) (pipe : Int) (bytes : List Byte) :
    s.startRx key p capture pipe bytes =
      { s with
        dict := (s.laneData p).dict, ln := (s.laneData p).ln
        fr := { s.fr with
          rx := tset s.fr.rx key (begunFrame s p capture pipe bytes)
          rxDuringReset := if s.running (State.portIsland p) then s.fr.rxDuringReset else tmod 0 s.fr.rxDuringReset p (· + 1) } } := by
  obtain ⟨d, n, hlane, -⟩ := laneData_spec s p
  unfold State.startRx
  cases h : s.running (State.portIsland p) <;> simp [hlane, State.setRx, begunFrame, h]

/-- A frame that begins changes the status words of its port's lanes alone among the elements (R400). -/
theorem regsBut_startRx (s : State) (key p : Nat) (capture : Raw) (pipe : Int) (bytes : List Byte) :
    s.regsBut (s.startRx key p capture pipe bytes) ((s.portLanes p).map fun l => dictKey Ix.laneStatus (l + 1)) := by
  obtain ⟨d, n, hlane, hreg⟩ := laneData_spec s p
  intro ix sub h
  rw [← hreg ix sub h, startRx_eq, hlane]
  rfl

theorem startRx_rxFrame_same (s : State) (key p : Nat) (capture : Raw) (pipe : Int) (bytes : List Byte) :
    (s.startRx key p capture pipe bytes).rxFrame? key = some (begunFrame s p capture pipe bytes) := by
  rw [startRx_eq]; exact tget_tset_same _ _ _

theorem startRx_rxFrame_ne (s : State) {key k : Nat} (p : Nat) (capture : Raw) (pipe : Int) (bytes : List Byte) (h : k ≠ key) :
    (s.startRx key p capture pipe bytes).rxFrame? k = s.rxFrame? k := by
  rw [startRx_eq]; exact tget_tset_ne _ _ h

theorem startRx_rxDuringReset (s : State) (key p : Nat) (capture : Raw) (pipe : Int) (bytes : List Byte) :
    tgetD (s.startRx key p capture pipe bytes).fr.rxDuringReset p 0 =
      tgetD s.fr.rxDuringReset p 0 + (if s.running (State.portIsland p) then 0 else 1) := by
  rw [startRx_eq]
  cases s.running (State.portIsland p) <;> simp [tmod]

/-- A frame begins at the express MAC of a port whose link is up and which receives none (R36). -/
theorem exec_rxFrameStart_begins {s : State} {p : Nat} (capture : Raw) (pipe : Int) (hp : s.portPresent p = true)
    (hl : s.linkUp p = true) (hn : s.rxFrame? p = none) :
    exec (.rxFrameStart p capture pipe) s = .next (s.startRx p p capture pipe []) := by
  show execRxFrameStart p capture pipe s = _
  simp [execRxFrameStart, hp, hl, hn]

/-- The first cell of frame `r` of port `p` is complete with `bytes`: the whole of a frame of at most 256 bytes, or the first 256
of one that goes on (R38, R55, R57). -/
structure FirstCellComplete (s : State) (p : Nat) (pre ended : Bool) (data bytes : List Byte) (r : RxFrame) : Prop where
  present : s.portPresent p = true
  frame : s.rxFrame? (State.macKey p pre) = some r
  noHandle : r.pkt = none
  notDiverted : r.diverted = false
  notFailed : r.failed = false
  notDuringReset : r.duringReset = false
  running : s.running (16 + p / 32) = true
  bytes_eq : bytes = r.bytes ++ data
  fits : bytes.length ≤ s.reg Ix.portMaxFrame (p + 1)
  preData : pre = true → data = []
  complete : (ended = false ∧ pre = false ∧ bytes.length = 256) ∨ (ended = false ∧ pre = true ∧ 256 ≤ bytes.length) ∨
    (ended = true ∧ (pre = true → r.complete = true) ∧ 64 ≤ bytes.length ∧ bytes.length ≤ 256)
  noCycle : s.isCycleFrame p bytes = false
  forDispatch : s.diverted r.cormusIds p bytes = false

/-- The intake account of a frame of port `p` (R57). -/
def intakeAccount (s : State) (p : Nat) (bytes : List Byte) : Nat :=
  8 * p + classOf (s.reg Ix.portPcpToTc (p + 1)) (s.reg Ix.portDefaultTc (p + 1)) bytes

/-- The packet of a first cell, before it has its handle (R57, R68). -/
def firstCellPacket (s : State) (p : Nat) (pre ended : Bool) (bytes : List Byte) (cells : List Nat) (r : RxFrame) : Packet :=
  { State.newPacket p (classOf (s.reg Ix.portPcpToTc (p + 1)) (s.reg Ix.portDefaultTc (p + 1)) bytes) pre bytes ended r.ts cells
      (s.regB Ix.intakeGuarded (intakeAccount s p bytes + 1)) 0xFFFFFFFF 0 none false with
    tsInvalid := r.tsInvalid }

section
variable {s : State} {p : Nat} {pre ended : Bool} {data bytes : List Byte} {cells : List Nat} {r : RxFrame}

/-- Whether a first cell that is complete holds the whole frame, and that it is one of the two kinds (R38, R55). -/
theorem FirstCellComplete.kinds (h : FirstCellComplete s p pre ended data bytes r) :
    (ended && (!pre || r.complete) && decide (64 ≤ bytes.length ∧ bytes.length ≤ 256)) = ended ∧
      (ended || (!ended && (if pre then decide (256 ≤ bytes.length) else bytes.length == 256))) = true := by
  rcases h.complete with ⟨he, hpre, hlen⟩ | ⟨he, hpre, hlen⟩ | ⟨he, hpre, hlen⟩
  · simp [he, hpre, hlen]
  · simp [he, hpre, hlen]
  · cases pre <;> simp_all

/-- A complete first cell asks for the intake reservation; granted, its frame gets a handle, else it fails (R57, R68). -/
theorem exec_firstCell_complete (h : FirstCellComplete s p pre ended data bytes r) :
    exec (.firstCell p pre data ended cells) s =
      if s.intakeGrants (intakeAccount s p bytes) (s.rxCells p) = false then
        .next (s.rxFails (State.macKey p pre) { r with bytes := bytes } Ix.rxNoIntake bytes.length)
      else if s.freeChoice cells (s.rxCells p) then
        .next ((s.createHandle (firstCellPacket s p pre ended bytes cells r)).setRx (State.macKey p pre)
          { r with bytes := [], pkt := some s.fr.nextPkt })
      else .next s := by
  obtain ⟨hwhole, hkind⟩ := h.kinds
  have hpre : ¬ (pre = true ∧ data ≠ []) := fun ⟨ht, hne⟩ => hne (h.preData ht)
  have hrun : s.running (State.portIsland p) = true := h.running
  show execFirstCell p pre data ended cells s = _
  unfold execFirstCell
  rw [if_neg (by simp [h.present]), h.frame]
  dsimp only
  rw [← h.bytes_eq, hwhole, hkind, if_neg (by simp [h.noHandle, h.notDiverted, h.notFailed, h.notDuringReset, hrun, h.fits, hpre]),
    if_neg (by simp [h.noCycle]), if_neg (by simp [h.forDispatch])]
  rfl

end

section
variable (s : State) (p : Packet)

/-- The order domain a first cell's packet joins (R72). -/
def joinedDomain (s : State) (p : Packet) : Nat := s.domainOf p.src p.cls p.chan p.window (s.reg Ix.rtagEthertype 0)

/-- A created handle is the only one that changes (R68). -/
theorem createHandle_pkt_ne {h : Nat} (hne : h ≠ s.fr.nextPkt) : (s.createHandle p).pkt? h = s.pkt? h :=
  tget_tset_ne _ _ hne

/-- The order domain of a created handle numbers the next one (R73). -/
theorem createHandle_nextSeq : ((s.createHandle p).orderDomain (joinedDomain s p)).nextSeq =
    ((s.orderDomain (joinedDomain s p)).nextSeq + 1) % 4294967296 :=
  congrArg OrderDomain.nextSeq (orderDomain_setOrderDomain_same (s.setPkt s.fr.nextPkt _) (joinedDomain s p) _)

/-- A created handle stands last in its sector's dispatch list (R68, R69). -/
theorem createHandle_dispatchQ : tgetD (s.createHandle p).fr.dispatchQ (s.homeSector p.src) [] =
    tgetD s.fr.dispatchQ (s.homeSector p.src) [] ++ [s.fr.nextPkt] :=
  tgetD_tput_same _ _ _ _

end

/-- The MAC of a port's frame is a MAC of that port. -/
theorem macKey_mod {p : Nat} (pre : Bool) (h : p < 512) : State.macKey p pre % 512 = p := by
  unfold State.macKey
  split <;> omega

/-- Settles O8: what `startRx` does, and the two outcomes of a complete first cell, the handle that `createHandle` makes and the
failure without one. -/
theorem frameReception : Obligations.FrameReception := by
  refine ⟨fun s p capture pipe hp hl hn => ?begins, ?granted, ?refused⟩
  case begins =>
    refine ⟨_, exec_rxFrameStart_begins capture pipe hp hl hn, startRx_rxFrame_same .., startRx_rxDuringReset ..,
      fun k hk => startRx_rxFrame_ne _ _ _ _ _ hk, regsBut_startRx _ _ _ _ _ _, ?_⟩
    rw [startRx_eq]
  case granted =>
    intro s p pre ended data bytes cells r hp hf hh hd hfail hres hrun hb hfit hpd hc hcyc hdiv hgrant hfree h512
    have hcell : FirstCellComplete s p pre ended data bytes r := ⟨hp, hf, hh, hd, hfail, hres, hrun, hb, hfit, hpd, hc, hcyc, hdiv⟩
    have hsector : s.homeSector (firstCellPacket s p pre ended bytes cells r).src = p / 32 := if_pos h512
    have hexec := exec_firstCell_complete (cells := cells) hcell
    rw [if_neg (by rw [intakeAccount, hgrant]; decide), if_pos hfree] at hexec
    refine ⟨_, _, hexec, createHandle_pkt s (firstCellPacket s p pre ended bytes cells r), rfl, rfl, rfl, rfl, rfl,
      rfl, rfl, rfl, hsector, rfl, rfl, rfl, createHandle_nextSeq _ _, ?_,
      fun h hne => createHandle_pkt_ne s (firstCellPacket s p pre ended bytes cells r) hne, rfl⟩
    rw [← hsector]
    exact createHandle_dispatchQ _ _
  case refused =>
    intro s p pre ended data bytes cells r hp hf hh hd hfail hres hrun hb hfit hpd hc hcyc hdiv hgrant h512
    have hcell : FirstCellComplete s p pre ended data bytes r := ⟨hp, hf, hh, hd, hfail, hres, hrun, hb, hfit, hpd, hc, hcyc, hdiv⟩
    have hexec := exec_firstCell_complete (cells := cells) hcell
    rw [if_pos (by rw [intakeAccount, hgrant]), rxFails_none _ _ { r with bytes := bytes } _ _ hh, macKey_mod pre h512] at hexec
    refine ⟨_, hexec, tget_tset_same _ _ _, ?_, ?_, rfl⟩
    · exact reg_count_same s _ _ 1
    · exact regsBut_setReg _ (regsBut_of_reg_eq _ fun _ _ => rfl) (by simp)

end Sys2Proof.Proofs
end

section
/-! The scrubber, host fetch grants, enqueue retries and the hold limit (R53, R54, R57, R59, R62, R63). -/

namespace Sys2Proof.Proofs
open Sys2Proof Sys2Proof.Machine Sys2Proof.Laws

section
/-! ### The scrubber (R51 to R54) -/

/-- A codeword corrected is counted (R51). -/
def countCorrected (s : State) : State := s.count Ix.bufferCorrectedCount 0 1

/-- The code of state `s` corrects the codeword of `f` (R51, R52). -/
def corrects (s : State) (f : CellFinding) : Prop :=
  f.cell < 655360 ∧ f.word < 4 ∧ 1 ≤ f.errors ∧ f.errors ≤ 4 ∧ (s.fr.eccInForce = 1 → f.errors ≤ 3)

/-- The scrubber meets `f`: what it reads, and the cells corrected so far (R54). -/
def scrubStep (a : State × List Nat) (f : CellFinding) : State × List Nat :=
  (a.1.readWord f (!f.written), if a.1.looksCorrected f then a.2 ++ [f.cell] else a.2)

/-- The third pass in a row that corrects a cell condemns it (R54). -/
def corrected (m : CellMark) : CellMark := { m with runs := m.runs + 1, condemned := m.condemned || decide (3 ≤ m.runs + 1) }

section
variable {s : State} {f : CellFinding}

theorem decodeWord_of_corrects (h : corrects s f) : s.decodeWord f.errors = .corrected := by
  obtain ⟨-, -, h1, h4, h3⟩ := h
  have h0 : f.errors ≠ 0 := by omega
  have ht : f.errors ≤ if s.fr.eccInForce = 1 then 3 else 4 := by
    split
    · exact h3 ‹_›
    · exact h4
  simp [State.decodeWord, h0, ht]

theorem readWord_of_corrects (h : corrects s f) (kept : Bool) : s.readWord f kept = countCorrected s := by
  have hin : ¬ (cellCount ≤ f.cell ∨ 4 ≤ f.word) := not_or.mpr ⟨Nat.not_le.mpr h.1, Nat.not_le.mpr h.2.1⟩
  rw [State.readWord, if_neg hin, decodeWord_of_corrects h]
  rfl

theorem looksCorrected_of_corrects (h : corrects s f) : s.looksCorrected f = true := by
  have hcell : f.cell < cellCount := h.1
  simp [State.looksCorrected, hcell, h.2.1, decodeWord_of_corrects h]

theorem scrubStep_of_corrects (h : corrects s f) (cs : List Nat) : scrubStep (s, cs) f = (countCorrected s, cs ++ [f.cell]) := by
  rw [scrubStep, readWord_of_corrects h, looksCorrected_of_corrects h, if_pos rfl]

end

/-- As many codewords as the findings are counted as corrected. -/
def countEach (s : State) (fs : List CellFinding) : State := fs.foldl (fun t _ => countCorrected t) s

/-- A pass in which every finding is corrected counts each, and has corrected their cells. -/
theorem scrubStep_fold_of_corrects (fs : List CellFinding) {s : State} (cs : List Nat) (h : ∀ f ∈ fs, corrects s f) :
    fs.foldl scrubStep (s, cs) = (countEach s fs, cs ++ fs.map CellFinding.cell) := by
  induction fs generalizing s cs with
  | nil => rw [List.map_nil, List.append_nil]; rfl
  | cons f fs ih =>
    have hrest : ∀ g ∈ fs, corrects (countCorrected s) g := fun g hg => h g (List.mem_cons_of_mem _ hg)
    rw [List.foldl_cons, scrubStep_of_corrects (h f List.mem_cons_self), ih _ hrest, List.append_assoc]
    rfl

/-- Counting corrected codewords changes one element alone, which rises by their number and wraps. -/
theorem countEach_spec (fs : List CellFinding) (s : State) :
    countEach s fs = { s with dict := (countEach s fs).dict } ∧
      s.regsBut (countEach s fs) [dictKey Ix.bufferCorrectedCount 0] ∧
      (countEach s fs).reg Ix.bufferCorrectedCount 0 % 18446744073709551616 =
        (s.reg Ix.bufferCorrectedCount 0 + fs.length) % 18446744073709551616 := by
  induction fs generalizing s with
  | nil => exact ⟨rfl, fun _ _ _ => rfl, rfl⟩
  | cons f fs ih =>
    obtain ⟨heq, hregs, hcount⟩ := ih (countCorrected s)
    have hfirst : s.regsBut (countCorrected s) [dictKey Ix.bufferCorrectedCount 0] :=
      regsBut_setReg _ (fun _ _ _ => rfl) List.mem_cons_self
    refine ⟨heq, regsBut_trans hfirst hregs, hcount.trans ?_⟩
    rw [countCorrected, reg_count_same, wrapAdd, List.length_cons]
    omega

/-- The marks a pass begins with where it corrects the cells `cs`: a run it does not go on with begins afresh (R54). -/
def keptMarks (s : State) (cs : List Nat) : Tbl CellMark :=
  (s.fr.cells.map fun e => (e.1, if cs.contains e.1 then e.2 else { e.2 with runs := 0 })).filter fun e => e.2 != {}

/-- Cell `c` has been corrected in the pass that ends (R54). -/
def markCorrected (t : State) (c : Nat) : State := t.setCellMark c (corrected (t.cellMark c))

/-- The end of a pass, with the marks named. -/
theorem endPass_eq_markFold (s : State) (cs : List Nat) :
    s.endPass cs =
      cs.eraseDups.foldl markCorrected { s with fr := { s.fr with cells := keptMarks s cs, scrubbed := s.rawTotal } } := rfl

/-- A pass's corrected cells change marks alone. -/
theorem markFold_eq (cs : List Nat) (s : State) :
    cs.foldl markCorrected s = { s with fr := { s.fr with cells := (cs.foldl markCorrected s).fr.cells } } := by
  induction cs generalizing s with
  | nil => rfl
  | cons c cs ih => rw [List.foldl_cons, ih]; rfl

/-- The end of a pass changes the cells' marks and the time of the last pass (R54). -/
theorem endPass_eq (s : State) (cs : List Nat) :
    s.endPass cs = { s with fr := { s.fr with cells := (s.endPass cs).fr.cells, scrubbed := s.rawTotal } } := by
  rw [endPass_eq_markFold, markFold_eq]

/-- A corrected cell is listed: its run has begun. -/
theorem corrected_ne_default (m : CellMark) : corrected m ≠ {} := fun e => by simpa [corrected] using congrArg CellMark.runs e

/-- A pass that corrects one cell writes that cell's mark (R54). -/
theorem endPass_cells_single (s : State) (c : Nat) :
    (s.endPass [c]).fr.cells = tset (keptMarks s [c]) c (corrected (tgetD (keptMarks s [c]) c {})) :=
  if_neg (corrected_ne_default _)

/-- The one cell marked, corrected once more: its run goes on (R54). -/
theorem endPass_cells_of_corrected {s : State} {c : Nat} {m : CellMark} (h : s.fr.cells = [(c, m)]) :
    (s.endPass [c]).fr.cells = [(c, corrected m)] := by
  rw [endPass_cells_single]
  by_cases hm : m = {}
  · simp [keptMarks, h, hm, tgetD, tget, tset]
  · simp [keptMarks, h, hm, tgetD, tget, tset]

/-- The one cell marked, not corrected: its run begins afresh (R54). -/
theorem endPass_cellMark_of_not_corrected {s : State} {c : Nat} {m : CellMark} (h : s.fr.cells = [(c, m)]) :
    (s.endPass []).cellMark c = { m with runs := 0 } := by
  show tgetD (keptMarks s []) c {} = _
  by_cases hm : ({ m with runs := 0 } : CellMark) = {}
  · simp [keptMarks, h, hm, tgetD, tget]
  · simp [keptMarks, h, hm, tgetD, tget]

/-- A pass of the scrubber that is due and finds what its code corrects (R54). -/
theorem exec_bufferScrub_of_corrects {s : State} {fs : List CellFinding} (hr : s.running 48 = true)
    (hd : s.reg Ix.bufferScrubPeriod 0 * 65536000000 ≤ s.since s.fr.scrubbed) (h : ∀ f ∈ fs, corrects s f) :
    exec (.bufferScrub fs) s = .next ((countEach s fs).endPass (fs.map CellFinding.cell)) := by
  have hdue : ¬ s.since s.fr.scrubbed < State.ns (s.reg Ix.bufferScrubPeriod 0 * 1000000) := by
    rwa [State.ns, Nat.mul_assoc, Nat.not_lt]
  have hfold := scrubStep_fold_of_corrects fs [] h
  show execBufferScrub fs s = _
  rw [execBufferScrub, if_neg (by simp [hr, hdue])]
  show Host.Outcome.next ((fs.foldl scrubStep (s, [])).1.endPass (fs.foldl scrubStep (s, [])).2) = _
  rw [hfold, List.nil_append]

end

section
/-! ### Host fetch grants (R57, R58) -/

/-- A granted host frame gets its cells and a handle, and begins its fetch, in the state its hand-over leaves (R57, R58). -/
theorem exec_hostIntakeGrant_granted {s u : State} {c : Nat} {cells : List Nat} {e : List Byte} {x : HUnit}
    (he : s.chanEntry c = some e) (hx : (s.channel c).units.find? (fun y => y.stage == .waiting) = some x)
    (hmay : s.mayStart c = true) (hgrant : s.intakeGrants (4096 + 8 * entHostPort e + x.cls) (hostCells x.length) = true)
    (hfree : s.freeChoice cells (hostCells x.length) = true) (hu : u = s.handOver c x.first) (hue : u.chanEntry c = some e) :
    ∃ (t : State) (k : Packet), exec (.hostIntakeGrant c cells) s = .next t ∧
      t.pkt? u.fr.nextPkt = some k ∧ k.src = 512 + entHostPort e ∧ k.cls = x.cls ∧ k.cells = cells ∧ k.stage = .reserved ∧
      k.chan = c ∧ k.reserved = cells.length ∧ t.fr.nextPkt = u.fr.nextPkt + 1 := by
  show ∃ t k, execHostIntakeGrant c cells s = .next t ∧ _
  unfold execHostIntakeGrant
  simp only [he, hx]
  rw [if_pos ⟨hmay, hgrant, hfree⟩, ← hu]
  simp only [hue]
  exact ⟨_, _, rfl, tget_tset_same _ _ _, rfl, rfl, rfl, rfl, rfl, rfl, rfl⟩

end

section
/-! ### Enqueue retries (R59) -/

/-- The one packet of keeper `k` whose copies wait is offered again (R59). -/
theorem exec_enqueueRetry_single {s : State} {k h : Nat} {p : Packet} (hk : s.sectorPresent k = true) (hr : s.running 48 = true)
    (hw : (s.keeperPkts k).filter (fun e => e.2.stage == .enqueuing && !e.2.failed) = [(h, p)]) :
    exec (.enqueueRetry k) s = .next (s.pushCopies h) := by
  show execEnqueueRetry k s = _
  rw [execEnqueueRetry, if_pos hk, if_pos hr, State.retryOne, hw]
  rfl

/-- A first copy that is not dropped, and for which its queue has no room, leaves all copies waiting (R59). -/
theorem admitAll_not_admitted {s : State} {h i : Nat} {c : CopySpec} {p : Packet} (rest : List (Nat × CopySpec))
    (hp : s.pkt? h = some p) (hd : s.enqueueDrop p c = none)
    (ha : s.admits c.queue p.cells.length (p.guarded && !p.returned) = false) : s.admitAll h ((i, c) :: rest) = (s, (i, c) :: rest) := by
  simp [State.admitAll, hp, hd, ha]

/-- A packet whose first waiting copy is not admitted stays as it is (R59). -/
theorem pushCopies_not_admitted {s : State} {h i : Nat} {c : CopySpec} {rest : List (Nat × CopySpec)} {p : Packet}
    (hp : s.pkt? h = some p) (hq : p.toEnqueue = (i, c) :: rest) (hd : s.enqueueDrop p c = none)
    (ha : s.admits c.queue p.cells.length (p.guarded && !p.returned) = false) : s.pushCopies h = s.setPkt h p := by
  simp only [State.pushCopies, hp, hq, admitAll_not_admitted rest hp hd ha]
  rw [if_neg (List.cons_ne_nil _ _), modPkt_some s h p _ hp, ← hq]

end

section
/-! ### The hold limit (R62, R63) -/

/-- The hold limit of a down port that has run out expires (R63). -/
theorem exec_holdLimitExpiry_reached {s : State} {p : Nat} (hp : s.portPresent p = true) (hu : s.portUp p = false)
    (hr : s.running 48 = true) (ht : (s.holdTimer p).running = true)
    (hl : s.reg Ix.portHoldLimit (p + 1) * 65536000 ≤ s.holdElapsed p) :
    exec (.holdLimitExpiry p) s = .next (s.expireHold p) := by
  have hns : State.ns (s.reg Ix.portHoldLimit (p + 1) * 1000) ≤ s.holdElapsed p := by rwa [State.ns, Nat.mul_assoc]
  have hreach : s.holdReached p = true := by simp [State.holdReached, ht, hns]
  show execHoldLimitExpiry p s = _
  rw [execHoldLimitExpiry, if_neg (by simp [hp]), if_pos ⟨hu, hreach, hr⟩]

/-- An empty queue releases nothing (R63). -/
theorem releaseQueue_of_empty {s : State} {q : Nat} (h : s.queue q = []) : s.releaseQueue q = s := by
  rw [State.releaseQueue, h]
  split <;> rfl

/-- Empty queues release nothing, one after another. -/
theorem releaseFold_of_empty {s : State} (p : Nat) {cs : List Nat} (h : ∀ c ∈ cs, s.queue (8 * p + c) = []) :
    cs.foldl (fun t c => t.releaseQueue (8 * p + c)) s = s := by
  induction cs with
  | nil => rfl
  | cons c cs ih =>
    rw [List.foldl_cons, releaseQueue_of_empty (h c (by simp)), ih fun d hd => h d (List.mem_cons_of_mem _ hd)]

/-- With empty queues the expiry stops the hold timer and no more (R63). -/
theorem expireHold_of_empty {s : State} {p : Nat} (h : ∀ c, c < 8 → s.queue (8 * p + c) = []) :
    s.expireHold p = s.setHoldTimer p { s.holdTimer p with expired := true, running := false, elapsed := s.holdElapsed p } :=
  releaseFold_of_empty p fun c hc => h c (List.mem_range.mp hc)

end

/-- Settles O11: a pass by its count and its marks, a grant, a retry and an expiry by what each does. -/
theorem bufferEvents : Obligations.BufferEvents := by
  refine ⟨fun s findings hr hd hf => ?scrub, fun s u c cells e x he hx hmay hgrant hfree hu hue hfr => ?grant,
    fun s k h p hk hr hw hp => ?retry, fun s p hp hu hr ht hl => ?hold⟩
  case scrub =>
    obtain ⟨heq, hregs, hcount⟩ := countEach_spec findings s
    have hexec := exec_bufferScrub_of_corrects hr hd hf
    generalize countEach s findings = t at heq hregs hcount hexec
    have hfr : t.fr = s.fr := by rw [heq]
    have hraw : t.rawTotal = s.rawTotal := by rw [heq]; rfl
    have hpass := endPass_eq t (findings.map CellFinding.cell)
    have hreg (ix sub : Nat) : (t.endPass (findings.map CellFinding.cell)).reg ix sub = t.reg ix sub := by rw [hpass]; rfl
    refine ⟨_, hexec, by rw [hreg, hcount], by rw [hpass]; exact hraw, ?_, ?_, fun ix sub h => (hreg ix sub).trans (hregs ix sub h), ?_⟩
    · rintro f m rfl hcells
      exact endPass_cells_of_corrected (hfr ▸ hcells)
    · rintro c m rfl hcells
      exact endPass_cellMark_of_not_corrected (hfr ▸ hcells)
    · rw [hpass, hraw, heq]
  case grant =>
    rw [← hfr]
    exact exec_hostIntakeGrant_granted he hx hmay hgrant hfree hu hue
  case retry =>
    refine ⟨exec_enqueueRetry_single hk hr hw, fun i c rest hq hdrop hadm => ⟨s.setPkt h p, ?_, tget_tset_same _ _ _,
      fun h' hne => tget_tset_ne _ _ hne, rfl⟩⟩
    rw [exec_enqueueRetry_single hk hr hw, pushCopies_not_admitted hp hq hdrop hadm]
  case hold =>
    refine ⟨exec_holdLimitExpiry_reached hp hu hr ht hl, fun hempty => ?_⟩
    rw [exec_holdLimitExpiry_reached hp hu hr ht hl, expireHold_of_empty hempty]

end Sys2Proof.Proofs
end

section
/-! What leaves the copies in transmission, the frames on the wire and the counts of frames sent as they are: memory accesses, survey
records and postcards, and the freeing of cells (R54, R60, R63, R121 to R124, R352). -/

namespace Sys2Proof.Proofs
open Sys2Proof Sys2Proof.Machine Sys2Proof.Laws

/-- The key is one of TX_FRAMES or TX_STOMPED. -/
def sentCount (key : Nat) : Prop := dictKey Ix.txFrames 0 ≤ key ∧ key < dictKey Ix.txSizeDrop 0

/-- `t` has the copies in transmission, the frames on the wire and the counts of frames sent of `s`. -/
structure KeepsWire (s t : State) : Prop where
  tx : t.fr.tx = s.fr.tx
  wire : t.fr.wire = s.fr.wire
  counts : ∀ ix sub, sentCount (dictKey ix sub) → t.reg ix sub = s.reg ix sub

/-- No object behind the two counts has an element among them. -/
theorem not_sentCount_of_le {ix : Nat} (sub : Nat) (h : Ix.txSizeDrop ≤ ix) : ¬ sentCount (dictKey ix sub) := by
  unfold sentCount dictKey
  have hix : 0x320B ≤ ix := h
  omega

/-- No scalar before the two counts is among them. -/
theorem not_sentCount_of_lt {ix : Nat} (h : ix < Ix.txFrames) : ¬ sentCount (dictKey ix 0) := by
  unfold sentCount dictKey
  have hix : ix < 0x3209 := h
  omega

theorem sentCount_txFrames {p : Nat} (h : p < 512) : sentCount (dictKey Ix.txFrames (p + 1)) := by
  unfold sentCount dictKey
  simp only [Ix.txFrames, Ix.txSizeDrop]
  omega

theorem sentCount_txStomped {p : Nat} (h : p < 512) : sentCount (dictKey Ix.txStomped (p + 1)) := by
  unfold sentCount dictKey
  simp only [Ix.txFrames, Ix.txStomped, Ix.txSizeDrop]
  omega

namespace KeepsWire

variable {s t u : State}

theorem refl (s : State) : KeepsWire s s := ⟨rfl, rfl, fun _ _ _ => rfl⟩

theorem trans (h : KeepsWire s t) (h' : KeepsWire t u) : KeepsWire s u :=
  ⟨h'.tx.trans h.tx, h'.wire.trans h.wire, fun ix sub hk => (h'.counts ix sub hk).trans (h.counts ix sub hk)⟩

/-- `trans` with its second half first, which fixes the state between. -/
theorem after (h' : KeepsWire t u) (h : KeepsWire s t) : KeepsWire s u := h.trans h'

theorem ite {c : Prop} [Decidable c] (h : KeepsWire s t) (h' : KeepsWire s u) : KeepsWire s (if c then t else u) := by
  split
  · exact h
  · exact h'

theorem setReg (h : KeepsWire s t) {i j : Nat} (v : Nat) (hk : ¬ sentCount (dictKey i j)) : KeepsWire s (t.setReg i j v) :=
  ⟨h.tx, h.wire, fun ix sub hs => (reg_setReg_ne t i j v ix sub fun e => hk (e ▸ hs)).trans (h.counts ix sub hs)⟩

/-- An object behind the two counts takes a value. -/
theorem setReg_le (h : KeepsWire s t) {i : Nat} (j v : Nat) (hi : Ix.txSizeDrop ≤ i) : KeepsWire s (t.setReg i j v) :=
  h.setReg v (not_sentCount_of_le j hi)

/-- An object behind the two counts counts. -/
theorem count_le (h : KeepsWire s t) {i : Nat} (j n : Nat) (hi : Ix.txSizeDrop ≤ i) : KeepsWire s (t.count i j n) :=
  h.setReg_le j _ hi

theorem event (h : KeepsWire s t) (c v i : Nat) (ps : List (Nat × Nat)) : KeepsWire s (t.event c v i ps) := by
  refine ⟨by rw [event_fr, h.tx], by rw [event_fr, h.wire],
    fun ix sub hs => (reg_event t c v i ps ix sub ?_).trans (h.counts ix sub hs)⟩
  intro he
  simp only [eventKeys, List.mem_cons, List.not_mem_nil, or_false] at he
  rcases he with e | e | e | e | e | e <;> exact not_sentCount_of_le _ (by decide) (e ▸ hs)

theorem foldl {α : Type} {f : State → α → State} (hf : ∀ t a, KeepsWire t (f t a)) (l : List α) (s : State) :
    KeepsWire s (l.foldl f s) := by
  induction l generalizing s with
  | nil => exact refl s
  | cons a l ih => exact (hf s a).trans (ih (f s a))

end KeepsWire

section
/-! ### Memory (R411 to R419) -/

theorem keepsWire_leaveGuarantee (s : State) (cause : Nat) : KeepsWire s (s.leaveGuarantee cause) :=
  (((KeepsWire.refl s).setReg _ (not_sentCount_of_lt (by decide))).setReg _ (not_sentCount_of_lt (by decide))).setReg _
    (not_sentCount_of_lt (by decide))

theorem keepsWire_countUncorrectable (s : State) (c : Nat) : KeepsWire s (s.countUncorrectable c) :=
  (KeepsWire.refl s).count_le _ _ (by decide) |>.trans ⟨rfl, rfl, fun _ _ _ => rfl⟩

theorem keepsWire_noteBadRead (s : State) (who a n : Nat) : KeepsWire s (s.noteBadRead who a n) := by
  unfold State.noteBadRead
  split
  · refine KeepsWire.foldl (fun t w => ?_) _ s
    dsimp only
    split
    · split
      · exact .refl t
      · exact (keepsWire_leaveGuarantee t 3).event ..
    · split
      · exact KeepsWire.foldl keepsWire_countUncorrectable _ t
      · exact .refl t
  · exact .refl s

theorem keepsWire_noteWord (a n : Nat) (s : State) (w : Nat) : KeepsWire s (State.noteWord a n s w) := by
  unfold State.noteWord
  dsimp only
  split
  · exact ⟨rfl, rfl, fun _ _ _ => rfl⟩
  · split
    · exact ((KeepsWire.refl s).count_le _ _ (by decide)).count_le _ _ (by decide)
    · exact (KeepsWire.refl s).count_le _ _ (by decide)

theorem keepsWire_store (s : State) (a : Nat) (bs : List Byte) : KeepsWire s (s.store a bs) := by
  unfold State.store
  dsimp only
  split
  · exact (KeepsWire.foldl (keepsWire_noteWord _ _) _ _).after ⟨rfl, rfl, fun _ _ _ => rfl⟩
  · exact ⟨rfl, rfl, fun _ _ _ => rfl⟩

end

section
/-! ### Records given to a host channel (R124, R315, R352) -/

theorem keepsWire_modUnit (s : State) (c first : Nat) (f : HUnit → HUnit) : KeepsWire s (s.modUnit c first f) :=
  ⟨rfl, rfl, fun _ _ _ => rfl⟩

theorem keepsWire_modFrameUnit (s : State) (c h : Nat) (f : HUnit → HUnit) : KeepsWire s (s.modFrameUnit c h f) :=
  ⟨rfl, rfl, fun _ _ _ => rfl⟩

theorem keepsWire_setChannel (s : State) (c : Nat) (x : Channel) : KeepsWire s (s.setChannel c x) := ⟨rfl, rfl, fun _ _ _ => rfl⟩

theorem keepsWire_request (s : State) (v : Nat) (r : Stamp) : KeepsWire s (s.request v r) :=
  ⟨by rw [request_fr], by rw [request_fr], fun ix sub _ => request_reg s v r ix sub⟩

/-- A channel is shown halted, and that is logged. -/
theorem keepsWire_haltShown (s : State) (c cause index v i : Nat) (x : Channel) (ps : List (Nat × Nat)) :
    KeepsWire s ((((s.setChannel c x).setReg Ix.chHaltCause (c + 1) cause).setReg Ix.chHaltIndex (c + 1) index).event
      Ix.chStatus v i ps) :=
  (((keepsWire_setChannel s c x).setReg_le _ _ (by decide)).setReg_le _ _ (by decide)).event ..

theorem keepsWire_haltDone (s : State) (c : Nat) : KeepsWire s (s.haltDone c) := by
  unfold State.haltDone
  dsimp only
  split
  · split
    · exact (keepsWire_haltShown ..).trans (keepsWire_request ..)
    · exact keepsWire_haltShown ..
  · exact .refl s

theorem keepsWire_haltChannel (s : State) (c cause index : Nat) : KeepsWire s (s.haltChannel c cause index) := by
  unfold State.haltChannel
  dsimp only
  split
  · exact .refl s
  · exact (keepsWire_setChannel s c _).trans (keepsWire_haltDone _ c)

theorem keepsWire_recordToChannel (s : State) (k c : Nat) (bytes : List Byte) : KeepsWire s (s.recordToChannel k c bytes) := by
  have hdrop : KeepsWire s (s.count Ix.postcardDropped (k + 1) 1) := (KeepsWire.refl s).count_le _ _ (by decide)
  unfold State.recordToChannel
  dsimp only
  split
  · exact hdrop
  · split
    · exact hdrop
    · split
      · exact hdrop
      · split
        · exact (((keepsWire_noteBadRead s ..).trans (keepsWire_modUnit ..)).trans (keepsWire_haltChannel ..)).count_le _ _ (by decide)
        · exact (((keepsWire_store s ..).count_le _ _ (by decide)).trans (keepsWire_modUnit ..)).count_le _ _ (by decide)

end

section
/-! ### Postcards and survey records (R63, R88, R121 to R124) -/

theorem keepsWire_noteRelease (s : State) (q seq : Nat) : KeepsWire s (s.noteRelease q seq) := by
  have hcount : KeepsWire s (s.count Ix.queueReleasedCount (q + 1) 1) := (KeepsWire.refl s).count_le _ _ (by decide)
  unfold State.noteRelease
  dsimp only
  split
  · exact hcount.trans ⟨rfl, rfl, fun _ _ _ => rfl⟩
  · exact ((hcount.trans (u := State.setHoldTimer _ _ _) ⟨rfl, rfl, fun _ _ _ => rfl⟩).trans (keepsWire_leaveGuarantee _ 2)).event ..

/-- The counters of a copy that R44 or R312 removes. -/
def removalCounters : List Nat := [Ix.txSizeDrop, Ix.hostRxSizeDrop, Ix.hostRxNoChannel]

theorem sizeDrop_counter {s : State} {q ch len : Nat} {x : Nat × Nat} (h : s.sizeDrop q ch len = some x) : x.1 ∈ removalCounters := by
  unfold State.sizeDrop at h
  split at h
  · split at h <;> cases h
    simp [removalCounters]
  · split at h
    · cases h
      simp [removalCounters]
    · split at h
      · split at h <;> cases h
        simp [removalCounters]
      · cases h

theorem enqueueDrop_counter {s : State} {p : Packet} {c : CopySpec} {x : Nat × Nat} (h : s.enqueueDrop p c = some x) :
    x.1 ∈ removalCounters := by
  unfold State.enqueueDrop at h
  dsimp only at h
  split at h
  · cases h
    exact sizeDrop_counter ‹_›
  · obtain ⟨-, hx⟩ := Option.ite_none_right_eq_some.mp h
    cases hx
    simp [removalCounters]

theorem txSizeDrop_le_removalCounters : ∀ i ∈ removalCounters, Ix.txSizeDrop ≤ i := by decide

theorem keepsWire_takeEnqueueSeq (s : State) (q : Nat) : KeepsWire s (s.takeEnqueueSeq q).1 :=
  (KeepsWire.refl s).setReg_le _ _ (by decide)

theorem keepsWire_sendPostcard (s : State) (k : Nat) : KeepsWire s (s.sendPostcard k) := by
  have hempty : KeepsWire s { s with fr := { s.fr with postcards := tput {} s.fr.postcards k {} } } := ⟨rfl, rfl, fun _ _ _ => rfl⟩
  unfold State.sendPostcard
  dsimp only
  split
  · exact .refl s
  · split
    · exact hempty.count_le _ _ (by decide)
    · split
      · exact (hempty.count_le _ _ (txSizeDrop_le_removalCounters _ (enqueueDrop_counter ‹_›))).count_le _ _ (by decide)
      · split
        · exact hempty.count_le _ _ (by decide)
        · have hseq := hempty.trans (keepsWire_takeEnqueueSeq _ (s.reg Ix.postcardDest (k + 1)))
          split
          · exact hseq.trans (keepsWire_noteRelease ..)
          · refine KeepsWire.count_le ?_ _ _ (by decide)
            exact hseq.trans ⟨rfl, rfl, fun _ _ _ => rfl⟩

theorem keepsWire_givePostcard (s : State) (k : Nat) (sv : Survey) : KeepsWire s (s.givePostcard k sv) := by
  unfold State.givePostcard
  dsimp only
  split
  · exact keepsWire_recordToChannel ..
  · split
    · split
      · exact (KeepsWire.refl s).count_le _ _ (by decide)
      · split
        · exact (keepsWire_sendPostcard ..).after ⟨rfl, rfl, fun _ _ _ => rfl⟩
        · exact ⟨rfl, rfl, fun _ _ _ => rfl⟩
    · exact .refl s

theorem keepsWire_reduce (s : State) (sv : Survey) : KeepsWire s (s.reduce sv) := by
  unfold State.reduce
  dsimp only
  split
  · exact keepsWire_store ..
  · exact (keepsWire_noteBadRead ..).count_le _ _ (by decide)

/-- A record that becomes complete goes to the reducer and to postcards alone (R122 to R124). -/
theorem keepsWire_completeSurveyAt (s : State) (h outcome : Nat) (t : Raw) : KeepsWire s (s.completeSurveyAt h outcome t) := by
  unfold State.completeSurveyAt
  dsimp only
  split
  · exact .refl s
  · split
    · exact .refl s
    · refine (KeepsWire.ite (keepsWire_modFrameUnit ..) (.refl _)).after ?_
      refine (KeepsWire.foldl (fun t k => .ite (keepsWire_givePostcard t k _) (.refl t)) _ _).after ?_
      exact (KeepsWire.ite (keepsWire_reduce ..) (.refl _)).after ⟨rfl, rfl, fun _ _ _ => rfl⟩

end

section
/-! ### Freed cells (R54, R60) -/

theorem keepsWire_freeCell (s : State) (c : Nat) : KeepsWire s (s.freeCell c) := by
  have hmark (m : Tbl CellMark) (q : List Nat) : KeepsWire s { s with fr := { s.fr with cells := m, quarantine := q } } :=
    ⟨rfl, rfl, fun _ _ _ => rfl⟩
  unfold State.freeCell
  exact .ite (.ite ((hmark ..).setReg_le _ _ (by decide)) ((hmark ..).event ..)) (hmark ..)

theorem keepsWire_reap (s : State) (h : Nat) : KeepsWire s (s.reap h) := by
  have hfreed (cs : List Nat) (k : Packet) : KeepsWire s (cs.foldl State.freeCell (s.setPkt h k)) :=
    (KeepsWire.foldl keepsWire_freeCell _ _).after ⟨rfl, rfl, fun _ _ _ => rfl⟩
  unfold State.reap
  dsimp only
  split
  · exact .refl s
  · split
    · split
      · exact (hfreed ..).trans ⟨rfl, rfl, fun _ _ _ => rfl⟩
      · exact hfreed ..
    · exact .refl s

end

end Sys2Proof.Proofs
end

section
/-! Transmit selection where pre-emption is not active, and the end of a copy (R49, R50, R60, R136, R137, R151). -/

namespace Sys2Proof.Proofs
open Sys2Proof Sys2Proof.Machine Sys2Proof.Laws

section
/-! ### The start of a copy -/

/-- In a falling list the first element that passes is the highest one. -/
theorem find?_eq_some_of_highest {l : List Nat} {f : Nat → Bool} {c : Nat} (hl : l.Pairwise (· > ·)) (hc : c ∈ l) (hf : f c = true)
    (hh : ∀ e ∈ l, c < e → f e = false) : l.find? f = some c := by
  induction l with
  | nil => cases hc
  | cons a l ih =>
    obtain ⟨habove, hl⟩ := List.pairwise_cons.mp hl
    rcases List.mem_cons.mp hc with rfl | hcl
    · exact List.find?_cons_of_pos hf
    · have ha : f a = false := hh a List.mem_cons_self (habove c hcl)
      rw [List.find?_cons_of_neg (by simp [ha])]
      exact ih hl hcl fun e he => hh e (List.mem_cons_of_mem _ he)

/-- The highest eligible class of a port is the best of those that may start (R136, R137). -/
theorem bestClass_eq_highest {u : State} {p c : Nat} {may : Nat → Bool} (hc : c < 8) (hmay : may c = true)
    (hel : u.eligible p c = true) (hh : ∀ e, c < e → e < 8 → u.eligible p e = false) :
    u.bestClass p (([7, 6, 5, 4, 3, 2, 1, 0] : List Nat).filter may) = some c := by
  have hfalling : ([7, 6, 5, 4, 3, 2, 1, 0] : List Nat).Pairwise (· > ·) := by decide
  have hclasses : ∀ e, e ∈ ([7, 6, 5, 4, 3, 2, 1, 0] : List Nat) ↔ e < 8 := fun e => by simp; omega
  refine find?_eq_some_of_highest (hfalling.filter may) (List.mem_filter.mpr ⟨(hclasses c).mpr hc, hmay⟩) hel fun e he hlt => ?_
  exact hh e hlt ((hclasses e).mp (List.mem_filter.mp he).1)

/-- Where nothing is in transmission and pre-emption is not active, the head copy of the highest eligible class starts at the express
MAC (R137). -/
theorem selectWhole_highest {u : State} {p c : Nat} {d : QCopy} {k : Packet} (ts : Raw) (found : List CellFinding)
    (he : u.txCopy? p = none) (hp : u.txCopy? (512 + p) = none) (hc : c < 8) (hel : u.eligible p c = true)
    (hmay : u.expressClass p c = true ∨ (u.gate p).hold = false) (hh : ∀ e, c < e → e < 8 → u.eligible p e = false)
    (hd : u.headOf (8 * p + c) = some (d, k)) : u.selectWhole p ts found = u.startCopy p p (8 * p + c) d k ts found := by
  have hbest := bestClass_eq_highest (may := fun c => u.expressClass p c || !(u.gate p).hold) hc (by simpa using hmay) hel hh
  simp [State.selectWhole, he, hp, hbest, State.startClass, hd]

/-- A head copy's packet is there. -/
theorem pkt_of_headOf {u : State} {q : Nat} {d : QCopy} {k : Packet} (h : u.headOf q = some (d, k)) : u.pkt? d.pkt = some k := by
  unfold State.headOf at h
  split at h
  · obtain ⟨k', hk, heq⟩ := Option.map_eq_some_iff.mp h
    cases heq
    exact hk
  · cases h

theorem keepsWire_noteLaunch (s : State) (h : Nat) (k : Packet) : KeepsWire s (s.noteLaunch h k) := by
  unfold State.noteLaunch
  split
  · exact .ite ((keepsWire_modFrameUnit ..).after ((KeepsWire.refl s).count_le _ _ (by decide))) (.refl s)
  · exact .refl s

theorem keepsWire_noteTimestamp (s : State) (p : Nat) (k : Packet) (d : QCopy) (ts : Raw) : KeepsWire s (s.noteTimestamp p k d ts) :=
  .ite (keepsWire_modFrameUnit ..) (.refl s)

/-- What is noted of a copy that has started leaves it in transmission (R122, R309, R310). -/
theorem keepsWire_noteStart (s : State) (p : Nat) (k : Packet) (d : QCopy) (ts : Raw) (cut : Bool) :
    KeepsWire s (if d.index = 0 ∧ cut = false then ((s.noteLaunch d.pkt k).noteTimestamp p k d ts).completeSurveyAt d.pkt 0 ts
      else (s.noteLaunch d.pkt k).noteTimestamp p k d ts) :=
  (KeepsWire.ite (keepsWire_completeSurveyAt ..) (.refl _)).after ((keepsWire_noteTimestamp ..).after (keepsWire_noteLaunch ..))

/-- The length a copy of packet `k` is charged as it starts (R151). -/
def startCharge (u : State) (d : QCopy) (k : Packet) : Nat :=
  if k.accepted then k.copyLen d.spec else max (k.copyLen d.spec) (u.reg Ix.portMaxFrame (k.src + 1))

/-- The first copy's mark of having started by cut-through changes no charge (R121, R151). -/
theorem charge_eq_startCharge {u : State} {d : QCopy} {k k' : Packet}
    (h : k' = if d.index = 0 then { k with firstCut := !k.accepted } else k) :
    (if (!k.accepted) = true then max (k'.copyLen d.spec) (u.reg Ix.portMaxFrame (k'.src + 1)) else k'.copyLen d.spec) =
      startCharge u d k := by
  have hlen : k'.copyLen d.spec = k.copyLen d.spec := by rw [h]; split <;> rfl
  have hsrc : k'.src = k.src := by rw [h]; split <;> rfl
  cases ha : k.accepted <;> simp [startCharge, ha, hlen, hsrc]

/-- A copy that starts without a bad cell is in transmission at its MAC, from the present on, charged its length or, cut through, at
least the maximum of its ingress port (R136, R151). -/
theorem startCopy_txCopy {u : State} {key q : Nat} {d : QCopy} {k : Packet} (p : Nat) (ts : Raw) (hk : u.pkt? d.pkt = some k)
    (hbad : u.badCellOf d.pkt = none) :
    ∃ bytes, (u.startCopy p key q d k ts []).txCopy? key = some
      { copy := d, queue := q, bytes := bytes, started := u.raw, resumed := u.rawTotal, sent := 0, ts := ts
        charged := startCharge u d k, cutThrough := !k.accepted, stomp := false, cutAt := none, preempted := false
        countedPre := false, overrun := false } := by
  unfold State.startCopy
  simp only [List.filter_nil, List.foldl_nil, hbad, hk, Option.getD_some, charge_eq_startCharge rfl]
  exact ⟨_, (congrArg (tget · key) (keepsWire_noteStart ..).tx).trans (tget_tset_same _ _ _)⟩

/-- At a transmit opportunity of a port that is up and awake, the port's answers go first, its bad head copies are removed, and the
copies that the guard band holds back are noted (R53, R136, R146). -/
theorem exec_txSelect_whole {s u : State} {p : Nat} (launch : Raw) (pipe : Int) (found : List CellFinding)
    (hp : s.portPresent p = true) (hup : s.portUp p = true) (haw : s.awake p = true)
    (hu : u = (List.range 8).foldl (fun t c => t.noteDeferral p c) ((s.sendReplies p).dropBadHeads p))
    (hpre : u.preemptActive p = false) :
    exec (.txSelect p launch pipe found) s = .next (u.selectWhole p (s.txTimestamp p launch pipe) found) := by
  show execTxSelect p launch pipe found s = _
  rw [execTxSelect, if_neg (by simp [hp]), if_neg (by simp [hup, haw]), ← hu]
  simp only [hpre, Bool.false_eq_true, if_false]

end

section
/-! ### The end of a copy -/

/-- The copy `x` has left its MAC: its shaper is charged, and it is counted (R49, R60, R151). -/
def leftMac (s : State) (p key : Nat) (x : TxCopy) : State :=
  let len := if x.cutThrough then (s.finalData x).length + 4 else x.charged
  ((if x.queue < 4096 then s.endShaper x.queue x.charged len else s).dropTx key).count
    (if x.stomp then Ix.txStomped else Ix.txFrames) (p + 1) 1

/-- The copy `x` stands on the wire, before its record completes and its cells are freed (R49, R50, R60). -/
def leftWire (s : State) (p key : Nat) (x : TxCopy) : State :=
  let fcs := if x.stomp then complementBytes (fcsOf (s.finalData x)) else fcsOf (s.finalData x)
  let t := leftMac s p key x
  let u : State := { t with
    fr := { t.fr with wire := tset t.fr.wire p { frame := s.finalData x ++ fcs, stomped := x.stomp, ts := x.ts } } }
  u.setPortLink p { u.portLink p with idleSince := s.rawTotal }

theorem leftWire_reg (s : State) (p key : Nat) (x : TxCopy) (ix sub : Nat) :
    (leftWire s p key x).reg ix sub = (leftMac s p key x).reg ix sub := rfl

/-- What follows a copy on the wire leaves it there, and its count (R60, R122). -/
theorem keepsWire_endCopy (s : State) (p key : Nat) (x : TxCopy) : KeepsWire (leftWire s p key x) (s.endCopy p key x) :=
  (keepsWire_reap ..).after (.ite (keepsWire_completeSurveyAt ..) (.refl _))

/-- No shaper charge changes the copies in transmission or an element (R151). -/
theorem endShaper_if_keeps (s : State) (c : Prop) [Decidable c] (q charged len : Nat) :
    KeepsWire s (if c then s.endShaper q charged len else s) := .ite ⟨rfl, rfl, fun _ _ _ => rfl⟩ (.refl s)

variable {s : State} {p key : Nat} {x : TxCopy}

theorem endCopy_txCopy : (s.endCopy p key x).txCopy? key = none :=
  (congrArg (tget · key) (keepsWire_endCopy s p key x).tx).trans (tget_terase_same _ _)

theorem endCopy_wire : tget (s.endCopy p key x).fr.wire p = some
    ⟨s.finalData x ++ (if x.stomp then complementBytes (fcsOf (s.finalData x)) else fcsOf (s.finalData x)), x.stomp, x.ts⟩ :=
  (congrArg (tget · p) (keepsWire_endCopy s p key x).wire).trans (tget_tset_same _ _ _)

theorem wrapAdd_64 (v n : Nat) : wrapAdd 64 v n = (v + n) % 18446744073709551616 := by simp [wrapAdd]

/-- A copy that ends counts once, where it was stomped and where it was not (R49, R60). -/
theorem endCopy_count (hp : p < 512) :
    (s.endCopy p key x).reg (if x.stomp then Ix.txStomped else Ix.txFrames) (p + 1) =
      (s.reg (if x.stomp then Ix.txStomped else Ix.txFrames) (p + 1) + 1) % 18446744073709551616 := by
  have hsent : sentCount (dictKey (if x.stomp then Ix.txStomped else Ix.txFrames) (p + 1)) := by
    split
    · exact sentCount_txStomped hp
    · exact sentCount_txFrames hp
  rw [(keepsWire_endCopy s p key x).counts _ _ hsent, leftWire_reg, leftMac, reg_count_same, wrapAdd_64, dropTx_reg,
    (endShaper_if_keeps ..).counts _ _ hsent]

end

/-- The bytes of a copy that ends, of a packet that is there (R49, R53). -/
theorem finalData_of_pkt {s : State} {x : TxCopy} {k : Packet} (hk : s.pkt? x.copy.pkt = some k) : s.finalData x =
    if x.stomp then (x.bytes ++ k.tail).take (x.cutAt.getD (x.bytes ++ k.tail).length) else x.bytes ++ k.tail := by
  simp only [State.finalData, hk]

/-- A copy that may end leaves the wire (R60). -/
theorem exec_copyTxEnd_of_mayEnd {s : State} {p : Nat} {pre : Bool} {x : TxCopy} (hp : s.portPresent p = true)
    (hx : s.txCopy? (State.macKey p pre) = some x) (hm : s.mayEnd x = true) :
    exec (.copyTxEnd p pre) s = .next (s.endCopy p (State.macKey p pre) x) := by
  show execCopyTxEnd p pre s = _
  simp [execCopyTxEnd, hp, hx, hm]

/-- A present port is one of 512. -/
theorem lt_of_portPresent {s : State} {p : Nat} (h : s.portPresent p = true) : p < 512 := by
  have hlt : p < 32 * s.variant.sectors := of_decide_eq_true h
  cases hv : s.variant <;> rw [hv] at hlt <;> simp only [Variant.sectors] at hlt <;> omega

/-- Settles O26: the highest eligible class starts, its copy is in transmission, and a copy that ends is on the wire and counted. -/
theorem txSelection : Obligations.TxSelection := by
  refine ⟨fun s u p c launch pipe found d k hp hup haw hu hpre he hk hc hel hmay hh hd => ?starts,
    fun s p pre x k data hp hx hk hm hdata => ?ends⟩
  case starts =>
    have hexec := exec_txSelect_whole launch pipe found hp hup haw hu hpre
    rw [selectWhole_highest _ found he hk hc hel hmay hh hd] at hexec
    refine ⟨hexec, ?_⟩
    rintro rfl hbad
    obtain ⟨bytes, hx⟩ := startCopy_txCopy (key := p) (q := 8 * p + c) p (s.txTimestamp p launch pipe) (pkt_of_headOf hd) hbad
    exact ⟨_, _, hexec, hx, rfl, rfl, rfl, rfl, rfl, rfl, rfl, rfl⟩
  case ends =>
    have hcount := endCopy_count (s := s) (key := State.macKey p pre) (x := x) (lt_of_portPresent hp)
    have hwire := endCopy_wire (s := s) (p := p) (key := State.macKey p pre) (x := x)
    rw [finalData_of_pkt hk, ← hdata] at hwire
    refine ⟨_, exec_copyTxEnd_of_mayEnd hp hx hm, endCopy_txCopy, fun hs => ?_, fun hs => ?_⟩
    · simp only [hs, Bool.false_eq_true, if_false] at hwire hcount
      exact ⟨hwire, hcount⟩
    · simp only [hs, if_true] at hwire hcount
      exact ⟨hwire, hcount⟩

end Sys2Proof.Proofs
end

section
/-! The instruction words of an awl (R109). -/

namespace Sys2Proof.Proofs
open Sys2Proof Sys2Proof.Machine Sys2Proof.Laws

/-- The bits of an instruction word, field by field from the bottom (R109). -/
theorem getLsbD_awlWord (op : BitVec 8) (o : AwlOp) (n : Nat) :
    (awlWord op o).getLsbD n =
      if n < 32 then o.imm.getLsbD n
      else if n < 40 then o.x.getLsbD (n - 32)
      else if n < 41 then o.i
      else if n < 46 then o.b.getLsbD (n - 41)
      else if n < 51 then o.a.getLsbD (n - 46)
      else if n < 56 then o.d.getLsbD (n - 51)
      else op.getLsbD (n - 56) := by
  simp only [awlWord, BitVec.getLsbD_append, BitVec.getLsbD_ofBool, Nat.sub_sub]
  grind

/-- A part of a word is the vector whose bits it shows. -/
theorem extractLsb'_eq_of_getLsbD {m : Nat} {w : BitVec m} {start len : Nat} {x : BitVec len}
    (h : ∀ j, j < len → w.getLsbD (start + j) = x.getLsbD j) : w.extractLsb' start len = x :=
  BitVec.eq_of_getLsbD_eq fun j hj => by simp [hj, h j hj]

/-- The opcode of an instruction word is the one it was made from (R109). -/
theorem awlOpcode_awlWord (op : BitVec 8) (o : AwlOp) : awlOpcode (awlWord op o) = op :=
  extractLsb'_eq_of_getLsbD fun j hj => by rw [getLsbD_awlWord]; grind

/-- The operand fields of an instruction word are those it was made from (R109). -/
theorem awlFields_awlWord (op : BitVec 8) (o : AwlOp) : awlFields (awlWord op o) = o := by
  have hd : (awlWord op o).extractLsb' 51 5 = o.d := extractLsb'_eq_of_getLsbD fun j hj => by rw [getLsbD_awlWord]; grind
  have ha : (awlWord op o).extractLsb' 46 5 = o.a := extractLsb'_eq_of_getLsbD fun j hj => by rw [getLsbD_awlWord]; grind
  have hb : (awlWord op o).extractLsb' 41 5 = o.b := extractLsb'_eq_of_getLsbD fun j hj => by rw [getLsbD_awlWord]; grind
  have hi : (awlWord op o).getLsbD 40 = o.i := getLsbD_awlWord op o 40
  have hx : (awlWord op o).extractLsb' 32 8 = o.x := extractLsb'_eq_of_getLsbD fun j hj => by rw [getLsbD_awlWord]; grind
  have himm : (awlWord op o).extractLsb' 0 32 = o.imm := extractLsb'_eq_of_getLsbD fun j hj => by rw [getLsbD_awlWord]; grind
  rw [awlFields, hd, ha, hb, hi, hx, himm]

/-- Every word is the word of its opcode and its operand fields (R109). -/
theorem awlWord_awlOpcode_awlFields (w : BitVec 64) : awlWord (awlOpcode w) (awlFields w) = w := by
  refine BitVec.eq_of_getLsbD_eq fun n hn => ?_
  rw [getLsbD_awlWord]
  simp only [awlOpcode, awlFields, BitVec.getLsbD_extractLsb']
  grind

/-- Settles O20: a word is read bit by bit, and each bit lies in one field. -/
theorem awlWordsRoundTrip : Obligations.AwlWordsRoundTrip :=
  ⟨fun op o => ⟨awlOpcode_awlWord op o, awlFields_awlWord op o⟩, awlWord_awlOpcode_awlFields⟩

end Sys2Proof.Proofs
end

section
/-! Arithmetic, moves, comparisons and the window hash of an awl (R104, R109, R110). -/

namespace Sys2Proof.Proofs
open Sys2Proof Sys2Proof.Machine Sys2Proof.Laws

/-- Settles O12: each of the ten is an `aluStep` of its function, which writes D alone. -/
theorem awlArithmetic : Obligations.AwlArithmetic := by
  intro s w h o p c op k f hmem hr
  have hexec : exec c s = s.runAwl op usesAlu w o k (aluStep o f) := by
    simp only [List.mem_cons, Prod.mk.injEq, List.not_mem_nil, or_false] at hmem
    rcases hmem with ⟨rfl, rfl, rfl, rfl⟩ | ⟨rfl, rfl, rfl, rfl⟩ | ⟨rfl, rfl, rfl, rfl⟩ | ⟨rfl, rfl, rfl, rfl⟩ |
      ⟨rfl, rfl, rfl, rfl⟩ | ⟨rfl, rfl, rfl, rfl⟩ | ⟨rfl, rfl, rfl, rfl⟩ | ⟨rfl, rfl, rfl, rfl⟩ | ⟨rfl, rfl, rfl, rfl⟩ |
      ⟨rfl, rfl, rfl, rfl⟩ <;> rfl
  rw [hexec]
  exact runAwl_setG hr rfl

/-- The condition of a comparison, by its number (R110). -/
theorem cmpCondition_of_mem {n : Nat} {f : Word → Word → Bool}
    (h : (n % 8, f) ∈ ([(0, fun x y => x == y), (1, fun x y => x != y), (2, fun x y => x.ult y), (3, fun x y => x.ule y),
      (4, fun x y => x.slt y), (5, fun x y => x.sle y)] : List (Nat × (Word → Word → Bool)))) (x y : Word) :
    cmpCondition n x y = some (f x y) := by
  simp only [List.mem_cons, Prod.mk.injEq, List.not_mem_nil, or_false] at h
  unfold cmpCondition
  rcases h with ⟨hn, rfl⟩ | ⟨hn, rfl⟩ | ⟨hn, rfl⟩ | ⟨hn, rfl⟩ | ⟨hn, rfl⟩ | ⟨hn, rfl⟩ <;> rw [hn] <;> rfl

/-- Settles O13, instruction by instruction: all but nop write D, and cmp sets F to its condition beside it. -/
theorem awlMovesAndCompares : Obligations.AwlMovesAndCompares := by
  intro s w h o p
  refine ⟨fun hr => ?nop, fun hr => ?movi, fun hr => ?movh, fun f hf hr => ?cmp, fun hr hb => ?hsh⟩
  case nop =>
    show execNop w o s = _
    exact runAwl_next hr rfl rfl
  case movi =>
    show ∃ t, execMovi w o s = .next t ∧ _
    exact runAwl_setG hr rfl
  case movh =>
    show ∃ t, execMovh w o s = .next t ∧ _
    exact runAwl_setG hr rfl
  case cmp =>
    have hcond := cmpCondition_of_mem hf ((s.awl w).g o.a) ((s.awl w).second o)
    show ∃ t b, execCmp w o s = .next t ∧ _
    refine ⟨_, _, runAwl_next hr (congrArg (Option.map _) hcond) (setG_cycles ..), onlyAwl_setAwl .., rfl, ?_, ?_⟩
    · rw [awl_setAwl_same]
      exact awlNext_setG_takes ..
    · rw [awl_setAwl_same, Awl.setCompare, setG_eq]
      rfl
  case hsh =>
    show ∃ t, execHsh w o s = .next t ∧ _
    exact runAwl_setG hr (if_neg (Nat.not_lt.mpr hb))

end Sys2Proof.Proofs
end

section
/-! Window and metadata instructions within their bounds (R105, R106, R110, R112). -/

namespace Sys2Proof.Proofs
open Sys2Proof Sys2Proof.Machine Sys2Proof.Laws

/-- A window field that ends within 256 bytes, by its first bit and its width (R110). -/
theorem windowField_of_le {a : Awl} {o : AwlOp} {b n : Nat}
    (hb : b = 8 * (a.g o.a + (o.imm.truncate 16).zeroExtend 64).toNat + (o.imm.extractLsb' 16 3).toNat)
    (hn : n = o.x.toNat % 64 + 1) (h : b + n ≤ 2048) : a.windowField o = some (b, n) := by
  subst hb hn
  exact if_neg (Nat.not_lt.mpr h)

/-- Bytes that fit are inserted (R112). -/
theorem insertBytes_of_le {a : Awl} {off : Nat} {bs : List Byte} (ho : off ≤ a.window.length)
    (hb : a.window.length + bs.length ≤ 256) :
    a.insertBytes off bs = some { a with
      window := a.window.take off ++ bs ++ a.window.drop off
      effects := a.effects.map (shiftInBand off bs.length true) } :=
  if_neg (by omega)

/-- Bytes of the window are deleted (R112). -/
theorem deleteBytes_of_le {a : Awl} {off n : Nat} (h : off + n ≤ a.window.length) :
    a.deleteBytes off n = some { a with
      window := a.window.take off ++ a.window.drop (off + n)
      effects := a.effects.map (shiftInBand off n false) } :=
  if_neg (by omega)

/-- Settles O14, instruction by instruction: within its bounds each body answers. -/
theorem awlWindowAndMetadata : Obligations.AwlWindowAndMetadata := by
  rintro s w h o p a at_ b n size rfl rfl rfl hb hn
  refine ⟨fun hr h => ?hex, fun hr h hw => ?hin, fun hr h => ?mld, fun hr h32 h => ?mst, fun hr h hw => ?hins, fun hr h => ?hdel⟩
  case hex =>
    show ∃ t, execHex w o s = .next t ∧ _
    exact runAwl_setG hr (congrArg (Option.map _) (windowField_of_le (a := s.awlNext w 1) hb hn h))
  case hin =>
    show execHin w o s = _
    have hfield : (s.awlNext w 1).windowField o = some (b, n) := windowField_of_le hb hn h
    refine runAwl_next hr ?_ rfl
    simp only [hfield]
    exact if_neg (Nat.not_lt.mpr hw)
  case mld =>
    show ∃ t, execMld w o s = .next t ∧ _
    exact runAwl_setG hr (if_neg (Nat.not_lt.mpr h))
  case mst =>
    show execMst w o s = _
    exact runAwl_next hr (if_neg (not_or.mpr ⟨Nat.not_lt.mpr h32, Nat.not_lt.mpr h⟩)) rfl
  case hins =>
    subst hn
    show execHins w o s = _
    have hins := insertBytes_of_le (a := s.awlNext w 2) (bs := List.replicate (o.x.toNat % 64 + 1) 0#8) h
      (by rwa [List.length_replicate])
    rw [List.length_replicate] at hins
    exact runAwl_next hr (congrArg (Option.map _) hins) rfl
  case hdel =>
    subst hn
    show execHdel w o s = _
    exact runAwl_next hr (congrArg (Option.map _) (deleteBytes_of_le (a := s.awlNext w 2) h)) rfl

end Sys2Proof.Proofs
end

section
/-! Jumps, calls and the time read of an awl (R110, R112). -/

namespace Sys2Proof.Proofs
open Sys2Proof Sys2Proof.Machine Sys2Proof.Laws

/-- A conditional jump goes to its target for a clock more, or on to the next instruction (R110). -/
theorem runAwl_jump {s : State} {w h : Nat} {o : AwlOp} {p : Packet} {op : BitVec 8} {u : Uses} {b : Bool} {target : Nat}
    {body : State → Packet → Awl → AwlStep} (hr : s.awlReady w op o u (if b then 2 else 1) h p)
    (hbody : body s p (s.awlNext w 1) = jumpStep b target 1 s (s.awlNext w 1)) :
    s.runAwl op u w o 1 body = .next (s.setAwl w (if b then { s.awlNext w 2 with pc := target } else s.awlNext w 1)) := by
  cases b with
  | false => exact runAwl_next hr hbody rfl
  | true => exact runAwl_next hr hbody rfl

/-- Settles O18: the jumps by whether they are taken, the rest instruction by instruction. -/
theorem awlJumpsAndTime : Obligations.AwlJumpsAndTime := by
  rintro s w h o p a rfl
  refine ⟨fun hr => ?br, fun c op u b hmem hr => ?branch, fun hr => ?call, fun hr ht => ?jr, fun hr hx => ?tsr⟩
  case br =>
    show execBr w o s = _
    exact runAwl_next hr rfl rfl
  case branch =>
    simp only [List.mem_cons, Prod.mk.injEq, List.not_mem_nil, or_false] at hmem
    rcases hmem with ⟨rfl, rfl, rfl, rfl⟩ | ⟨rfl, rfl, rfl, rfl⟩ | ⟨rfl, rfl, rfl, rfl⟩ | ⟨rfl, rfl, rfl, rfl⟩
    · show execBz w o s = _
      exact runAwl_jump hr rfl
    · show execBnz w o s = _
      exact runAwl_jump hr rfl
    · show execBf w o s = _
      exact runAwl_jump hr rfl
    · show execBnf w o s = _
      exact runAwl_jump hr rfl
  case call =>
    show ∃ t, execCall w o s = .next t ∧ _
    refine ⟨_, runAwl_next hr rfl (setG_cycles ..), onlyAwl_setAwl .., ?_, ?_⟩
    · rw [awl_setAwl_same]
      exact awlNext_setG_takes s w 2 o.d (BitVec.ofNat 64 ((s.awl w).pc + 1))
    · rw [awl_setAwl_same, setG_eq]
      rfl
  case jr =>
    show execJr w o s = _
    exact runAwl_next hr (if_neg (Nat.not_le.mpr ht)) rfl
  case tsr =>
    show ∃ t, execTsr w o s = .next t ∧ _
    refine runAwl_setG hr ?_
    split
    · rfl
    · exact if_neg (Nat.not_lt.mpr hx)

end Sys2Proof.Proofs
end

section
/-! Copies, copy lists, drops, splits and survey insertion (R83, R110, R117, R120, R125, R177). -/

namespace Sys2Proof.Proofs
open Sys2Proof Sys2Proof.Machine Sys2Proof.Laws

/-- An effect is added while the list has room (R83). -/
theorem addEffect_of_lt {a : Awl} (e : Effect) (h : a.effects.length < 64) : a.addEffect e = some { a with effects := a.effects ++ [e] } :=
  if_neg (Nat.not_le.mpr h)

/-- Copies to present queues, all within the limit, are refused for neither reason (R112). -/
theorem addCopies_allowed {a : Awl} {s : State} {cs : List CopySpec} (hq : ∀ c ∈ cs, c.queue < 4128 ∧ s.queuePresent c.queue = true)
    (hl : a.copies.length + cs.length ≤ 64) :
    ¬ ((cs.all fun c => decide (c.queue < 4128) && s.queuePresent c.queue) = false ∨ 64 < a.copies.length + cs.length) := by
  have hall : (cs.all fun c => decide (c.queue < 4128) && s.queuePresent c.queue) = true := by simpa using hq
  simp [hall, hl]

/-- The first copy of a packet is no replication (R110). -/
theorem addCopies_first {a : Awl} {s : State} {c : CopySpec} (ha : a.copies = []) (hc : c.queue < 4128)
    (hq : s.queuePresent c.queue = true) : a.addCopies s [c] = some { a with copies := [c] } := by
  unfold Awl.addCopies
  rw [if_neg (addCopies_allowed (by simpa using ⟨hc, hq⟩) (by simp [ha]))]
  simp [ha]

/-- Copies beyond the first are replication, one effect for the instruction (R83, R110). -/
theorem addCopies_more {a : Awl} {s : State} {cs : List CopySpec} (hq : ∀ c ∈ cs, c.queue < 4128 ∧ s.queuePresent c.queue = true)
    (hl : a.copies.length + cs.length ≤ 64) (hcs : cs ≠ []) (h1 : 1 < a.copies.length + cs.length) (he : a.effects.length < 64) :
    a.addCopies s cs = some { a with copies := a.copies ++ cs, effects := a.effects ++ [.replicate] } := by
  unfold Awl.addCopies
  rw [if_neg (addCopies_allowed hq hl)]
  exact (if_pos ⟨hcs, by simpa using h1⟩).trans (addEffect_of_lt _ he)

/-- A split of a window without an R-TAG, before any other copy (R120, R177). -/
theorem split_untagged {a : Awl} {s : State} {p : Packet} {fn qa qb : Nat} (ht : hasRtag p.rtag a.window = false)
    (hw : afterTags a.window ≤ a.window.length) (hl : a.window.length + 6 ≤ 256) (ha : a.copies = []) (he : a.effects.length < 64)
    (hq : ∀ q, q = qa ∨ q = qb → q < 4128 ∧ s.queuePresent q = true) :
    a.split s p fn qa qb = some { a with
      window := a.window.take (afterTags a.window) ++ (beBytes 2 p.rtag ++ beBytes 4 0) ++ a.window.drop (afterTags a.window)
      splitFn := some fn
      copies := [⟨qa, false, false⟩, ⟨qb, false, false⟩]
      effects := a.effects.map (shiftInBand (afterTags a.window) 6 true) ++ [.replicate] } := by
  have htag : (beBytes 2 p.rtag ++ beBytes 4 0).length = 6 := rfl
  have hins := insertBytes_of_le hw (htag ▸ hl)
  unfold Awl.split
  rw [ht, hins, htag]
  exact (addCopies_more (cs := [⟨qa, false, false⟩, ⟨qb, false, false⟩]) (by simpa using ⟨hq qa (.inl rfl), hq qb (.inr rfl)⟩)
    (by simp [ha]) (by simp) (by simp) (by simpa using he)).trans (by simp [ha])

/-- Clocks that come to an instruction's own are counted with them (R85). -/
theorem awlNext_add (s : State) (w k n : Nat) :
    s.awlNext w (k + n) = { s.awlNext w k with cycles := (s.awlNext w k).cycles + n } := by
  simp only [State.awlNext, Nat.add_assoc]

/-- Settles O17, instruction by instruction: the body of each answers, as the lemmas about its operation say. -/
theorem awlCopies : Obligations.AwlCopies := by
  rintro s w h o p a at_ rfl rfl
  refine ⟨fun hr h hq hc => ?fwdFirst, fun hr h hq hc hl he => ?fwdMore, fun hr h hq hc => ?mir,
    fun cs hr h hcs hq hl hne h1 he => ?rep, fun hr => ?drop, fun hr ht hw hl hc he hq => ?spl, fun hr ho hl he => ?svi⟩
  case fwdFirst =>
    show execFwd w o s = _
    exact runAwl_next hr (congrArg (Option.map _) (addCopies_first (a := s.awlNext w 1) hc h hq)) rfl
  case fwdMore =>
    show execFwd w o s = _
    have hpos : 0 < (s.awl w).copies.length := List.length_pos_iff.mpr hc
    have hadd := addCopies_more (a := s.awlNext w 1) (s := s) (cs := [⟨(s.awl w).address o, o.x.getLsbD 0, false⟩])
      (by simpa using ⟨h, hq⟩) hl (List.cons_ne_nil _ _) (Nat.succ_lt_succ hpos) he
    exact runAwl_next hr (congrArg (Option.map _) hadd) rfl
  case mir =>
    show execMir w o s = _
    exact runAwl_next hr (congrArg (Option.map _) (addCopies_first (a := s.awlNext w 1) hc h hq)) rfl
  case rep =>
    subst hcs
    show execRep w o s = _
    have hadd := addCopies_more (a := s.awlNext w 2) hq hl hne h1 he
    rw [awlNext_add]
    exact runAwl_next hr ((if_neg (Nat.not_le.mpr h)).trans (congrArg (Option.map _) hadd)) (Nat.add_assoc ..)
  case drop =>
    show execDrop w o s = _
    exact runAwl_next hr rfl rfl
  case spl =>
    show execSpl w o s = _
    exact runAwl_next hr (congrArg (Option.map _) (split_untagged (a := s.awlNext w 2) ht hw hl hc he hq)) rfl
  case svi =>
    show execSvi w o s = _
    have hins := insertBytes_of_le (a := s.awlNext w 2) (bs := List.replicate 64 0#8) ho (by rwa [List.length_replicate])
    refine runAwl_next hr ((congrArg (Option.bind · _) hins).trans (congrArg (Option.map _) (addEffect_of_lt _ ?_))) rfl
    rwa [List.length_map]

end Sys2Proof.Proofs
end

section
/-! Scratch accesses and table reads of an awl (R85, R107, R110, R111, R113, R114, R116). -/

namespace Sys2Proof.Proofs
open Sys2Proof Sys2Proof.Machine Sys2Proof.Laws

/-- An aligned access within scratch goes to its address (R107). -/
theorem scratchAddress_of_aligned {a : Awl} {o : AwlOp} {n : Nat} (hl : a.address o + n ≤ 262144) (hn : a.address o % n = 0) :
    a.scratchAddress o n = some (a.address o) :=
  if_neg (not_or.mpr ⟨Nat.not_lt.mpr hl, fun hne => hne hn⟩)

/-- A table read takes at least one rig clock (R111). -/
theorem tableStall_pos (s : State) {typical : Nat} (h : 0 < typical) : 0 < (s.tableStall typical).2 := by
  have := Nat.mod_lt (Config.freeNat s.draws) h
  simp only [State.tableStall]
  omega

/-- Marking an entry draws nothing (R114). -/
theorem xmTouch_draws (s : State) (t key : Nat) : (s.xmTouch t key).draws = s.draws := by
  unfold State.xmTouch
  split
  · split <;> rfl
  · rfl

/-- Clocks counted after a register write may be counted before it. -/
theorem setG_withCycles (s : State) (w n : Nat) (d : BitVec 5) (v : Word) :
    { (s.awlNext w 0).setG d v with cycles := (s.awl w).cycles + n } = (s.awlNext w n).setG d v := by
  unfold Awl.setG
  split <;> rfl

/-- A lookup writes D with the data, or 0 on a miss, and F with whether it hit (R110). -/
theorem setLookup_eq (a : Awl) (d : BitVec 5) (hit : Option Nat) :
    a.setLookup d hit = { a.setG d (BitVec.ofNat 64 (hit.getD 0)) with flag := hit.isSome } := by
  cases hit <;> rfl

/-- The awl after a lookup whose clocks are counted last. -/
theorem setLookup_withCycles (s : State) (w n : Nat) (d : BitVec 5) (hit : Option Nat) :
    { (s.awlNext w 0).setLookup d hit with cycles := ((s.awlNext w 0).setLookup d hit).cycles + n } =
      { (s.awlNext w n).setG d (BitVec.ofNat 64 (hit.getD 0)) with flag := hit.isSome } := by
  rw [setLookup_eq]
  unfold Awl.setG
  split <;> rfl

/-- The 320-bit key of a ternary lookup: g[A] to g[A + 4], the lowest first (R110, R116). -/
def tcKey (a : Awl) (o : AwlOp) : Nat :=
  let part (i : Nat) : Nat := (a.g (o.a + BitVec.ofNat 5 i)).toNat * 2 ^ (64 * i)
  part 0 + part 1 + part 2 + part 3 + part 4

theorem tcKey_eq (a : Awl) (o : AwlOp) :
    tcKey a o = (a.g o.a).toNat + (a.g (o.a + 1)).toNat * 2 ^ 64 + (a.g (o.a + 2)).toNat * 2 ^ 128 +
      (a.g (o.a + 3)).toNat * 2 ^ 192 + (a.g (o.a + 4)).toNat * 2 ^ 256 := by
  simp [tcKey]

/-- Settles O15, instruction by instruction; a table read ends within the watchdog's limit or beyond it. -/
theorem awlScratchAndTables : Obligations.AwlScratchAndTables := by
  rintro s w h o p a at_ size rfl rfl rfl
  refine ⟨fun hr hl hn => ?sld, fun hr hl hn => ?sst, fun hr hl hn => ?sadd, fun key hr hkey => ?xlk, fun hr hk ha => ?tlk,
    fun hr hl => ?crd⟩
  case sld =>
    show ∃ t, execSld w o s = .next t ∧ _
    exact runAwl_setG hr (congrArg (Option.map _) (scratchAddress_of_aligned (a := s.awlNext w 2) hl hn))
  case sst =>
    show execSst w o s = _
    exact runAwl_next hr (congrArg (Option.map _) (scratchAddress_of_aligned (a := s.awlNext w 2) hl hn)) rfl
  case sadd =>
    show execSadd w o s = _
    exact runAwl_next hr (congrArg (Option.map _) (scratchAddress_of_aligned (a := s.awlNext w 3) hl hn)) (setG_cycles ..)
  case xlk =>
    show ∃ n, 0 < n ∧ execXlk w o s = _
    have hset := setLookup_withCycles s w (s.tableStall 40).2 o.d ((s.xmFind (o.imm.toNat % 64) key).map XmEntry.data)
    rw [Option.isSome_map] at hset
    exact ⟨_, tableStall_pos s (by decide), runAwl_stall hr
      ((congrArg (Option.map _) hkey).trans (congrArg (fun b => some (_, b)) hset)) (setG_cycles ..) (xmTouch_draws ..)⟩
  case tlk =>
    show ∃ n hit, 0 < n ∧ hit = _ ∧ execTlk w o s = _
    have hset := setLookup_withCycles s w (s.tableStall 56).2 o.d (s.tcLookup (o.imm.toNat % 16) (tcKey (s.awl w) o))
    exact ⟨_, _, tableStall_pos s (by decide), by rw [tcKey_eq], runAwl_stall hr
      ((if_neg (not_or.mpr ⟨hk, Nat.not_lt.mpr ha⟩)).trans (congrArg (fun b => some (_, b)) hset)) (setG_cycles ..) rfl⟩
  case crd =>
    show ∃ n, 0 < n ∧ execCrd w o s = _
    refine ⟨_, tableStall_pos s (typical := 36) (by decide), ?_⟩
    exact runAwl_stall hr ((if_neg (Nat.not_le.mpr hl)).trans (congrArg (fun b => some (_, b)) (setG_withCycles ..))) (setG_cycles ..) rfl

end Sys2Proof.Proofs
end

section
/-! Exact-match tables: inserts and deletes from the dictionary, and age sweeps (R113 to R115). -/

namespace Sys2Proof.Proofs
open Sys2Proof Sys2Proof.Machine Sys2Proof.Laws

section
/-! ### Records of little-endian fields -/

@[simp] theorem length_leBytes (n v : Nat) : (leBytes n v).length = n := by
  induction n generalizing v with
  | zero => rfl
  | succ n ih => simp [leBytes, ih]

/-- The low bytes of a number spell what is below their range. -/
theorem leNat_leBytes (n v : Nat) : leNat (leBytes n v) = v % 256 ^ n := by
  induction n generalizing v with
  | zero => simp [leBytes, leNat, Nat.mod_one]
  | succ n ih => simp [leBytes, leNat, ih, Nat.pow_succ', Nat.mod_mul]

/-- A part that stands in a list is read whole. -/
theorem slice_append (xs ys zs : List Byte) : slice (xs ++ ys ++ zs) xs.length ys.length = ys := by
  simp [slice]

/-- A field of a record reads the bytes that were put there. -/
theorem leField_append (xs zs : List Byte) {i : Nat} (n v : Nat) (hi : xs.length = i) :
    leField (xs ++ leBytes n v ++ zs) i n = v % 256 ^ n := by
  have h := slice_append xs (leBytes n v) zs
  rw [length_leBytes, hi] at h
  rw [leField, h, leNat_leBytes]

end

section
/-! ### Records of exact-match tables (R114) -/

/-- The record of a dictionary insert or delete: key, data, and the operation in the lowest of 8 bytes (R114). -/
def xmWrite (key data op : Nat) : List Byte := leBytes 16 key ++ leBytes 8 data ++ leBytes 8 op

variable {key data op : Nat}

theorem length_xmWrite : (xmWrite key data op).length = 32 := by simp [xmWrite]

theorem leField_xmWrite_key (hk : key < 2 ^ 128) : leField (xmWrite key data op) 0 16 = key := by
  have h := leField_append [] (leBytes 8 data ++ leBytes 8 op) 16 key rfl
  rw [List.nil_append, ← List.append_assoc, Nat.mod_eq_of_lt (by omega)] at h
  exact h

theorem leField_xmWrite_data (hd : data < 2 ^ 64) : leField (xmWrite key data op) 16 8 = data := by
  have h := leField_append (leBytes 16 key) (leBytes 8 op) 8 data (length_leBytes ..)
  rw [Nat.mod_eq_of_lt (by omega)] at h
  exact h

theorem leField_xmWrite_op (ho : op < 256) : leField (xmWrite key data op) 24 1 = op := by
  have h := leField_append (leBytes 16 key ++ leBytes 8 data) (leBytes 7 (op / 256)) (i := 24) 1 op (by simp)
  rw [List.append_assoc _ (leBytes 1 op), Nat.mod_eq_of_lt (by omega)] at h
  exact h

/-- The 7 bytes above the operation are 0 (R506). -/
theorem leField_xmWrite_reserved (ho : op < 256) : leField (xmWrite key data op) 25 7 = 0 := by
  have h := leField_append (leBytes 16 key ++ leBytes 8 data ++ leBytes 1 op) [] (i := 25) 7 (op / 256) (by simp)
  rw [List.append_nil, List.append_assoc _ (leBytes 1 op), Nat.div_eq_of_lt ho] at h
  rw [xmWrite, show leBytes 8 op = leBytes 1 op ++ leBytes 7 (op / 256) from rfl, Nat.div_eq_of_lt ho]
  exact h

variable {s : State} {t : Nat}

/-- An insert from the dictionary, outside a reset of its island (R31, R114). -/
theorem writeXmRecord_insert (hk : key < 2 ^ 128) (hd : data < 2 ^ 64) (hr : s.inReset 49 = false) :
    s.writeXmRecord t (xmWrite key data 0) =
      if s.xmBits t = 0 ∨ s.xmFits t key = false then (s, Abort.tableFull) else (s.xmPut t key data, 0) := by
  simp [State.writeXmRecord, length_xmWrite, leField_xmWrite_key hk, leField_xmWrite_data hd, leField_xmWrite_op,
    leField_xmWrite_reserved, State.recordWrite, hr]

/-- A delete from the dictionary, outside a reset of its island (R31, R114). -/
theorem writeXmRecord_delete (hk : key < 2 ^ 128) (hr : s.inReset 49 = false) :
    s.writeXmRecord t (xmWrite key data 1) = (s.xmRemove t key, 0) := by
  simp [State.writeXmRecord, length_xmWrite, leField_xmWrite_key hk, leField_xmWrite_op, leField_xmWrite_reserved,
    State.recordWrite, hr]

end

section
/-! ### Entries (R113, R114) -/

variable {s : State} {t key : Nat}

/-- What a key finds in a table that was written. -/
theorem xmFind_setXm (x : XmTable) (k : Nat) : (s.setXm t x).xmFind t k = tget x.entries (s.xmKey t k) := by
  rw [State.xmFind, xmTable_setXm_same]
  rfl

/-- A key that is present, or a table with room, takes a write (R114). -/
theorem xmFits_of_room (hb : s.xmBits t ≠ 0)
    (h : s.xmFind t key ≠ none ∨ (s.xmTable t).entries.length < s.reg Ix.xmCapacity (t + 1)) : s.xmFits t key = true := by
  simpa [State.xmFits, State.xmCapacity, hb, Option.isSome_iff_ne_none] using h

/-- A write that a table takes enters its key, and leaves every other entry (R114). -/
theorem xmPut_of_fits (data : Nat) (hb : s.xmBits t ≠ 0) (hf : s.xmFits t key = true) :
    s.xmPut t key data = s.setXm t { s.xmTable t with
      entries := tset (s.xmTable t).entries (s.xmKey t key) { data := data, marked := s.xmMarks t, wroteAt := s.rawTotal } } :=
  if_pos ⟨hb, hf⟩

end

section
/-! ### Sweeps (R114, R115) -/

variable (s : State) (t t0 : Nat)

/-- Table `t` swept, its ageing counted from `t0` on (R114). -/
def sweptFrom : State := (s.setXm t { s.xmTable t with t0 := t0 }).xmSweep t

/-- A sweep keeps what is marked or may not age, and clears every mark but those of the same raw time. -/
theorem sweptFrom_entries : ((sweptFrom s t t0).xmTable t).entries =
    ((s.xmTable t).entries.filter fun e => e.2.marked || bit e.2.data 63).map
      fun e => (e.1, { e.2 with marked := e.2.marked && decide (e.2.wroteAt = s.rawTotal) }) := by
  simp only [sweptFrom, State.xmSweep, State.count, xmTable_setReg, xmTable_setXm_same]
  rfl

theorem sweptFrom_t0 : ((sweptFrom s t t0).xmTable t).t0 = t0 := by
  simp [sweptFrom, State.xmSweep, State.count]

/-- A sweep counts what it removes. -/
theorem sweptFrom_aged : (sweptFrom s t t0).reg Ix.xmAged (t + 1) = (s.reg Ix.xmAged (t + 1) +
    ((s.xmTable t).entries.filter fun e => !(e.2.marked || bit e.2.data 63)).length) % 18446744073709551616 := by
  unfold sweptFrom State.xmSweep
  rw [reg_count_same, wrapAdd_64, setXm_reg, setXm_reg, xmTable_setXm_same]

theorem sweptFrom_table_ne {j : Nat} (h : j ≠ t) : (sweptFrom s t t0).xmTable j = s.xmTable j :=
  (xmTable_setXm_ne _ t _ h).trans (xmTable_setXm_ne s t _ h)

theorem regsBut_sweptFrom : s.regsBut (sweptFrom s t t0) [dictKey Ix.xmAged (t + 1)] :=
  regsBut_setReg _ (regsBut_of_reg_eq _ fun _ _ => rfl) (List.mem_singleton_self _)

variable {s t}

/-- A sweep that is due takes place, and the next is a period later (R114). -/
theorem exec_xmAgeSweep_of_due (ht : t < 64) (hage : 0 < s.reg Ix.xmAgeTime (t + 1))
    (hdue : (s.xmTable t).t0 + s.reg Ix.xmAgeTime (t + 1) * 65536000000000 ≤ s.rawTotal) :
    exec (.xmAgeSweep t) s = .next (sweptFrom s t ((s.xmTable t).t0 + s.reg Ix.xmAgeTime (t + 1) * 65536000000000)) := by
  have hsweep : s.sweepDue t = true := by simp [State.sweepDue, State.second, hage, hdue]
  show execXmAgeSweep t s = _
  rw [execXmAgeSweep, if_neg (Nat.not_le.mpr ht), if_neg (by simp [hsweep])]
  rfl

end

/-- Settles O24: an insert and a delete are one write of the table's entries, and a sweep writes the table and its count. -/
theorem exactMatchTable : Obligations.ExactMatchTable := by
  refine ⟨?insert, ?delete, ?sweep⟩
  case insert =>
    rintro s t key data record ht - rfl hk hd hr hb hroom
    have hfits := xmFits_of_room hb hroom
    refine ⟨(s.xmPut t key data).reply { abort := 0 }, ?_, rfl, ?_⟩
    · show execXmInsert t (xmWrite key data 0) s = _
      rw [execXmInsert, if_neg (Nat.not_le.mpr ht), leField_xmWrite_op (by decide), if_neg (by decide),
        writeXmRecord_insert hk hd hr, if_neg (by simp [hb, hfits])]
      rfl
    · rw [xmPut_of_fits data hb hfits]
      refine ⟨?_, fun k hne => ?_, fun j hj => xmTable_setXm_ne _ _ _ hj, fun _ _ => rfl⟩
      · exact (xmFind_setXm _ key).trans (tget_tset_same ..)
      · exact (xmFind_setXm _ k).trans (tget_tset_ne _ _ hne)
  case delete =>
    rintro s t key data record ht rfl hk hd hr
    refine ⟨(s.xmRemove t key).reply { abort := 0 }, ?_, rfl, ?_, fun k hne => ?_,
      fun j hj => xmTable_setXm_ne _ _ _ hj, fun _ _ => rfl⟩
    · show execXmDelete t (xmWrite key data 1) s = _
      rw [execXmDelete, if_neg (Nat.not_le.mpr ht), leField_xmWrite_op (by decide), if_neg (by decide),
        writeXmRecord_delete hk hr]
      rfl
    · exact (xmFind_setXm _ key).trans (tget_terase_same ..)
    · exact (xmFind_setXm _ k).trans (tget_terase_ne _ hne)
  case sweep =>
    exact fun s t ht hage hdue => ⟨_, exec_xmAgeSweep_of_due ht hage hdue, sweptFrom_entries .., sweptFrom_t0 .., sweptFrom_aged ..,
      fun j hj => sweptFrom_table_ne _ _ _ hj, regsBut_sweptFrom _ _ _⟩

end Sys2Proof.Proofs
end

section
/-! Loading programs and the end of their check (R128, R172). -/

namespace Sys2Proof.Proofs
open Sys2Proof Sys2Proof.Machine Sys2Proof.Laws

section
variable {s : State}

/-- A check begins where none is in progress and no switch is (R128). -/
theorem startLoad_begins (x : Programs) (h1 : s.reg Ix.programStatus 0 ≠ 1) (h3 : s.reg Ix.programStatus 0 ≠ 3) :
    ∃ t : State, (s.startLoad x).out = .next t ∧ t.answer.abort = 0 ∧ t.reg Ix.programStatus 0 = 1 ∧ t.rg.progs = x ∧
      s.regsBut t [dictKey Ix.programStatus 0] := by
  have hidle : s.startLoad x = ((s.setProgs x).setReg Ix.programStatus 0 1, 0) := if_neg (not_or.mpr ⟨h1, h3⟩)
  rw [hidle]
  refine ⟨_, rfl, rfl, ?_, rfl, ?_⟩
  · exact (reply_reg ..).trans (reg_setReg_same ..)
  · exact regsBut_reply _ (regsBut_setReg _ (regsBut_of_reg_eq (t := s.setProgs x) _ fun _ _ => rfl) (List.mem_singleton_self _))

/-- While a check or a switch is under way, a request aborts with "busy" (R128). -/
theorem startLoad_busy (x : Programs) (h : s.reg Ix.programStatus 0 = 1 ∨ s.reg Ix.programStatus 0 = 3) :
    (s.startLoad x).out = .next (s.reply { abort := 0x0401 }) :=
  congrArg Wr.out (if_pos h)

/-- A request to load a program starts with a copy of the staged image (R128). -/
theorem exec_programLoad (s : State) : exec .programLoad s = (s.startLoad { s.rg.progs with
    checking := some (s.tableBytes Ix.programStage (max (min (leNat ((s.tableBytes Ix.programStage 12).drop 8)) 147456) 64))
    checkingDefault := none }).out :=
  rfl

/-- A request for the default bridge starts with the methods as they stand (R128, R172). -/
theorem exec_programDefault (s : State) : exec .programDefault s =
    (s.startLoad { s.rg.progs with checking := none, checkingDefault := some (s.reg Ix.streamIdMethods 0) }).out :=
  rfl

/-- A write of one object's only element leaves those of every other. -/
theorem reg_setReg_of_object_ne (s : State) {i ix : Nat} (v : Nat) (h : ix ≠ i) : (s.setReg i 0 v).reg ix 0 = s.reg ix 0 :=
  reg_setReg_of_index_ne s v h (by decide) (by decide)

/-- A check that succeeds makes its program pending (R128). -/
theorem loaded_spec (p : Program) :
    (s.loaded p).reg Ix.programStatus 0 = 2 ∧ (s.loaded p).reg Ix.programPendingDigest 0 = leNat p.digest ∧
      (s.loaded p).rg.progs = { s.rg.progs with pending := some p, checking := none, checkingDefault := none } ∧
      s.regsBut (s.loaded p) [dictKey Ix.programStatus 0, dictKey Ix.programPendingDigest 0] := by
  refine ⟨reg_setReg_same .., ?_, rfl, ?_⟩
  · exact (reg_setReg_of_object_ne _ _ (by decide)).trans (reg_setReg_same ..)
  · exact regsBut_setReg _ (regsBut_setReg _ (regsBut_of_reg_eq _ fun _ _ => rfl) (by simp)) (by simp)

/-- A check that fails leaves no program pending and keeps its cause and offset (R128). -/
theorem rejected_spec (cause off : Nat) :
    (s.rejected cause off).reg Ix.programStatus 0 = 4 ∧ (s.rejected cause off).reg Ix.programRejectCause 0 = cause ∧
      (s.rejected cause off).reg Ix.programRejectAt 0 = off ∧ (s.rejected cause off).reg Ix.programPendingDigest 0 = 0 ∧
      (s.rejected cause off).rg.progs.pending = none ∧
      s.regsBut (s.rejected cause off) [dictKey Ix.programStatus 0, dictKey Ix.programPendingDigest 0,
        dictKey Ix.programRejectCause 0, dictKey Ix.programRejectAt 0] := by
  refine ⟨?_, ?_, reg_setReg_same .., ?_, rfl, ?_⟩
  · rw [State.rejected, reg_setReg_of_object_ne _ _ (by decide), reg_setReg_of_object_ne _ _ (by decide), reg_setReg_same]
  · rw [State.rejected, reg_setReg_of_object_ne _ _ (by decide), reg_setReg_same]
  · rw [State.rejected, reg_setReg_of_object_ne _ _ (by decide), reg_setReg_of_object_ne _ _ (by decide),
      reg_setReg_of_object_ne _ _ (by decide), reg_setReg_same]
  · exact regsBut_setReg _ (regsBut_setReg _ (regsBut_setReg _ (regsBut_setReg _ (regsBut_of_reg_eq _ fun _ _ => rfl)
      (by simp)) (by simp)) (by simp)) (by simp)

end

/-- Settles O25: a request starts a check or is busy, and the check ends with the program pending or rejected. -/
theorem programLoading : Obligations.ProgramLoading := by
  refine ⟨fun s h1 h3 => ?load, fun s h1 h3 => ?default, fun s h => ?busy, fun s im hc hf => ?loaded,
    fun s im cause off hc hf => ?rejected⟩
  case load =>
    rw [exec_programLoad]
    obtain ⟨t, hout, habort, hstatus, hprogs, hregs⟩ := startLoad_begins _ h1 h3
    exact ⟨t, hout, habort, hstatus, by rw [hprogs], by rw [hprogs], hregs⟩
  case default =>
    rw [exec_programDefault]
    obtain ⟨t, hout, habort, hstatus, hprogs, hregs⟩ := startLoad_begins _ h1 h3
    exact ⟨t, hout, habort, hstatus, by rw [hprogs], by rw [hprogs], hregs⟩
  case busy => exact ⟨(exec_programLoad s).trans (startLoad_busy _ h), (exec_programDefault s).trans (startLoad_busy _ h)⟩
  case loaded =>
    refine ⟨_, ?_, loaded_spec (State.programOfImage im)⟩
    show execProgramCheckDone s = _
    simp only [execProgramCheckDone, hc, hf]
  case rejected =>
    refine ⟨_, ?_, rejected_spec cause off⟩
    show execProgramCheckDone s = _
    simp only [execProgramCheckDone, hc, hf]

end Sys2Proof.Proofs
end

section
/-! Gates that move to what their plan shows: what settling, hold and overruns leave (R141, R142, R147, R150, R157). -/

namespace Sys2Proof.Proofs
open Sys2Proof Sys2Proof.Machine Sys2Proof.Laws

/-- Gate `k` with the states its plan shows now (R141). -/
def shownGate (s : State) (k : Nat) : Gate :=
  { s.gate k with states := ((s.plan k).view (s.gateNs k)).states, occurrence := ((s.plan k).view (s.gateNs k)).occurrence }

/-- Port `p` with shapers `S` and the states its plan shows now (R141). -/
def shownPort (s : State) (p : Nat) (S : Tbl Shaper) : State :=
  ({ s with eg := { s.eg with shapers := S } } : State).setGate p (shownGate s p)

/-- Settling queues touches the shapers only (R152, R153). -/
theorem settleQueues_shapers (p : Nat) (cs : List Nat) (s : State) :
    ∃ S, cs.foldl (fun t c => t.settleQueue (8 * p + c)) s = { s with eg := { s.eg with shapers := S } } := by
  induction cs generalizing s with
  | nil => exact ⟨_, rfl⟩
  | cons c cs ih =>
    obtain ⟨S, h⟩ := ih (s.settleQueue (8 * p + c))
    exact ⟨S, h⟩

theorem settlePort_shapers (s : State) (p : Nat) : ∃ S, s.settlePort p = { s with eg := { s.eg with shapers := S } } :=
  settleQueues_shapers p (List.range 8) s

section
variable (s : State) (p : Nat)

/-- Hold lies in its gate and in the elements (R150). -/
theorem setHold_eq (h : Bool) :
    s.setHold p h = { s.setGate p { s.gate p with hold := h } with dict := (s.setHold p h).dict } := by
  unfold State.setHold
  dsimp only
  split <;> rfl

theorem setHold_frame (h : Bool) :
    s.setHold p h = { s with dict := (s.setHold p h).dict, eg := { s.eg with gates := (s.setHold p h).eg.gates } } := by
  rw [setHold_eq]
  rfl

theorem gate_setHold_same (h : Bool) : (s.setHold p h).gate p = { s.gate p with hold := h } :=
  (congrArg (State.gate · p) (setHold_eq s p h)).trans (gate_setGate_same s p _)

theorem gate_setHold_ne (h : Bool) {k : Nat} (hk : k ≠ p) : (s.setHold p h).gate k = s.gate k :=
  (congrArg (State.gate · k) (setHold_eq s p h)).trans (gate_setGate_ne s p _ hk)

/-- Hold is shown and counted, and no other element changes (R150). -/
theorem regsBut_setHold (h : Bool) : s.regsBut (s.setHold p h) [dictKey Ix.pmacHoldState (p + 1), dictKey Ix.pmacHoldCount (p + 1)] := by
  have hstate : s.regsBut ((s.setGate p { s.gate p with hold := h }).setReg Ix.pmacHoldState (p + 1) (ofBool h))
      [dictKey Ix.pmacHoldState (p + 1), dictKey Ix.pmacHoldCount (p + 1)] :=
    regsBut_setReg _ (regsBut_of_reg_eq _ fun _ _ => rfl) (by simp)
  unfold State.setHold
  dsimp only
  split
  · exact regsBut_setReg _ hstate (by simp)
  · exact hstate

/-- An overrun marks copies in transmission and counts in the elements (R147). -/
theorem countOverruns_eq : s.countOverruns p =
    { s with dict := (s.countOverruns p).dict, fr := { s.fr with tx := (s.countOverruns p).fr.tx } } := by
  unfold State.countOverruns
  dsimp only
  split <;> rfl

theorem gate_countOverruns (k : Nat) : (s.countOverruns p).gate k = s.gate k := by
  rw [countOverruns_eq]
  rfl

/-- Overruns are counted in one element (R147). -/
theorem regsBut_countOverruns : s.regsBut (s.countOverruns p) [dictKey Ix.gateOverrunCount (p + 1)] := by
  unfold State.countOverruns
  dsimp only
  split
  · exact regsBut_of_reg_eq _ fun _ _ => rfl
  · exact regsBut_setReg _ (regsBut_of_reg_eq _ fun _ _ => rfl) (by simp)

end

/-- A frame holds with more elements listed. -/
theorem regsBut_mono {s t : State} {keys more : List Nat} (h : s.regsBut t keys) (hk : keys ⊆ more) : s.regsBut t more :=
  fun ix sub hn => h ix sub fun hm => hn (hk hm)

section
variable {s : State} {k : Nat}

/-- A port's gate that is refreshed shows its plan, with the hold that goes with it (R141, R150). -/
theorem refreshGate_port (hk : k < 512) (landed : Bool) : ∃ S h, s.refreshGate k landed = (shownPort s k S).setHold k h := by
  obtain ⟨S, hS⟩ := settlePort_shapers s k
  unfold State.refreshGate
  simp only [if_pos hk, hS]
  exact ⟨S, _, rfl⟩

/-- A stream gate that is refreshed shows its plan (R157). -/
theorem refreshGate_stream (hk : 512 ≤ k) (landed : Bool) : s.refreshGate k landed = s.setGate k (shownGate s k) := by
  unfold State.refreshGate
  simp only [if_neg (Nat.not_lt.mpr hk)]
  rfl

end

/-- The elements a move of port `p`'s gates may change: hold, its count and the count of overruns. -/
def gateMoveKeys (p : Nat) : List Nat :=
  [dictKey Ix.pmacHoldState (p + 1), dictKey Ix.pmacHoldCount (p + 1), dictKey Ix.gateOverrunCount (p + 1)]

/-- Port `p`'s gates move to what their plan shows, and overruns are counted (R141, R147). -/
def gateMoved (s : State) (p : Nat) : State := (s.refreshGate p false).countOverruns p

section
variable {s : State} {p : Nat}

/-- A move changes the states and hold of its port's gate, the port's shapers, marks of copies in transmission and three elements. -/
theorem gateMoved_spec (hp : p < 512) :
    (∃ h, (gateMoved s p).gate p = { shownGate s p with hold := h }) ∧
      (∀ k, k ≠ p → (gateMoved s p).gate k = s.gate k) ∧ s.regsBut (gateMoved s p) (gateMoveKeys p) ∧
      gateMoved s p = { s with dict := (gateMoved s p).dict, eg := (gateMoved s p).eg,
                               fr := { s.fr with tx := (gateMoved s p).fr.tx } } := by
  obtain ⟨S, h, hr⟩ := refreshGate_port (s := s) hp false
  have hshown : s.regsBut (shownPort s p S) (gateMoveKeys p) := regsBut_of_reg_eq _ fun _ _ => rfl
  have hheld : (shownPort s p S).regsBut ((shownPort s p S).setHold p h) (gateMoveKeys p) :=
    regsBut_mono (regsBut_setHold _ p h) (by simp [gateMoveKeys])
  have hcounted : ((shownPort s p S).setHold p h).regsBut (((shownPort s p S).setHold p h).countOverruns p) (gateMoveKeys p) :=
    regsBut_mono (regsBut_countOverruns _ p) (by simp [gateMoveKeys])
  unfold gateMoved
  rw [hr]
  refine ⟨⟨h, ?_⟩, fun k hk => ?_, regsBut_trans (regsBut_trans hshown hheld) hcounted, ?_⟩
  · rw [gate_countOverruns, gate_setHold_same, shownPort, gate_setGate_same]
  · rw [gate_countOverruns, gate_setHold_ne _ _ _ hk, shownPort, gate_setGate_ne _ _ _ hk]
    rfl
  · rw [countOverruns_eq, setHold_eq]
    rfl

/-- The elements a move changes are of three objects. -/
theorem not_mem_gateMoveKeys {ix : Nat} (hp : p < 512) (h : ix ∉ [Ix.pmacHoldState, Ix.pmacHoldCount, Ix.gateOverrunCount]) :
    dictKey ix (p + 1) ∉ gateMoveKeys p := by
  simp only [List.mem_cons, List.not_mem_nil, or_false, not_or] at h
  have hsub : p + 1 < 65536 := by omega
  obtain ⟨hstate, hcount, hoverrun⟩ := h
  simp only [gateMoveKeys, List.mem_cons, List.not_mem_nil, or_false, not_or]
  exact ⟨dictKey_ne_of_index_ne hsub hsub hstate, dictKey_ne_of_index_ne hsub hsub hcount, dictKey_ne_of_index_ne hsub hsub hoverrun⟩

theorem exec_gateEntryChange_due (hp : s.portPresent p = true) (hr : s.running (State.portIsland p) = true) (hd : s.entryDue p = true) :
    exec (.gateEntryChange p) s = .next (gateMoved s p) := by
  show execGateEntryChange p s = _
  simp only [execGateEntryChange, hp, hr, hd, Bool.true_eq_false, or_self, if_false]
  rfl

end

end Sys2Proof.Proofs
end

section
/-! The change time of a port's gate: the pending schedule becomes oper and is shown in the oper objects (R142). -/

namespace Sys2Proof.Proofs
open Sys2Proof Sys2Proof.Machine Sys2Proof.Laws

/-- A state with other TABLE records. -/
def withTabs (s : State) (T : Tbl Nat) : State := { s with tabs := T }

@[simp] theorem withTabs_reg (s : State) (T : Tbl Nat) (ix sub : Nat) : (withTabs s T).reg ix sub = s.reg ix sub := rfl

@[simp] theorem gate_withTabs (s : State) (T : Tbl Nat) (k : Nat) : (withTabs s T).gate k = s.gate k := rfl

/-- Record `r` of GATE_OPER_LIST takes the entry of schedule `x`. -/
def listOper (p : Nat) (x : Schedule) (t : State) (r : Nat) : State :=
  if r < x.entries.length ∨ t.record Ix.gateOperList (p + 1) r ≠ 0 then
    t.setRecord Ix.gateOperList (p + 1) r (x.entries.getD r 0) else t

theorem listOper_tabs (p : Nat) (x : Schedule) (t : State) (r : Nat) : ∃ T, listOper p x t r = withTabs t T := by
  unfold listOper
  split <;> exact ⟨_, rfl⟩

/-- The oper list touches the records only. -/
theorem listOpers_tabs (p : Nat) (x : Schedule) (rs : List Nat) (s : State) : ∃ T, rs.foldl (listOper p x) s = withTabs s T := by
  induction rs generalizing s with
  | nil => exact ⟨_, rfl⟩
  | cons r rs ih =>
    obtain ⟨T, h⟩ := listOper_tabs p x s r
    obtain ⟨T', h'⟩ := ih (listOper p x s r)
    exact ⟨T', by rw [List.foldl_cons, h', h]; rfl⟩

/-- The gate machine of port `p` with schedule `x` oper. -/
def operGate (s : State) (p : Nat) (x : Schedule) : Gate :=
  { s.gate p with
    oper := some x, pending := none, previous := (s.gate p).oper, changedAt := s.rawTotal, octets := []
    octetsBefore := (s.gate p).octets, occurrence := none }

/-- Schedule `x` of port `p` has become oper, and its objects show it; its list and the gate's states are still to come. -/
def madeOper (s : State) (p : Nat) (x : Schedule) : State :=
  (((((s.setGate p (operGate s p x)).setReg Ix.gateConfigStatus (p + 1) 2).setReg Ix.gateOperLength (p + 1) x.entries.length).setReg
    Ix.gateOperCycleTime (p + 1) x.cycle).setReg Ix.gateOperBaseTime (p + 1) (nsTime80 x.base)).countSat
    Ix.gateConfigChangeCount (p + 1) 1

section
variable {s : State} {p : Nat} {x : Schedule}

theorem changeGate_port (hp : p < 512) (hx : (s.gate p).pending = some x) :
    ∃ T, s.changeGate p = (withTabs (madeOper s p x) T).refreshGate p false := by
  obtain ⟨T, hT⟩ := listOpers_tabs p x (List.range 1024) (madeOper s p x)
  refine ⟨T, ?_⟩
  rw [← hT]
  unfold State.changeGate
  simp only [hx, if_pos hp, gateIx, gateSub]
  rfl

/-- The schedule that became oper stands in the gate (R142). -/
theorem madeOper_gate : (madeOper s p x).gate p = operGate s p x := by
  rw [madeOper, State.countSat, gate_setReg, gate_setReg, gate_setReg, gate_setReg, gate_setReg, gate_setGate_same]

/-- The oper objects show the schedule that became oper, and a change is counted (R142). -/
theorem madeOper_regs (hp : p < 512) :
    (madeOper s p x).reg Ix.gateConfigStatus (p + 1) = 2 ∧ (madeOper s p x).reg Ix.gateOperLength (p + 1) = x.entries.length ∧
      (madeOper s p x).reg Ix.gateOperCycleTime (p + 1) = x.cycle ∧
      (madeOper s p x).reg Ix.gateOperBaseTime (p + 1) = time80 ((x.base : Int) * 65536) ∧
      (madeOper s p x).reg Ix.gateConfigChangeCount (p + 1) = min (s.reg Ix.gateConfigChangeCount (p + 1) + 1) 0xFFFFFFFF := by
  have hsub : p + 1 < 65536 := by omega
  have hcount {ix : Nat} (t : State) (h : ix ≠ Ix.gateConfigChangeCount) :
      (t.countSat Ix.gateConfigChangeCount (p + 1) 1).reg ix (p + 1) = t.reg ix (p + 1) :=
    reg_countSat_of_index_ne t 1 h hsub hsub
  have hset {i ix : Nat} (t : State) (v : Nat) (h : ix ≠ i) : (t.setReg i (p + 1) v).reg ix (p + 1) = t.reg ix (p + 1) :=
    reg_setReg_of_index_ne t v h hsub hsub
  unfold madeOper
  refine ⟨?_, ?_, ?_, ?_, ?_⟩
  · rw [hcount _ (by decide), hset _ _ (by decide), hset _ _ (by decide), hset _ _ (by decide), reg_setReg_same]
  · rw [hcount _ (by decide), hset _ _ (by decide), hset _ _ (by decide), reg_setReg_same]
  · rw [hcount _ (by decide), hset _ _ (by decide), reg_setReg_same]
  · rw [hcount _ (by decide), reg_setReg_same, nsTime80]
  · rw [reg_countSat_same, satAdd_32, hset _ _ (by decide), hset _ _ (by decide), hset _ _ (by decide), hset _ _ (by decide),
      setGate_reg]

/-- The elements a change time may change: those that show the oper schedule, and those of a move. -/
def changeTimeKeys (p : Nat) : List Nat :=
  [dictKey Ix.gateConfigStatus (p + 1), dictKey Ix.gateOperLength (p + 1), dictKey Ix.gateOperCycleTime (p + 1),
    dictKey Ix.gateOperBaseTime (p + 1), dictKey Ix.gateConfigChangeCount (p + 1)] ++ gateMoveKeys p

theorem regsBut_madeOper : s.regsBut (madeOper s p x) (changeTimeKeys p) :=
  regsBut_setReg _ (regsBut_setReg _ (regsBut_setReg _ (regsBut_setReg _ (regsBut_setReg _
    (regsBut_of_reg_eq (t := s.setGate p (operGate s p x)) _ fun _ _ => rfl) (by simp [changeTimeKeys])) (by simp [changeTimeKeys]))
    (by simp [changeTimeKeys])) (by simp [changeTimeKeys])) (by simp [changeTimeKeys])

theorem exec_gateChangeTime_due (hp : s.portPresent p = true) (hr : s.running (State.portIsland p) = true)
    (hx : (s.gate p).pending = some x) (hd : ((s.gate p).change : Int) * 65536 ≤ s.gateSync p x.domain) :
    ∃ T, exec (.gateChangeTime p) s = .next (gateMoved (withTabs (madeOper s p x) T) p) := by
  obtain ⟨T, hT⟩ := changeGate_port (lt_of_portPresent hp) hx
  have hdue : s.changeDue p = true := by
    simp only [State.changeDue, hx]
    exact decide_eq_true hd
  refine ⟨T, ?_⟩
  show execGateChangeTime p s = _
  simp only [execGateChangeTime, hp, hr, hdue, hT, Bool.true_eq_false, or_self, if_false]
  rfl

end

end Sys2Proof.Proofs
end

section
/-! Hold ahead of its entry, stream gates and gate wakes (R31, R150, R157, R158, R165, R403, R404). -/

namespace Sys2Proof.Proofs
open Sys2Proof Sys2Proof.Machine Sys2Proof.Laws

section
variable {s : State} {p : Nat}

/-- Hold that becomes asserted is shown and counted (R150). -/
theorem setHold_asserted_regs (hp : p < 512) (hh : (s.gate p).hold = false) :
    (s.setHold p true).reg Ix.pmacHoldState (p + 1) = 1 ∧
      (s.setHold p true).reg Ix.pmacHoldCount (p + 1) = (s.reg Ix.pmacHoldCount (p + 1) + 1) % 18446744073709551616 := by
  have hsub : p + 1 < 65536 := by omega
  have heq : s.setHold p true = ((s.setGate p { s.gate p with hold := true }).setReg Ix.pmacHoldState (p + 1) 1).count
      Ix.pmacHoldCount (p + 1) 1 := by
    simp [State.setHold, hh, ofBool]
  rw [heq]
  constructor
  · rw [reg_count_ne _ _ _ _ _ _ (dictKey_ne_of_index_ne hsub hsub (by decide)), reg_setReg_same]
  · rw [reg_count_same, wrapAdd_64, reg_setReg_of_index_ne _ _ (by decide) hsub hsub, setGate_reg]

/-- With no preemptable copy in transmission, only hold changes ahead of its entry (R150). -/
theorem exec_pmacHoldAssert_ahead {d : Int} (hp : s.portPresent p = true) (hr : s.running (State.portIsland p) = true)
    (hh : (s.gate p).hold = false) (he : s.gateEnabled p = true) (ha : s.holdAhead p = some d) (hx : s.txCopy? (512 + p) = none) :
    exec (.pmacHoldAssert p) s = .next (s.setHold p true) := by
  have hx' : (s.setHold p true).txCopy? (512 + p) = none := (congrArg (State.txCopy? · (512 + p)) (setHold_eq s p true)).trans hx
  show execPmacHoldAssert p s = _
  simp only [execPmacHoldAssert, hp, hr, hh, he, ha, hx', Bool.true_eq_false, Bool.false_eq_true, or_self, if_false]

end

section
variable {s : State} {g : Nat}

theorem exec_streamGateEntryChange_due (hp : s.streamGatePresent g = true) (hr : s.running (gateIsland (512 + g)) = true)
    (hc : s.changeDue (512 + g) = false) (hd : s.entryDue (512 + g) = true) :
    exec (.streamGateEntryChange g) s = .next (s.setGate (512 + g) (shownGate s (512 + g))) := by
  show execStreamGateEntryChange g s = _
  simp only [execStreamGateEntryChange, hp, hr, hc, hd, refreshGate_stream (Nat.le_add_right 512 g), Bool.true_eq_false,
    Bool.false_eq_true, if_false, if_true]

/-- A pending store with room takes a write, in place or at its end (R19). -/
theorem pendWrite_of_room {i : Nat} (idx sub r v : Nat) (h : (s.island i).pend.length < 256) :
    ∃ x : Island, s.pendWrite i idx sub r v = (s.setIsland i x, 0) ∧ ∃ w ∈ x.pend, w.idx = idx ∧ w.sub = sub := by
  unfold State.pendWrite
  dsimp only
  split
  next hin =>
    obtain ⟨w, hw, hkey⟩ := List.any_eq_true.mp hin
    simp only [Bool.and_eq_true, beq_iff_eq] at hkey
    exact ⟨_, rfl, _, List.mem_map_of_mem hw, by simp [hkey]⟩
  next =>
    rw [if_neg (Nat.not_le.mpr h)]
    exact ⟨_, rfl, _, List.mem_append_right _ (List.mem_singleton_self _), rfl, rfl⟩

/-- A reopen whose island is in reset is held pending (R31, R158; that R31 holds for this write is the model's choice,
notes/assumptions/15.md). -/
theorem exec_streamGateReopen_in_reset (hp : s.streamGatePresent g = true) (hr : s.inReset (gateIsland (512 + g)) = true) :
    exec (.streamGateReopen g) s = (s.pendWrite (gateIsland (512 + g)) Ix.streamGateReopen (g + 1) 0 1).out := by
  show execStreamGateReopen g s = _
  simp only [execStreamGateReopen, State.recordWrite, hp, hr, Bool.true_eq_false, if_false, if_true]

/-- A reopen of an island that is not in reset clears the latches at once (R158). -/
theorem exec_streamGateReopen_at_once (hp : s.streamGatePresent g = true) (hr : s.inReset (gateIsland (512 + g)) = false) :
    exec (.streamGateReopen g) s =
      .next ((s.setGate (512 + g) { s.gate (512 + g) with latchClosed := false, latchOctets := false }).reply {}) := by
  show execStreamGateReopen g s = _
  simp only [execStreamGateReopen, State.recordWrite, hp, hr, Bool.true_eq_false, Bool.false_eq_true, if_false]
  rfl

end

/-- Lane `l` of a transmit direction that stops sleeping adds up its time asleep (R402). -/
def endLaneSleep (t : State) (l : Nat) : State :=
  (t.setLaneStatus l 4 false).count Ix.laneTxSleepTime (l + 1) (t.since (t.lane l).txSince / 65536)

/-- Lanes that stop sleeping change the lanes' status and time asleep only (R402). -/
theorem reg_endLaneSleeps {ix sub : Nat} (hs : ix ≠ Ix.laneStatus) (ht : ix ≠ Ix.laneTxSleepTime) (hsub : sub < 65536)
    (ls : List Nat) (hl : ∀ l ∈ ls, l + 1 < 65536) (s : State) : (ls.foldl endLaneSleep s).reg ix sub = s.reg ix sub := by
  induction ls generalizing s with
  | nil => rfl
  | cons l ls ih =>
    have hl0 : l + 1 < 65536 := hl l List.mem_cons_self
    rw [List.foldl_cons, ih fun m hm => hl m (List.mem_cons_of_mem _ hm)]
    exact (reg_setReg_of_index_ne _ _ ht hsub hl0).trans (reg_setReg_of_index_ne _ _ hs hsub hl0)

/-- The lanes of a port have numbers close to the port's. -/
theorem lt_of_mem_portLanes {s : State} {p l : Nat} (hp : p < 512) (h : l ∈ s.portLanes p) : l < 516 := by
  obtain ⟨i, hi, rfl⟩ := List.mem_map.mp h
  have hlanes : modeLanes (s.reg Ix.portMode (p + 1)) ≤ 4 := by
    unfold modeLanes
    split
    · omega
    · split <;> omega
  have := List.mem_range.mp hi
  omega

/-- A sleeping direction that begins to wake is counted, and frames wait for the wake time (R403, R404). -/
theorem wakePort_asleep {s : State} {p : Nat} (hp : p < 512) (ha : (s.portLink p).asleep = true) :
    (s.wakePort p).reg Ix.portTxWakes (p + 1) = (s.reg Ix.portTxWakes (p + 1) + 1) % 18446744073709551616 ∧
      (s.wakePort p).portLink p =
        { s.portLink p with asleep := false, wakeDone := some (s.rawTotal + wakeNs (s.reg Ix.portMode (p + 1)) * 65536) } := by
  have heq : s.wakePort p = (((s.portLanes p).foldl endLaneSleep s).setPortLink p { s.portLink p with
      asleep := false, wakeDone := some (s.rawTotal + wakeNs (s.reg Ix.portMode (p + 1)) * 65536) }).count Ix.portTxWakes (p + 1) 1 :=
    if_pos ha
  have hlanes : ∀ l ∈ s.portLanes p, l + 1 < 65536 := fun l hl => by
    have := lt_of_mem_portLanes hp hl
    omega
  rw [heq]
  constructor
  · rw [reg_count_same, wrapAdd_64]
    congr 2
    exact reg_endLaneSleeps (by decide) (by decide) (by omega) _ hlanes s
  · exact portLink_setPortLink_same ..

theorem exec_gateWake_due {s : State} {p : Nat} (hp : s.portPresent p = true) (hd : s.gateWakeDue p = true) :
    exec (.gateWake p) s = .next (s.wakePort p) := by
  show execGateWake p s = _
  simp only [execGateWake, hp, hd, Bool.true_eq_false, if_false, if_true]

/-- Settles O27: a gate moves to what its plan shows, by its entry or its change time, and hold, reopen and wake go with it. -/
theorem gateSchedules : Obligations.GateSchedules := by
  refine ⟨fun s p hp hr hd => ?entry, fun s p x hp hr hx hd => ?change, fun s p d hp hr hh he ha hx => ?hold,
    fun s g hp hr hc hd => ?stream, fun s g hp hr hroom => ?pending, fun s g hp hr => ?reopen, fun s p hp hd ha => ?wake⟩
  case entry =>
    obtain ⟨⟨h, hgate⟩, hothers, hregs, hrest⟩ := gateMoved_spec (s := s) (lt_of_portPresent hp)
    refine ⟨_, exec_gateEntryChange_due hp hr hd, ?_, ?_, ?_, ?_, hothers, hregs, hrest⟩ <;> rw [hgate] <;> rfl
  case change =>
    have hp' := lt_of_portPresent hp
    obtain ⟨T, hexec⟩ := exec_gateChangeTime_due hp hr hx hd
    obtain ⟨⟨h, hgate⟩, -, hregs, -⟩ := gateMoved_spec (s := withTabs (madeOper s p x) T) hp'
    obtain ⟨hstatus, hlength, hcycle, hbase, hcount⟩ := madeOper_regs (s := s) (x := x) hp'
    rw [shownGate, gate_withTabs, madeOper_gate] at hgate
    have hmoved : (madeOper s p x).regsBut (gateMoved (withTabs (madeOper s p x) T) p) (gateMoveKeys p) :=
      regsBut_trans (regsBut_of_reg_eq _ (withTabs_reg _ T)) hregs
    have hkept {ix : Nat} (hix : ix ∉ [Ix.pmacHoldState, Ix.pmacHoldCount, Ix.gateOverrunCount]) :=
      hmoved ix (p + 1) (not_mem_gateMoveKeys hp' hix)
    refine ⟨_, hexec, by rw [hgate]; rfl, by rw [hgate]; rfl, by rw [hgate]; rfl, (hkept (by decide)).trans hstatus,
      (hkept (by decide)).trans hlength, (hkept (by decide)).trans hcycle, (hkept (by decide)).trans hbase,
      (hkept (by decide)).trans hcount, ?_⟩
    exact regsBut_trans regsBut_madeOper (regsBut_mono hmoved (more := changeTimeKeys p) (List.subset_append_right _ _))
  case hold =>
    obtain ⟨hstate, hcount⟩ := setHold_asserted_regs (lt_of_portPresent hp) hh
    exact ⟨_, exec_pmacHoldAssert_ahead hp hr hh he ha hx, by rw [gate_setHold_same], hstate, hcount, regsBut_setHold s p true,
      setHold_frame s p true⟩
  case stream =>
    refine ⟨_, exec_streamGateEntryChange_due hp hr hc hd, ?_, fun k hk => gate_setGate_ne s _ _ hk, rfl⟩
    rw [gate_setGate_same]
    rfl
  case pending =>
    obtain ⟨x, hwrite, w, hw, hidx, hsub⟩ := pendWrite_of_room Ix.streamGateReopen (g + 1) 0 1 hroom
    refine ⟨_, (exec_streamGateReopen_in_reset hp hr).trans (congrArg Wr.out hwrite), rfl, rfl, ⟨w, ?_, hidx, hsub⟩, rfl⟩
    rw [island_reply, island_setIsland_same]
    exact hw
  case reopen =>
    refine ⟨_, exec_streamGateReopen_at_once hp hr, ?_, fun k hk => ?_, rfl⟩
    · rw [gate_reply, gate_setGate_same]
    · rw [gate_reply, gate_setGate_ne _ _ _ hk]
  case wake =>
    obtain ⟨hcount, hlink⟩ := wakePort_asleep (lt_of_portPresent hp) ha
    exact ⟨_, exec_gateWake_due hp hd, hcount, by rw [hlink], by rw [hlink]⟩

end Sys2Proof.Proofs
end

section
/-! Queue samples, their windows and the sampling parameters (R162 to R164, R169). -/

namespace Sys2Proof.Proofs
open Sys2Proof Sys2Proof.Machine Sys2Proof.Laws

section
variable {s : State}

/-- Every queue in use, sampled once more in the present window (R162). -/
def sampledQueues (s : State) : Tbl QWindow :=
  (tkeys s.fr.queues ++ tkeys s.fr.sampling.queues ++ s.fr.tx.map fun e => e.2.queue).eraseDups.foldl
    (fun t q => tset t q (s.sampleQueue s.fr.sampling.samples q)) s.fr.sampling.queues

/-- A sample has been taken now, and its window goes on (R162, R163). -/
def sampled (s : State) : State :=
  { s with fr := { s.fr with sampling := { s.fr.sampling with
      samples := s.fr.sampling.samples + 1, last := s.raw, queues := sampledQueues s } } }

/-- A multiple of the period that has come since the last sample makes one due (R162). -/
theorem multipleDue_of_passed {last : Raw} {period : Nat} (h0 : period ≠ 0)
    (h : last.toNat / (period * 65536) ≠ s.raw.toNat / (period * 65536)) : s.multipleDue last (State.ns period) = true := by
  have hpos : State.ns period ≠ 0 := Nat.mul_ne_zero h0 (by decide)
  have hpassed : last.toNat / State.ns period ≠ s.raw.toNat / State.ns period := h
  simp [State.multipleDue, hpos, hpassed]

/-- A sample that is due counts, and the last one of a window ends it (R162, R163). -/
theorem exec_queueSample_due (hr : s.running 48 = true) (h0 : s.reg Ix.queueSamplePeriod 0 ≠ 0)
    (h : s.fr.sampling.last.toNat / (s.reg Ix.queueSamplePeriod 0 * 65536) ≠ s.raw.toNat / (s.reg Ix.queueSamplePeriod 0 * 65536)) :
    exec .queueSample s =
      .next (if s.reg Ix.queueSampleWindow 0 ≤ s.fr.sampling.samples + 1 then (sampled s).endWindow else sampled s) := by
  have hdue := multipleDue_of_passed h0 h
  show execQueueSample s = _
  simp only [execQueueSample, hr, hdue, Bool.true_eq_false, or_self, if_false]
  rfl

/-- A window that ends with a sample keeps the raw time of that sample (R163). -/
theorem sampled_endWindow_endLast : (sampled s).endWindow.fr.sampling.endLast = s.raw :=
  if_neg (c := s.fr.sampling.samples + 1 = 0) (t := BitVec.ofNat 64 (Config.freeNat s.draws)) (Nat.succ_ne_zero _)

theorem exec_queueSampleConfigWrite {which idx lo hi : Nat} (value : Nat) (hw : State.samplingParam which = some (idx, lo, hi)) :
    exec (.queueSampleConfigWrite which value) s = (s.writeSampling idx lo hi value).out := by
  show execQueueSampleConfigWrite which value s = _
  simp only [execQueueSampleConfigWrite, hw]

end

/-- Settles O28: a sample counts, a full window is kept, and a parameter that is written ends its window. -/
theorem queueSampling : Obligations.QueueSampling := by
  refine ⟨fun s hr h0 h hn => ?counts, fun s hr h0 h hn => ?ends, fun s which idx lo hi value hw hlo hhi => ?written,
    fun s which idx lo hi value hw hout => ?refused⟩
  case counts =>
    have hexec := exec_queueSample_due hr h0 h
    rw [if_neg (Nat.not_le.mpr hn)] at hexec
    exact ⟨_, hexec, rfl, rfl, rfl, rfl, rfl⟩
  case ends =>
    have hexec := exec_queueSample_due hr h0 h
    rw [if_pos hn] at hexec
    exact ⟨_, hexec, rfl, rfl, rfl, rfl, rfl, sampled_endWindow_endLast, rfl⟩
  case written =>
    have hwrite : s.writeSampling idx lo hi value = (s.endWindow.setReg idx 0 value, 0) :=
      if_neg (not_or.mpr ⟨Nat.not_lt.mpr hlo, Nat.not_lt.mpr hhi⟩)
    refine ⟨_, (exec_queueSampleConfigWrite value hw).trans (congrArg Wr.out hwrite), ?_, ?_, rfl, rfl, rfl, rfl⟩
    · exact (reply_reg ..).trans (reg_setReg_same ..)
    · exact regsBut_reply _ (regsBut_setReg _ (regsBut_of_reg_eq (t := s.endWindow) _ fun _ _ => rfl) (List.mem_singleton_self _))
  case refused =>
    exact (exec_queueSampleConfigWrite value hw).trans (congrArg Wr.out (if_pos hout))

end Sys2Proof.Proofs
end

section
/-! Recovery functions: their records, counts and timers after one write (R183 to R189, R199). -/

namespace Sys2Proof.Proofs
open Sys2Proof Sys2Proof.Machine Sys2Proof.Laws

section
/-! ### Records a write leaves -/

theorem recsBut_of_record_eq {s t : State} (keys : List Nat) (h : ∀ ix sub r, t.record ix sub r = s.record ix sub r) :
    s.recsBut t keys :=
  fun ix sub r _ => h ix sub r

/-- A write of a listed record stays within the frame. -/
theorem recsBut_setRecord {s t : State} {keys : List Nat} {i j r : Nat} (v : Nat) (h : s.recsBut t keys)
    (hk : recKey i j r ∈ keys) : s.recsBut (t.setRecord i j r v) keys := by
  intro ix sub n hn
  rw [record_setRecord, if_neg fun e => hn (by rw [e]; exact hk)]
  exact h ix sub n hn

/-- Records with the same number in TABLEs of different objects have different keys. -/
theorem recKey_ne_of_index_ne {i i' f : Nat} (h : i ≠ i') : recKey i 0 f ≠ recKey i' 0 f := by
  simp only [recKey, dictKey]
  omega

/-- A write of a record leaves the one with its number in another object's TABLE. -/
theorem recField_setRecord_of_index_ne (s : State) {i i' f : Nat} (v j m : Nat) (h : i' ≠ i) :
    (s.setRecord i 0 f v).recField i' 0 f j m = s.recField i' 0 f j m := by
  rw [State.recField, record_setRecord, if_neg (recKey_ne_of_index_ne h), State.recField]

end

section
/-! ### The record, the counts and the timer of one function -/

variable (s : State) (f : Nat)

/-- The count at byte `i` of a function's RECOVERY_COUNTS (R199). -/
def recoveryCount (s : State) (f i : Nat) : Nat := s.recField Ix.recoveryCounts 0 f i 8

theorem recoverField_lt (i n : Nat) : s.recoverField f i n < 256 ^ n := Nat.mod_lt _ (Nat.pow_pos (by decide))

@[simp] theorem recoverField_setRecoverField_same (i n v : Nat) :
    (s.setRecoverField f i n v).recoverField f i n = v % 256 ^ n := recField_setRecField_same ..

theorem recoverField_setRecoverField_ne {i n j m : Nat} (v : Nat) (h : j + m ≤ i ∨ i + n ≤ j) :
    (s.setRecoverField f i n v).recoverField f j m = s.recoverField f j m := recField_setRecField_ne _ _ _ _ _ _ _ _ _ h

@[simp] theorem recoverField_countRecovery (i n j m : Nat) : (s.countRecovery f i n).recoverField f j m = s.recoverField f j m :=
  recField_setRecord_of_index_ne s _ _ _ (by decide)

@[simp] theorem recoverField_setRecovery (x : Recovery) (j m : Nat) : (s.setRecovery f x).recoverField f j m = s.recoverField f j m :=
  congrArg (· / 256 ^ j % 256 ^ m) (setRecovery_record ..)

@[simp] theorem recoveryCount_setRecoverField (i n v j : Nat) :
    recoveryCount (s.setRecoverField f i n v) f j = recoveryCount s f j :=
  recField_setRecord_of_index_ne s _ _ _ (by decide)

@[simp] theorem recoveryCount_countRecovery_same (i n : Nat) :
    recoveryCount (s.countRecovery f i n) f i = (recoveryCount s f i + n) % 18446744073709551616 := by
  simp [recoveryCount, State.countRecovery, State.countRec, recField_setRecField_same, wrapAdd_64]

theorem recoveryCount_countRecovery_ne {i j : Nat} (n : Nat) (h : j + 8 ≤ i ∨ i + 8 ≤ j) :
    recoveryCount (s.countRecovery f i n) f j = recoveryCount s f j := recField_setRecField_ne _ _ _ _ _ _ _ _ _ h

@[simp] theorem recoveryCount_setRecovery (x : Recovery) (j : Nat) :
    recoveryCount (s.setRecovery f x) f j = recoveryCount s f j :=
  congrArg (· / 256 ^ j % 256 ^ 8) (setRecovery_record ..)

theorem recovery_of_tb_eq {s t : State} {f : Nat} (h : t.tb = s.tb) : t.recovery f = s.recovery f := by
  rw [State.recovery, h, State.recovery]

@[simp] theorem recovery_setRecoverField (i n v : Nat) : (s.setRecoverField f i n v).recovery f = s.recovery f :=
  recovery_of_tb_eq rfl

@[simp] theorem recovery_countRecovery (i n : Nat) : (s.countRecovery f i n).recovery f = s.recovery f :=
  recovery_of_tb_eq rfl

/-- `t` differs from `s` in the records with the listed keys and in timers of recovery functions at most. -/
structure OnlyRecords (s t : State) (keys : List Nat) : Prop where
  recs : s.recsBut t keys
  frame : t = { s with tabs := t.tabs, tb := t.tb }

namespace OnlyRecords
variable {s f} {t : State} {keys : List Nat}

theorem refl : OnlyRecords s s keys := ⟨recsBut_of_record_eq _ fun _ _ _ => rfl, rfl⟩

theorem setRecord (h : OnlyRecords s t keys) {i : Nat} (v : Nat) (hk : recKey i 0 f ∈ keys) :
    OnlyRecords s (t.setRecord i 0 f v) keys :=
  ⟨recsBut_setRecord v h.recs hk, by rw [h.frame]; rfl⟩

theorem setRecoverField (h : OnlyRecords s t keys) (i n v : Nat) (hk : recKey Ix.recoveryFunc 0 f ∈ keys) :
    OnlyRecords s (t.setRecoverField f i n v) keys := h.setRecord _ hk

theorem countRecovery (h : OnlyRecords s t keys) (i n : Nat) (hk : recKey Ix.recoveryCounts 0 f ∈ keys) :
    OnlyRecords s (t.countRecovery f i n) keys := h.setRecord _ hk

theorem setRecovery (h : OnlyRecords s t keys) (x : Recovery) : OnlyRecords s (t.setRecovery f x) keys :=
  ⟨h.recs, by rw [h.frame]; rfl⟩

theorem recs_reply (h : OnlyRecords s t keys) (a : Answer) : s.recsBut (t.reply a) keys := h.recs

/-- An answer beside the records. -/
theorem frame_reply (h : OnlyRecords s t keys) (a : Answer) :
    t.reply a = { s with tabs := (t.reply a).tabs, tb := (t.reply a).tb, answer := a } := by
  rw [h.frame]
  rfl

theorem rawTotal (h : OnlyRecords s t keys) : t.rawTotal = s.rawTotal := by rw [h.frame]; rfl

end OnlyRecords

/-- The keys of the counts and of the record of function `f`. -/
def recoveryKeys (f : Nat) : List Nat := [recKey Ix.recoveryCounts 0 f, recKey Ix.recoveryFunc 0 f]

theorem countsKey_mem : recKey Ix.recoveryCounts 0 f ∈ recoveryKeys f := .head _

theorem funcKey_mem : recKey Ix.recoveryFunc 0 f ∈ recoveryKeys f := .tail _ (.head _)

end

end Sys2Proof.Proofs
end

section
/-! How a recovery function judges a frame: the vector and match algorithms (R183 to R188). -/

namespace Sys2Proof.Proofs
open Sys2Proof Sys2Proof.Machine Sys2Proof.Laws

section
/-! ### Numbers and histories -/

/-- The distance of two numbers is 1 where the second follows the first (R183, R184). -/
theorem distance_eq_one_iff {num last : Nat} (hn : num < 65536) :
    toSigned 16 (ofSigned 16 ((num : Int) - last)) = 1 ↔ num = (last + 1) % 65536 := by
  unfold toSigned ofSigned
  by_cases h : (((num : Int) - last) % (2 ^ 16 : Nat)).toNat < 2 ^ (16 - 1)
  · rw [if_pos h]
    omega
  · rw [if_neg h]
    omega

/-- The zeros of a history at `n` positions are those a filter finds. -/
theorem zerosIn_eq_length_filter (hist lo n : Nat) :
    State.zerosIn hist lo n = ((List.range n).filter fun k => !bit hist (lo + k)).length := by
  induction n with
  | zero => rfl
  | succ n ih =>
    rw [State.zerosIn, ih, List.range_succ, List.filter_append, List.length_append, Nat.add_comm]
    cases h : bit hist (lo + n) <;> simp [h]

/-- A bit set within a number's range keeps it there. -/
theorem setBit_lt {v i n : Nat} (hv : v < 2 ^ n) (hi : i < n) : setBit v i < 2 ^ n := by
  obtain ⟨k, rfl⟩ := Nat.exists_eq_add_of_lt hi
  unfold setBit bit
  split
  · exact hv
  · rename_i hb
    have hpos : 0 < 2 ^ i := Nat.two_pow_pos i
    have hpow : 2 ^ (i + k + 1) = 2 * 2 ^ k * 2 ^ i := by
      rw [Nat.pow_succ, Nat.pow_add]
      ac_rfl
    have heven : v / 2 ^ i % 2 ≠ 1 := by simpa using hb
    have hq : v / 2 ^ i < 2 * 2 ^ k := (Nat.div_lt_iff_lt_mul hpos).mpr (hpow ▸ hv)
    rw [hpow, ← Nat.div_lt_iff_lt_mul hpos, Nat.add_div_right _ hpos]
    omega

end

section
/-! ### A pass, and the latent difference -/

variable (s : State) (f : Nat)

/-- D moves in four bytes of the record, or not at all (R188). -/
theorem moveLatent_cases (delta : Int) : s.moveLatent f delta = s ∨ ∃ v, s.moveLatent f delta = s.setRecoverField f 28 4 v := by
  unfold State.moveLatent
  split
  · exact .inr ⟨_, rfl⟩
  · exact .inl rfl

theorem recoverField_moveLatent (delta : Int) {j m : Nat} (h : j + m ≤ 28) :
    (s.moveLatent f delta).recoverField f j m = s.recoverField f j m := by
  obtain e | ⟨v, e⟩ := moveLatent_cases s f delta
  · rw [e]
  · rw [e, recoverField_setRecoverField_ne _ _ _ (.inl h)]

@[simp] theorem recoveryCount_moveLatent (delta : Int) (j : Nat) : recoveryCount (s.moveLatent f delta) f j = recoveryCount s f j := by
  obtain e | ⟨v, e⟩ := moveLatent_cases s f delta
  · rw [e]
  · rw [e, recoveryCount_setRecoverField]

@[simp] theorem recovery_moveLatent (delta : Int) : (s.moveLatent f delta).recovery f = s.recovery f := by
  obtain e | ⟨v, e⟩ := moveLatent_cases s f delta
  · rw [e]
  · rw [e, recovery_setRecoverField]

theorem recoverField_recoverPass {j m : Nat} (h : j + m ≤ 28) : (s.recoverPass f).recoverField f j m = s.recoverField f j m := by
  rw [State.recoverPass, recoverField_moveLatent _ _ _ h, recoverField_setRecovery, recoverField_countRecovery]

@[simp] theorem recoveryCount_recoverPass_passed :
    recoveryCount (s.recoverPass f) f 0 = (recoveryCount s f 0 + 1) % 18446744073709551616 := by
  rw [State.recoverPass, recoveryCount_moveLatent, recoveryCount_setRecovery]
  exact recoveryCount_countRecovery_same ..

theorem recoveryCount_recoverPass_ne {j : Nat} (h : 8 ≤ j) : recoveryCount (s.recoverPass f) f j = recoveryCount s f j := by
  rw [State.recoverPass, recoveryCount_moveLatent, recoveryCount_setRecovery]
  exact recoveryCount_countRecovery_ne _ _ _ (.inr h)

/-- A pass restarts the reset timer (R185). -/
theorem recovery_recoverPass : (s.recoverPass f).recovery f =
    { s.recovery f with timerRunning := s.recoverField f 4 2 != 0, lastPass := s.rawTotal } := by
  rw [State.recoverPass, recovery_moveLatent, recovery_setRecovery_same, recovery_countRecovery]

end

section
/-! ### What a judgement may change -/

variable {s t : State} {f : Nat}

/-- `t` is `s` with writes of function `f` that leave its settings, its timer and the counts that no judged number moves. -/
structure Judging (s t : State) (f : Nat) : Prop where
  only : OnlyRecords s t (recoveryKeys f)
  timer : t.recovery f = s.recovery f
  resetTime : t.recoverField f 4 2 = s.recoverField f 4 2
  counts : ∀ i ∈ [0, 40, 48, 56], recoveryCount t f i = recoveryCount s f i

namespace Judging

theorem refl : Judging s s f := ⟨.refl, rfl, rfl, fun _ _ => rfl⟩

/-- Writes beyond the settings of the record. -/
theorem setRecoverField (h : Judging s t f) {i : Nat} (n v : Nat) (hi : 6 ≤ i) : Judging s (t.setRecoverField f i n v) f where
  only := h.only.setRecoverField i n v (funcKey_mem f)
  timer := h.timer
  resetTime := (recoverField_setRecoverField_ne _ _ _ (.inl hi)).trans h.resetTime
  counts := fun j hj => (recoveryCount_setRecoverField ..).trans (h.counts j hj)

/-- Counts of what is discarded, out of order, rogue or lost. -/
theorem countRecovery (h : Judging s t f) {i : Nat} (n : Nat) (hi : 8 ≤ i ∧ i ≤ 32) : Judging s (t.countRecovery f i n) f where
  only := h.only.countRecovery i n (countsKey_mem f)
  timer := h.timer
  resetTime := (recoverField_countRecovery ..).trans h.resetTime
  counts := fun j hj => by
    rw [recoveryCount_countRecovery_ne _ _ _ ?_, h.counts j hj]
    simp only [List.mem_cons, List.not_mem_nil, or_false] at hj
    omega

theorem moveLatent (h : Judging s t f) (delta : Int) : Judging s (t.moveLatent f delta) f := by
  obtain e | ⟨v, e⟩ := moveLatent_cases t f delta
  · rwa [e]
  · rw [e]
    exact h.setRecoverField _ _ (by decide)

end Judging

theorem OnlyRecords.recoverPass (h : OnlyRecords s t (recoveryKeys f)) : OnlyRecords s (t.recoverPass f) (recoveryKeys f) := by
  unfold State.recoverPass
  have hcounted := (h.countRecovery State.rcPassed 1 (countsKey_mem f)).setRecovery (f := f)
  obtain e | ⟨v, e⟩ := moveLatent_cases _ f _
  · rw [e]
    exact hcounted _
  · rw [e]
    exact (hcounted _).setRecoverField _ _ _ (funcKey_mem f)

/-- What every judgement of a numbered frame does: a pass, or a count that leaves the history and the last number. -/
def Judged (s : State) (f : Nat) (r : State × Bool) : Prop :=
  (∃ u, Judging s u f ∧ r = (u.recoverPass f, true)) ∨
    (Judging s r.1 f ∧ r.2 = false ∧ ∀ j m, j + m ≤ 28 → r.1.recoverField f j m = s.recoverField f j m)

theorem judged_of_pass (h : Judging s t f) : Judged s f (t.recoverPass f, true) := .inl ⟨t, h, rfl⟩

/-- A number that is eliminated as rogue is counted (R183). -/
theorem judged_rogue : Judged s f (s.countRecovery f State.rcRogue 1, false) :=
  .inr ⟨Judging.refl.countRecovery _ (by decide), rfl, fun _ _ _ => recoverField_countRecovery ..⟩

/-- A number that is eliminated as seen is counted, and D moves (R183, R184, R188). -/
theorem judged_discarded : Judged s f ((s.countRecovery f State.rcDiscarded 1).moveLatent f (-1), false) :=
  .inr ⟨(Judging.refl.countRecovery _ (by decide)).moveLatent _, rfl, fun _ _ h =>
    (recoverField_moveLatent _ _ _ h).trans (recoverField_countRecovery ..)⟩

theorem judgeMatch_judged (num : Nat) : Judged s f (s.judgeMatch f num) := by
  unfold State.judgeMatch
  dsimp only
  split
  · exact judged_of_pass ((Judging.refl.setRecoverField _ _ (by decide)).setRecoverField _ _ (by decide))
  · split
    · exact judged_discarded
    · refine judged_of_pass (Judging.setRecoverField ?_ _ _ (by decide))
      split
      · exact .refl
      · exact Judging.refl.countRecovery _ (by decide)

theorem judgeVector_judged (num : Nat) : Judged s f (s.judgeVector f num) := by
  unfold State.judgeVector
  dsimp only
  split
  · exact judged_of_pass
      (((Judging.refl.setRecoverField _ _ (by decide)).setRecoverField _ _ (by decide)).setRecoverField _ _ (by decide))
  · split
    · exact judged_rogue
    · split
      · split
        · exact judged_discarded
        · exact judged_of_pass ((Judging.refl.setRecoverField _ _ (by decide)).countRecovery _ (by decide))
      · have h (lost hist last : Nat) :
            Judging s (((s.countRecovery f State.rcLost lost).setRecoverField f 20 8 hist).setRecoverField f 16 2 last) f :=
          ((Judging.refl.countRecovery _ (by decide)).setRecoverField _ _ (by decide)).setRecoverField _ _ (by decide)
        refine judged_of_pass ?_
        split
        · exact h _ _ _
        · exact (h _ _ _).countRecovery _ (by decide)

end

section
/-! ### Which judgement a frame meets -/

variable {s t : State} {f num : Nat} {pass : Bool}

/-- A frame without a tag passes, and is counted (R187). -/
theorem judgeRecovery_tagless (hv : bit (s.recoverField f 0 1) 7 = true) :
    s.judgeRecovery f none = (s.countRecovery f 40 1, true) := by
  rw [State.judgeRecovery, if_neg (by simp [hv])]
  rfl

/-- Bit 0 of the mode chooses the match algorithm (R189). -/
theorem judgeRecovery_match (hv : bit (s.recoverField f 0 1) 7 = true) (hm : bit (s.recoverField f 0 1) 0 = true) :
    s.judgeRecovery f (some num) = s.judgeMatch f num := by
  rw [State.judgeRecovery, if_neg (by simp [hv])]
  exact if_pos hm

theorem judgeRecovery_vector (hv : bit (s.recoverField f 0 1) 7 = true) (hm : bit (s.recoverField f 0 1) 0 = false) :
    s.judgeRecovery f (some num) = s.judgeVector f num := by
  rw [State.judgeRecovery, if_neg (by simp [hv])]
  exact if_neg (by simp [hm])

theorem judgeRecovery_judged (hv : bit (s.recoverField f 0 1) 7 = true) : Judged s f (s.judgeRecovery f (some num)) := by
  cases hm : bit (s.recoverField f 0 1) 0 with
  | true => exact judgeRecovery_match hv hm ▸ judgeMatch_judged num
  | false => exact judgeRecovery_vector hv hm ▸ judgeVector_judged num

/-- Every pass is counted and restarts the reset timer; what does not pass leaves the last number and the history; the counts of
tagless frames, resets and latent errors stay (R183 to R185). -/
theorem Judged.spec (h : Judged s f (t, pass)) :
    (pass = true → recoveryCount t f 0 = (recoveryCount s f 0 + 1) % 18446744073709551616 ∧
      t.recovery f = { s.recovery f with timerRunning := s.recoverField f 4 2 != 0, lastPass := s.rawTotal }) ∧
    (pass = false → recoveryCount t f 0 = recoveryCount s f 0 ∧ t.recovery f = s.recovery f ∧
      t.recoverField f 16 2 = s.recoverField f 16 2 ∧ t.recoverField f 20 8 = s.recoverField f 20 8 ∧
      t.recoverField f 18 1 = s.recoverField f 18 1) ∧
    (∀ i ∈ [40, 48, 56], recoveryCount t f i = recoveryCount s f i) ∧ OnlyRecords s t (recoveryKeys f) := by
  obtain ⟨u, hu, hr⟩ | ⟨ht, hp, hfields⟩ := h
  · obtain ⟨rfl, rfl⟩ := Prod.mk.inj hr
    refine ⟨fun _ => ⟨?_, ?_⟩, nofun, fun i hi => ?_, hu.only.recoverPass⟩
    · rw [recoveryCount_recoverPass_passed, hu.counts 0 (by simp)]
    · rw [recovery_recoverPass, hu.timer, hu.resetTime, hu.only.rawTotal]
    · have hi8 : 8 ≤ i := by
        simp only [List.mem_cons, List.not_mem_nil, or_false] at hi
        omega
      rw [recoveryCount_recoverPass_ne _ _ hi8, hu.counts i (List.mem_cons_of_mem _ hi)]
  · refine ⟨fun hpass => absurd (hpass.symm.trans hp) (by decide), fun _ => ⟨ht.counts 0 (by simp), ht.timer, ?_⟩,
      fun i hi => ht.counts i (List.mem_cons_of_mem _ hi), ht.only⟩
    exact ⟨hfields _ _ (by decide), hfields _ _ (by decide), hfields _ _ (by decide)⟩

end

section
/-! ### The clauses of the two algorithms -/

variable {s t : State} {f num : Nat} {pass : Bool}

/-- The first number after a reset, taken as it is (R183, R184). -/
def firstTaken (s : State) (f num : Nat) : State := (s.setRecoverField f 18 1 0).setRecoverField f 16 2 num

theorem judgeMatch_first (ha : bit (s.recoverField f 18 1) 0 = true) :
    s.judgeMatch f num = ((firstTaken s f num).recoverPass f, true) := if_pos ha

theorem judgeVector_first (ha : bit (s.recoverField f 18 1) 0 = true) :
    s.judgeVector f num = (((firstTaken s f num).setRecoverField f 20 8 18446744073709551615).recoverPass f, true) := if_pos ha

/-- Either algorithm passes the first frame after a reset (R183, R184). -/
theorem judgeRecovery_first (hv : bit (s.recoverField f 0 1) 7 = true) (hn : num < 65536)
    (ha : bit (s.recoverField f 18 1) 0 = true) (hj : s.judgeRecovery f (some num) = (t, pass)) :
    pass = true ∧ t.recoverField f 18 1 = 0 ∧ t.recoverField f 16 2 = num ∧
      (bit (s.recoverField f 0 1) 0 = false → t.recoverField f 20 8 = 18446744073709551615) ∧
      ∀ i ∈ [8, 16, 24, 32], recoveryCount t f i = recoveryCount s f i := by
  cases hm : bit (s.recoverField f 0 1) 0 with
  | true =>
    rw [judgeRecovery_match hv hm, judgeMatch_first ha] at hj
    obtain ⟨rfl, rfl⟩ := Prod.mk.inj hj
    simp [firstTaken, recoverField_recoverPass, recoverField_setRecoverField_ne, recoveryCount_recoverPass_ne, Nat.mod_eq_of_lt hn]
  | false =>
    rw [judgeRecovery_vector hv hm, judgeVector_first ha] at hj
    obtain ⟨rfl, rfl⟩ := Prod.mk.inj hj
    simp [firstTaken, recoverField_recoverPass, recoverField_setRecoverField_ne, recoveryCount_recoverPass_ne, Nat.mod_eq_of_lt hn]

section
variable (ha : bit (s.recoverField f 18 1) 0 = false)
include ha

theorem judgeMatch_repeat (h : num = s.recoverField f 16 2) :
    s.judgeMatch f num = ((s.countRecovery f State.rcDiscarded 1).moveLatent f (-1), false) := by
  rw [State.judgeMatch, if_neg (by simp [ha]), if_pos h]

theorem judgeMatch_new {d : Int} (hn : num < 65536)
    (hd : d = toSigned 16 (ofSigned 16 ((num : Int) - s.recoverField f 16 2))) (h : num ≠ s.recoverField f 16 2) :
    s.judgeMatch f num = (((if d = 1 then s else s.countRecovery f State.rcOutOfOrder 1).setRecoverField f 16 2 num).recoverPass f,
      true) := by
  simp only [hd, distance_eq_one_iff hn]
  rw [State.judgeMatch, if_neg (by simp [ha]), if_neg h]

/-- The match algorithm eliminates a repeat of the last number and nothing else (R184). -/
theorem judgeMatch_clauses {d : Int} (hn : num < 65536) (hd : d = toSigned 16 (ofSigned 16 ((num : Int) - s.recoverField f 16 2)))
    (hj : s.judgeMatch f num = (t, pass)) :
    (num = s.recoverField f 16 2 → pass = false ∧ recoveryCount t f 8 = (recoveryCount s f 8 + 1) % 18446744073709551616 ∧
      recoveryCount t f 16 = recoveryCount s f 16) ∧
    (num ≠ s.recoverField f 16 2 → pass = true ∧ t.recoverField f 16 2 = num ∧ t.recoverField f 18 1 = s.recoverField f 18 1 ∧
      recoveryCount t f 8 = recoveryCount s f 8 ∧
      recoveryCount t f 16 = if d = 1 then recoveryCount s f 16 else (recoveryCount s f 16 + 1) % 18446744073709551616) ∧
    recoveryCount t f 24 = recoveryCount s f 24 ∧ recoveryCount t f 32 = recoveryCount s f 32 := by
  by_cases hl : num = s.recoverField f 16 2
  · rw [judgeMatch_repeat ha hl] at hj
    obtain ⟨rfl, rfl⟩ := Prod.mk.inj hj
    simp [hl, State.rcDiscarded, recoveryCount_countRecovery_ne]
  · rw [judgeMatch_new ha hn hd hl] at hj
    obtain ⟨rfl, rfl⟩ := Prod.mk.inj hj
    by_cases h1 : d = 1 <;>
      simp [hl, h1, State.rcOutOfOrder, recoverField_recoverPass, recoveryCount_recoverPass_ne, recoverField_setRecoverField_ne,
        recoveryCount_countRecovery_ne, Nat.mod_eq_of_lt hn]

section
variable {d : Int} (hd : d = toSigned 16 (ofSigned 16 ((num : Int) - s.recoverField f 16 2)))
include hd

theorem judgeVector_rogue (h : (s.recoverField f 1 1 : Int) ≤ d ∨ d ≤ -(s.recoverField f 1 1 : Int)) :
    s.judgeVector f num = (s.countRecovery f State.rcRogue 1, false) := by
  rw [State.judgeVector, if_neg (by simp [ha])]
  dsimp only
  rw [← hd, if_pos h]

section
variable (hlo : -(s.recoverField f 1 1 : Int) < d)
include hlo

theorem judgeVector_seen (hle : d ≤ 0) (hb : bit (s.recoverField f 20 8) (-d).toNat = true) :
    s.judgeVector f num = ((s.countRecovery f State.rcDiscarded 1).moveLatent f (-1), false) := by
  rw [State.judgeVector, if_neg (by simp [ha])]
  dsimp only
  rw [← hd, if_neg (by omega), if_pos hle, if_pos hb]

theorem judgeVector_unseen (hle : d ≤ 0) (hb : bit (s.recoverField f 20 8) (-d).toNat = false) :
    s.judgeVector f num = (((s.setRecoverField f 20 8 (setBit (s.recoverField f 20 8) (-d).toNat)).countRecovery f
      State.rcOutOfOrder 1).recoverPass f, true) := by
  rw [State.judgeVector, if_neg (by simp [ha])]
  dsimp only
  rw [← hd, if_neg (by omega), if_pos hle, if_neg (by simp [hb])]

end

/-- A number ahead shifts the history; what leaves it unseen is lost (R183). -/
def shifted (s : State) (f num n : Nat) : State :=
  ((s.countRecovery f State.rcLost (State.zerosIn (s.recoverField f 20 8) (s.recoverField f 1 1 - n) n)).setRecoverField f 20 8
    (setBit (s.recoverField f 20 8 * 2 ^ n % 2 ^ 64) 0)).setRecoverField f 16 2 num

theorem judgeVector_ahead (hpos : 0 < d) (hhi : d < (s.recoverField f 1 1 : Int)) :
    s.judgeVector f num = ((if d = 1 then shifted s f num d.toNat
      else (shifted s f num d.toNat).countRecovery f State.rcOutOfOrder 1).recoverPass f, true) := by
  have h1 : d = 1 ↔ d.toNat = 1 := by omega
  rw [State.judgeVector, if_neg (by simp [ha])]
  dsimp only
  rw [← hd, if_neg (by omega), if_neg (by omega)]
  simp only [h1]
  rfl

/-- The vector algorithm eliminates rogue and seen numbers, and passes what is new to its history (R183). -/
theorem judgeVector_clauses (hn : num < 65536) (h64 : s.recoverField f 1 1 ≤ 64) (hj : s.judgeVector f num = (t, pass)) :
    ((s.recoverField f 1 1 : Int) ≤ d ∨ d ≤ -(s.recoverField f 1 1 : Int) →
      pass = false ∧ recoveryCount t f 24 = (recoveryCount s f 24 + 1) % 18446744073709551616 ∧
        ∀ i ∈ [8, 16, 32], recoveryCount t f i = recoveryCount s f i) ∧
    (-(s.recoverField f 1 1 : Int) < d → d ≤ 0 → bit (s.recoverField f 20 8) (-d).toNat = true →
      pass = false ∧ recoveryCount t f 8 = (recoveryCount s f 8 + 1) % 18446744073709551616 ∧
        ∀ i ∈ [16, 24, 32], recoveryCount t f i = recoveryCount s f i) ∧
    (-(s.recoverField f 1 1 : Int) < d → d ≤ 0 → bit (s.recoverField f 20 8) (-d).toNat = false →
      pass = true ∧ t.recoverField f 20 8 = setBit (s.recoverField f 20 8) (-d).toNat ∧
        t.recoverField f 16 2 = s.recoverField f 16 2 ∧
        recoveryCount t f 16 = (recoveryCount s f 16 + 1) % 18446744073709551616 ∧
        ∀ i ∈ [8, 24, 32], recoveryCount t f i = recoveryCount s f i) ∧
    (0 < d → d < (s.recoverField f 1 1 : Int) →
      pass = true ∧ t.recoverField f 16 2 = num ∧
        t.recoverField f 20 8 = setBit (s.recoverField f 20 8 * 2 ^ d.toNat % 18446744073709551616) 0 ∧
        recoveryCount t f 32 = (recoveryCount s f 32 + ((List.range d.toNat).filter fun k =>
          !bit (s.recoverField f 20 8) (s.recoverField f 1 1 - d.toNat + k)).length) % 18446744073709551616 ∧
        recoveryCount t f 16 = (if d = 1 then recoveryCount s f 16 else (recoveryCount s f 16 + 1) % 18446744073709551616) ∧
        ∀ i ∈ [8, 24], recoveryCount t f i = recoveryCount s f i) := by
  refine ⟨fun h => ?rogue, fun hlo hle hb => ?seen, fun hlo hle hb => ?unseen, fun hpos hhi => ?ahead⟩
  case rogue =>
    rw [judgeVector_rogue ha hd h] at hj
    obtain ⟨rfl, rfl⟩ := Prod.mk.inj hj
    simp [State.rcRogue, recoveryCount_countRecovery_ne]
  case seen =>
    rw [judgeVector_seen ha hd hlo hle hb] at hj
    obtain ⟨rfl, rfl⟩ := Prod.mk.inj hj
    simp [State.rcDiscarded, recoveryCount_countRecovery_ne]
  case unseen =>
    rw [judgeVector_unseen ha hd hlo hle hb] at hj
    obtain ⟨rfl, rfl⟩ := Prod.mk.inj hj
    have hset : setBit (s.recoverField f 20 8) (-d).toNat < 18446744073709551616 :=
      setBit_lt (n := 64) (recoverField_lt s f 20 8) (by omega)
    simp [State.rcOutOfOrder, recoverField_recoverPass, recoveryCount_recoverPass_ne, recoverField_setRecoverField_ne,
      recoveryCount_countRecovery_ne, hset]
  case ahead =>
    rw [judgeVector_ahead ha hd hpos hhi] at hj
    obtain ⟨rfl, rfl⟩ := Prod.mk.inj hj
    have hset (v : Nat) : setBit (v % 18446744073709551616) 0 < 18446744073709551616 :=
      setBit_lt (n := 64) (Nat.mod_lt _ (by decide)) (by decide)
    by_cases h1 : d = 1 <;>
      simp [h1, shifted, State.rcOutOfOrder, State.rcLost, zerosIn_eq_length_filter, recoverField_recoverPass,
        recoveryCount_recoverPass_ne, recoverField_setRecoverField_ne, recoveryCount_countRecovery_ne, hset, Nat.mod_eq_of_lt hn]

end
end
end

/-- Settles O29: a judgement passes or counts as its case says, and every case writes the function's record, counts and timer. -/
theorem recoveryAlgorithms : Obligations.RecoveryAlgorithms := by
  rintro s t f num h last hist d pass hv rfl - h64 rfl rfl hn hd
  refine ⟨fun hj => ?tagless, fun hj => ?numbered⟩
  case tagless =>
    rw [judgeRecovery_tagless hv] at hj
    obtain ⟨rfl, rfl⟩ := Prod.mk.inj hj
    refine ⟨rfl, recoveryCount_countRecovery_same s f 40 1, fun i hi => recoveryCount_countRecovery_ne _ _ _ ?_,
      recovery_countRecovery .., recsBut_setRecord _ (recsBut_of_record_eq _ fun _ _ _ => rfl) (List.mem_singleton_self _), rfl⟩
    simp only [List.mem_cons, List.not_mem_nil, or_false] at hi
    omega
  case numbered =>
    have hjudged : Judged s f (t, pass) := hj ▸ judgeRecovery_judged hv
    obtain ⟨hpass, hstop, hcounts, hrecs, hframe⟩ := hjudged.spec
    refine ⟨hpass, hstop, hcounts 40 (by simp), hcounts 48 (by simp), hcounts 56 (by simp), fun ha => judgeRecovery_first hv hn ha hj,
      fun hm ha => ?_, fun hm ha => ?_, hrecs, hframe⟩
    · exact judgeMatch_clauses ha hn hd (judgeRecovery_match hv hm ▸ hj)
    · exact judgeVector_clauses ha hd hn h64 (judgeRecovery_vector hv hm ▸ hj)

end Sys2Proof.Proofs
end

section
/-! Recovery timers, resets, written records of recovery and generation, and latent tests (R180, R185, R188, R189). -/

namespace Sys2Proof.Proofs
open Sys2Proof Sys2Proof.Machine Sys2Proof.Laws

section
/-! ### The reset of a function (R185) -/

variable (s : State) (f : Nat)

@[simp] theorem recoverField_reply (a : Answer) (i n : Nat) : (s.reply a).recoverField f i n = s.recoverField f i n := rfl

@[simp] theorem recoveryCount_reply (a : Answer) (i : Nat) : recoveryCount (s.reply a) f i = recoveryCount s f i := rfl

/-- What reads of a function that has just been reset (R185): any number is taken, the history and the last number are 0, and the
timer stands still. -/
structure FunctionReset (t : State) (f : Nat) : Prop where
  takeAny : t.recoverField f 18 1 = 1
  history : t.recoverField f 20 8 = 0
  number : t.recoverField f 16 2 = 0
  timer : (t.recovery f).timerRunning = false

theorem FunctionReset.reply {t : State} {f : Nat} (h : FunctionReset t f) (a : Answer) : FunctionReset (t.reply a) f :=
  ⟨h.takeAny, h.history, h.number, by rw [recovery_reply]; exact h.timer⟩

theorem clearRecovery_functionReset : FunctionReset (s.clearRecovery f) f := by
  constructor <;> simp [State.clearRecovery, recoverField_setRecoverField_ne]

theorem recoverField_clearRecovery {j m : Nat} (h : j + m ≤ 16) : (s.clearRecovery f).recoverField f j m = s.recoverField f j m := by
  rw [State.clearRecovery, recoverField_setRecovery, recoverField_setRecoverField_ne _ _ _ (by omega),
    recoverField_setRecoverField_ne _ _ _ (by omega), recoverField_setRecoverField_ne _ _ _ (by omega)]

@[simp] theorem recoveryCount_clearRecovery (i : Nat) : recoveryCount (s.clearRecovery f) f i = recoveryCount s f i := by
  simp [State.clearRecovery]

variable {s f}

theorem OnlyRecords.clearRecovery {t : State} {keys : List Nat} (h : OnlyRecords s t keys)
    (hk : recKey Ix.recoveryFunc 0 f ∈ keys) : OnlyRecords s (t.clearRecovery f) keys :=
  (((h.setRecoverField _ _ _ hk).setRecoverField _ _ _ hk).setRecoverField _ _ _ hk).setRecovery _

theorem resetRecovery_functionReset : FunctionReset (s.resetRecovery f) f := by
  obtain ⟨htake, hhist, hnum, htimer⟩ := clearRecovery_functionReset s f
  exact ⟨(recoverField_countRecovery ..).trans htake, (recoverField_countRecovery ..).trans hhist,
    (recoverField_countRecovery ..).trans hnum, (congrArg _ (recovery_countRecovery ..)).trans htimer⟩

theorem recoverField_resetRecovery {j m : Nat} (h : j + m ≤ 16) : (s.resetRecovery f).recoverField f j m = s.recoverField f j m :=
  (recoverField_countRecovery ..).trans (recoverField_clearRecovery s f h)

theorem recoveryCount_resetRecovery_resets :
    recoveryCount (s.resetRecovery f) f 48 = (recoveryCount s f 48 + 1) % 18446744073709551616 := by
  rw [State.resetRecovery, State.rcResets, recoveryCount_countRecovery_same, recoveryCount_clearRecovery]

theorem resetRecovery_only : OnlyRecords s (s.resetRecovery f) [recKey Ix.recoveryFunc 0 f, recKey Ix.recoveryCounts 0 f] :=
  (OnlyRecords.refl.clearRecovery (by simp)).countRecovery _ _ (by simp)

/-- A period in ms, in ru. -/
theorem ns_ms (p : Nat) : State.ns (p * 1000000) = p * 65536000000 := by
  unfold State.ns
  omega

theorem msRunOut_iff {t p : Nat} : s.msRunOut t p = true ↔ t + p * 65536000000 ≤ s.rawTotal := by
  rw [State.msRunOut, ns_ms, decide_eq_true_iff]

/-- There are 262,144 functions of each kind (R174, R199). -/
theorem not_functionCount_le (hf : f < 262144) : ¬ State.functionCount ≤ f := Nat.not_le.mpr hf

/-- A running timer of a valid function that has run out resets the function (R185). -/
theorem exec_recoveryTimerExpiry_due (hf : f < 262144) (hv : s.recoveryValid f = true) (hr : (s.recovery f).timerRunning = true)
    (h0 : s.recoverField f 4 2 ≠ 0) (hdue : s.recoverField f 4 2 * 65536000000 ≤ s.since (s.recovery f).lastPass) :
    exec (.recoveryTimerExpiry f) s = .next (s.resetRecovery f) := by
  have hrun : s.msRunOut (s.recovery f).lastPass (s.recoverField f 4 2) = true := by
    rw [msRunOut_iff]
    unfold State.since at hdue
    omega
  show execRecoveryTimerExpiry f s = _
  rw [execRecoveryTimerExpiry, if_neg (not_functionCount_le hf), if_pos ⟨hv, hr, h0, hrun⟩]

theorem exec_recoveryReset_of_lt (hf : f < 262144) :
    exec (.recoveryReset f) s = if s.recoveryValid f then .next ((s.resetRecovery f).reply {}) else .next (s.reply {}) := by
  show (s.writeRecoveryReset f).out = _
  rw [State.writeRecoveryReset, if_neg (not_functionCount_le hf)]
  split <;> rfl

theorem exec_recoveryReset_beyond (hf : 262144 ≤ f) : exec (.recoveryReset f) s = .next (s.reply { abort := 0x0301 }) := by
  show (s.writeRecoveryReset f).out = _
  rw [State.writeRecoveryReset, if_pos (show State.functionCount ≤ f from hf)]
  rfl

end

section
/-! ### Written records of recovery functions (R188, R189) -/

variable (s : State) (f : Nat) (r : List Byte)

/-- The settings of a written record stand in the function's record (R189). -/
def settingsTaken (s : State) (f : Nat) (r : List Byte) : State := s.setRecoverField f 0 16 (leField r 0 16)

/-- The algorithm or the history length of a written record differs from the function's (R189). -/
def changesFunction (s : State) (f : Nat) (r : List Byte) : Bool :=
  bit (s.recoverField f 0 1) 0 != bit (leField r 0 1) 0 || s.recoverField f 1 1 != leField r 1 1

theorem changesFunction_iff {s : State} {f : Nat} {r : List Byte} : changesFunction s f r = true ↔
    bit (s.recoverField f 0 1) 0 ≠ bit (leField r 0 1) 0 ∨ s.recoverField f 1 1 ≠ leField r 1 1 := by
  simp [changesFunction]

/-- The function after the settings, before its latent detection is looked at (R189). -/
def revalidated (s : State) (f : Nat) (r : List Byte) : State :=
  let u := settingsTaken s f r
  if (u.recoveryValid f && !s.recoveryValid f) || (s.recoveryValid f && changesFunction s f r) then u.clearRecovery f
  else if u.recoveryValid f = false then u.setRecovery f { u.recovery f with timerRunning := false }
  else u

/-- Latent periods restart where detection of `u` turns on or a period changes, and D is 0 where it turns on (R188). -/
def latentStarted (s : State) (f : Nat) (r : List Byte) (u : State) : State :=
  if u.latentOn f = false then u
  else
    let v := if !s.latentOn f || s.recoverField f 8 4 != leField r 8 4 || s.recoverField f 12 4 != leField r 12 4 then
      u.setRecovery f { u.recovery f with testFrom := s.rawTotal, resetFrom := s.rawTotal } else u
    if s.latentOn f then v else v.setRecoverField f 28 4 0

theorem setRecoveryRecord_eq : s.setRecoveryRecord f r = latentStarted s f r (revalidated s f r) := rfl

variable {s f r}

/-- The start of latent detection leaves the settings, the history and the timer. -/
theorem latentStarted_keeps (u : State) :
    (∀ j m, j + m ≤ 28 → (latentStarted s f r u).recoverField f j m = u.recoverField f j m) ∧
      ((latentStarted s f r u).recovery f).timerRunning = (u.recovery f).timerRunning := by
  unfold latentStarted
  split
  · exact ⟨fun _ _ _ => rfl, rfl⟩
  · dsimp only
    split <;> split
    · exact ⟨fun _ _ _ => recoverField_setRecovery .., by rw [recovery_setRecovery_same]⟩
    · exact ⟨fun _ _ _ => rfl, rfl⟩
    · exact ⟨fun _ _ h => (recoverField_setRecoverField_ne _ _ _ (.inl h)).trans (recoverField_setRecovery ..),
        by rw [recovery_setRecoverField, recovery_setRecovery_same]⟩
    · exact ⟨fun _ _ h => recoverField_setRecoverField_ne _ _ _ (.inl h), by rw [recovery_setRecoverField]⟩

/-- Latent detection that turns on starts at D = 0, with both periods from now (R188). -/
theorem latentStarted_turnsOn {u : State} (hs : s.latentOn f = false) (hu : u.latentOn f = true) :
    (latentStarted s f r u).recoverField f 28 4 = 0 ∧ ((latentStarted s f r u).recovery f).testFrom = s.rawTotal ∧
      ((latentStarted s f r u).recovery f).resetFrom = s.rawTotal := by
  simp [latentStarted, hs, hu]

theorem OnlyRecords.latentStarted {u : State} {keys : List Nat} (h : OnlyRecords s u keys)
    (hk : recKey Ix.recoveryFunc 0 f ∈ keys) : OnlyRecords s (latentStarted s f r u) keys := by
  unfold Proofs.latentStarted
  split
  · exact h
  · dsimp only
    split <;> split
    · exact h.setRecovery _
    · exact h
    · exact (h.setRecovery _).setRecoverField _ _ _ hk
    · exact h.setRecoverField _ _ _ hk

/-- A function that becomes valid, or a valid one whose algorithm or history length changes, is reset (R189). -/
theorem revalidated_resets (h : (s.recoveryValid f = false ∧ (settingsTaken s f r).recoveryValid f = true) ∨
    (s.recoveryValid f = true ∧ changesFunction s f r = true)) : revalidated s f r = (settingsTaken s f r).clearRecovery f := by
  obtain ⟨hs, hu⟩ | ⟨hs, hc⟩ := h
  · exact if_pos (by simp [hs, hu])
  · exact if_pos (by simp [hs, hc])

/-- A function that stays valid with its algorithm and history length runs on. -/
theorem revalidated_runsOn (hs : s.recoveryValid f = true) (hu : (settingsTaken s f r).recoveryValid f = true)
    (hc : changesFunction s f r = false) : revalidated s f r = settingsTaken s f r := by
  rw [revalidated, if_neg (by simp [hs, hc]), if_neg (by simp [hu])]

theorem recoverField_revalidated {j m : Nat} (h : j + m ≤ 16) :
    (revalidated s f r).recoverField f j m = (settingsTaken s f r).recoverField f j m := by
  unfold revalidated
  dsimp only
  split
  · exact recoverField_clearRecovery _ _ h
  · split
    · exact recoverField_setRecovery ..
    · rfl

theorem revalidated_only : OnlyRecords s (revalidated s f r) [recKey Ix.recoveryFunc 0 f] := by
  have htaken : OnlyRecords s (settingsTaken s f r) [recKey Ix.recoveryFunc 0 f] := OnlyRecords.refl.setRecoverField _ _ _ (by simp)
  unfold revalidated
  dsimp only
  split
  · exact htaken.clearRecovery (by simp)
  · split
    · exact htaken.setRecovery _
    · exact htaken

theorem setRecoveryRecord_only : OnlyRecords s (s.setRecoveryRecord f r) [recKey Ix.recoveryFunc 0 f] :=
  revalidated_only.latentStarted (by simp)

/-- The settings in force after a record is written are those it brings (R189). -/
theorem recoverField_setRecoveryRecord {j m : Nat} (h : j + m ≤ 16) :
    (s.setRecoveryRecord f r).recoverField f j m = (settingsTaken s f r).recoverField f j m :=
  ((latentStarted_keeps _).1 j m (by omega)).trans (recoverField_revalidated h)

theorem recoveryValid_setRecoveryRecord :
    (s.setRecoveryRecord f r).recoveryValid f = (settingsTaken s f r).recoveryValid f := by
  rw [State.recoveryValid, State.recoveryValid, recoverField_setRecoveryRecord (by decide)]

theorem latentOn_setRecoveryRecord : (s.setRecoveryRecord f r).latentOn f = (revalidated s f r).latentOn f := by
  rw [State.latentOn, State.latentOn, State.recoveryValid, State.recoveryValid, recoverField_setRecoveryRecord (by decide),
    recoverField_revalidated (by decide)]

theorem setRecoveryRecord_resets (h : (s.recoveryValid f = false ∧ (s.setRecoveryRecord f r).recoveryValid f = true) ∨
    (s.recoveryValid f = true ∧ changesFunction s f r = true)) : FunctionReset (s.setRecoveryRecord f r) f := by
  rw [recoveryValid_setRecoveryRecord] at h
  obtain ⟨htake, hhist, hnum, htimer⟩ := clearRecovery_functionReset (settingsTaken s f r) f
  obtain ⟨hfields, hrunning⟩ := latentStarted_keeps (s := s) (f := f) (r := r) (revalidated s f r)
  rw [← setRecoveryRecord_eq, revalidated_resets h] at hfields hrunning
  exact ⟨(hfields _ _ (by decide)).trans htake, (hfields _ _ (by decide)).trans hhist, (hfields _ _ (by decide)).trans hnum,
    hrunning.trans htimer⟩

theorem setRecoveryRecord_runsOn (hs : s.recoveryValid f = true) (ht : (s.setRecoveryRecord f r).recoveryValid f = true)
    (hc : changesFunction s f r = false) : (s.setRecoveryRecord f r).recoverField f 16 12 = s.recoverField f 16 12 ∧
      ((s.setRecoveryRecord f r).recovery f).timerRunning = (s.recovery f).timerRunning := by
  rw [recoveryValid_setRecoveryRecord] at ht
  obtain ⟨hfields, hrunning⟩ := latentStarted_keeps (s := s) (f := f) (r := r) (revalidated s f r)
  rw [← setRecoveryRecord_eq, revalidated_runsOn hs ht hc] at hfields hrunning
  exact ⟨(hfields 16 12 (by decide)).trans (recoverField_setRecoverField_ne _ _ _ (by decide)),
    hrunning.trans (congrArg _ (recovery_setRecoverField ..))⟩

theorem leNat_lt (bs : List Byte) : leNat bs < 256 ^ bs.length := by
  induction bs with
  | nil => decide
  | cons b bs ih =>
    have hb := b.isLt
    rw [leNat, List.length_cons, Nat.pow_succ]
    omega

theorem length_slice (bs : List Byte) (i n : Nat) : (slice bs i n).length = n := by
  simp only [slice, List.length_append, List.length_take, List.length_drop, List.length_replicate]
  omega

theorem leField_lt (bs : List Byte) (i n : Nat) : leField bs i n < 256 ^ n := by
  have h := leNat_lt (slice bs i n)
  rwa [length_slice] at h

theorem setRecoveryRecord_settings : (s.setRecoveryRecord f r).recoverField f 0 16 = leField r 0 16 := by
  rw [recoverField_setRecoveryRecord (by decide), settingsTaken, recoverField_setRecoverField_same, Nat.mod_eq_of_lt (leField_lt ..)]

/-- A record within its conditions takes effect where its island is not in reset (R31, R189). -/
theorem exec_recoveryFuncWrite_ok (hf : f < 262144) (hl : r.length = 32) (hok : State.recoveryRecordOk r = true)
    (hr : s.inReset 50 = false) : exec (.recoveryFuncWrite f r) s = .next ((s.setRecoveryRecord f r).reply {}) := by
  show (s.writeRecoveryFunc f r).out = _
  rw [State.writeRecoveryFunc, if_neg (not_functionCount_le hf), if_neg (by simp [hl]), if_neg (by simp [hok]), State.recordWrite,
    if_neg (by simp [hr])]
  rfl

theorem exec_recoveryFuncWrite_refused (hf : f < 262144) (hl : r.length = 32) (hok : State.recoveryRecordOk r = false) :
    exec (.recoveryFuncWrite f r) s = .next (s.reply { abort := 0x0301 }) := by
  show (s.writeRecoveryFunc f r).out = _
  rw [State.writeRecoveryFunc, if_neg (not_functionCount_le hf), if_neg (by simp [hl]), if_pos hok]
  rfl

end

section
/-! ### Written records of sequence generation (R180) -/

variable {s : State} {f n : Nat}

/-- A generation record of a number, its reserved bytes 0 (R180). -/
def seqGenRecord (n : Nat) : List Byte := leBytes 2 n ++ leBytes 14 0

theorem leField_seqGenRecord_number (hn : n < 65536) : leField (seqGenRecord n) 0 2 = n := by
  have h := leField_append [] (leBytes 14 0) 2 n rfl
  rwa [List.nil_append, Nat.mod_eq_of_lt (by omega)] at h

theorem leField_seqGenRecord_reserved : leField (seqGenRecord n) 2 6 = 0 :=
  leField_append (leBytes 2 n) (leBytes 8 0) 6 0 (length_leBytes ..)

/-- A generation record takes its number, and the count stays (R180). -/
theorem exec_seqGenWrite (hf : f < 262144) (hn : n < 65536) (hr : s.inReset 49 = false) :
    exec (.seqGenWrite f (seqGenRecord n)) s = .next ((s.setRecField Ix.seqGen 0 f 0 2 n).reply {}) := by
  show (s.writeSeqGen f (seqGenRecord n)).out = _
  rw [State.writeSeqGen, if_neg (not_functionCount_le hf), if_neg (by simp [seqGenRecord]),
    if_neg (by simp [leField_seqGenRecord_reserved]), State.recordWrite, if_neg (by simp [hr]), leField_seqGenRecord_number hn]
  rfl

end

section
/-! ### Latent tests and latent resets (R188) -/

variable {s : State} {f : Nat}

/-- The next latent test is a period after the last (R188). -/
def testMoved (s : State) (f : Nat) : State :=
  s.setRecovery f { s.recovery f with testFrom := (s.recovery f).testFrom + s.recoverField f 8 4 * 65536000000 }

theorem latentTest_within (h : toSigned 32 (s.recoverField f 28 4) ≤ (s.recoverField f 6 2 : Int)) :
    s.latentTest f = testMoved s f := by
  rw [State.latentTest, if_neg (Int.not_lt.mpr h), ns_ms]
  rfl

theorem latentTest_over (h : (s.recoverField f 6 2 : Int) < toSigned 32 (s.recoverField f 28 4)) : s.latentTest f =
    ((testMoved s f).countRecovery f 56 1).event Ix.recoveryCounts 3 50 [(4, f), (4, s.recoverField f 28 4)] := by
  rw [State.latentTest, if_pos h, ns_ms]
  rfl

theorem latentTestDue_iff : s.latentTestDue f = true ↔
    s.latentOn f = true ∧ (s.recovery f).testFrom + s.recoverField f 8 4 * 65536000000 ≤ s.rawTotal := by
  rw [State.latentTestDue, Bool.and_eq_true, msRunOut_iff]

theorem exec_latentTest_due (hf : f < 262144) (hdue : s.latentTestDue f = true) : exec (.latentTest f) s = .next (s.latentTest f) := by
  show execLatentTest f s = _
  rw [execLatentTest, if_neg (not_functionCount_le hf), if_pos hdue]

/-- D of function `f` of `u` is cleared, counted, and the next latent reset is a period after the last of `s` (R188). -/
def latentCleared (s u : State) (f : Nat) : State :=
  ((u.setRecovery f { u.recovery f with resetFrom := (s.recovery f).resetFrom + s.recoverField f 12 4 * 65536000000 })
    |>.setRecoverField f 28 4 0).countRec Ix.latentResetCount 0 f 0 1

/-- A latent reset that is due runs after a test that is due (R188). -/
theorem exec_latentReset_due (hf : f < 262144) (hon : s.latentOn f = true)
    (hdue : (s.recovery f).resetFrom + s.recoverField f 12 4 * 65536000000 ≤ s.rawTotal) :
    exec (.latentReset f) s = .next (latentCleared s (if s.latentTestDue f then s.latentTest f else s) f) := by
  show execLatentReset f s = _
  rw [execLatentReset, if_neg (not_functionCount_le hf), if_pos ⟨hon, msRunOut_iff.mpr hdue⟩, ns_ms]
  rfl

variable (s : State) (u : State) (f : Nat)

theorem recoverField_latentCleared {j m : Nat} (h : j + m ≤ 28) : (latentCleared s u f).recoverField f j m = u.recoverField f j m := by
  rw [latentCleared, State.countRec]
  refine (recField_setRecord_of_index_ne _ _ _ _ (by decide)).trans ?_
  exact recoverField_setRecoverField_ne _ _ _ (.inl h)

theorem recoverField_latentCleared_difference : (latentCleared s u f).recoverField f 28 4 = 0 := by
  rw [latentCleared, State.countRec]
  refine (recField_setRecord_of_index_ne _ _ _ _ (by decide)).trans ?_
  exact recoverField_setRecoverField_same ..

theorem recoveryCount_latentCleared (i : Nat) : recoveryCount (latentCleared s u f) f i = recoveryCount u f i := by
  rw [latentCleared, State.countRec]
  refine (recField_setRecord_of_index_ne _ _ _ _ (by decide)).trans ?_
  exact recoveryCount_setRecoverField ..

theorem recovery_latentCleared : (latentCleared s u f).recovery f =
    { u.recovery f with resetFrom := (s.recovery f).resetFrom + s.recoverField f 12 4 * 65536000000 } := by
  rw [latentCleared, recovery_of_tb_eq (countRec_tb ..), recovery_setRecoverField, recovery_setRecovery_same]

theorem latentCleared_only : OnlyRecords s (latentCleared s s f) [recKey Ix.recoveryFunc 0 f, recKey Ix.latentResetCount 0 f] :=
  ((OnlyRecords.refl.setRecovery _).setRecoverField _ _ _ (by simp)).setRecord _ (by simp)

end

/-- Settles O30: each command is one reset, record write or test of a function, and its clauses read what that operation leaves. -/
theorem recoveryRecords : Obligations.RecoveryRecords := by
  refine ⟨fun s f hf hv hr h0 hdue => ?expiry, fun s f hf hv => ?reset, fun s f hf hv => ?invalid,
    fun s f hf => exec_recoveryReset_beyond hf, fun s f r hf hl hok hr => ?written,
    fun s f r hf hl hok => exec_recoveryFuncWrite_refused hf hl hok, fun s f n hf hn hr => ?seqGen,
    fun s f hf hon hdue hin => ?within, fun s f hf hon hdue hover => ?exceeds, fun s f hf hon htest hdue => ?latentReset,
    fun s f hf hon htest hdue => ?both⟩
  case expiry =>
    obtain ⟨htake, hhist, hnum, htimer⟩ := resetRecovery_functionReset (s := s) (f := f)
    exact ⟨_, exec_recoveryTimerExpiry_due hf hv hr h0 hdue, htake, hhist, hnum, htimer, recoverField_resetRecovery (by decide),
      resetRecovery_only.recs, resetRecovery_only.frame⟩
  case reset =>
    obtain ⟨htake, hhist, hnum, htimer⟩ := (resetRecovery_functionReset (s := s) (f := f)).reply {}
    have honly := resetRecovery_only (s := s) (f := f)
    exact ⟨_, (exec_recoveryReset_of_lt hf).trans (if_pos hv), rfl, htake, hhist, hnum, htimer,
      (recoverField_reply ..).trans (recoverField_resetRecovery (by decide)),
      (recoveryCount_reply ..).trans recoveryCount_resetRecovery_resets, honly.recs_reply {}, honly.frame_reply {}⟩
  case invalid => exact (exec_recoveryReset_of_lt hf).trans (if_neg (by simp [hv]))
  case written =>
    have honly := setRecoveryRecord_only (s := s) (f := f) (r := r)
    refine ⟨_, exec_recoveryFuncWrite_ok hf hl hok hr, rfl, setRecoveryRecord_settings, fun h => ?_, fun ⟨hs, ht, halg, hlen⟩ => ?_,
      fun hs ht => ?_, honly.recs_reply {}, honly.frame_reply {}⟩
    · have hcase := h.imp_right fun ⟨hs, hc⟩ => And.intro hs (changesFunction_iff.mpr hc)
      obtain ⟨htake, hhist, hnum, htimer⟩ := (setRecoveryRecord_resets hcase).reply {}
      exact ⟨htake, hhist, hnum, htimer⟩
    · exact setRecoveryRecord_runsOn hs ht (by simp [changesFunction, halg, hlen])
    · exact latentStarted_turnsOn hs (latentOn_setRecoveryRecord.symm.trans ht)
  case seqGen =>
    refine ⟨_, exec_seqGenWrite hf hn hr, ?_, recField_setRecField_ne _ _ _ _ _ _ _ _ _ (by decide),
      recsBut_setRecord _ (recsBut_of_record_eq _ fun _ _ _ => rfl) (List.mem_singleton_self _), rfl⟩
    exact (recField_setRecField_same ..).trans (Nat.mod_eq_of_lt hn)
  case within =>
    refine ⟨_, exec_latentTest_due hf (latentTestDue_iff.mpr ⟨hon, hdue⟩), ?_, ?_⟩ <;> rw [latentTest_within hin]
    · exact recovery_setRecovery_same ..
    · rfl
  case exceeds =>
    have honly : OnlyRecords s ((testMoved s f).countRecovery f 56 1) [recKey Ix.recoveryCounts 0 f] :=
      (OnlyRecords.refl.setRecovery _).countRecovery _ _ (by simp)
    refine ⟨_, (exec_latentTest_due hf (latentTestDue_iff.mpr ⟨hon, hdue⟩)).trans (congrArg _ (latentTest_over hover)),
      recoveryCount_countRecovery_same _ f 56 1, ?_, honly.recs, honly.frame⟩
    exact (recovery_countRecovery ..).trans (recovery_setRecovery_same ..)
  case latentReset =>
    have hnot : s.latentTestDue f = false :=
      Bool.eq_false_iff.mpr fun h => Nat.not_le.mpr htest (latentTestDue_iff.mp h).2
    have hexec := exec_latentReset_due hf hon hdue
    rw [if_neg (by simp [hnot])] at hexec
    exact ⟨_, hexec, recoverField_latentCleared_difference .., recoverField_latentCleared _ _ _ (by decide), recovery_latentCleared ..,
      (latentCleared_only s f).recs⟩
  case both =>
    have htestDue := latentTestDue_iff.mpr ⟨hon, htest⟩
    have hexec := exec_latentReset_due hf hon hdue
    rw [if_pos htestDue] at hexec
    exact ⟨_, _, hexec, exec_latentTest_due hf htestDue, recoverField_latentCleared_difference .., by rw [recovery_latentCleared],
      recoveryCount_latentCleared .., by rw [recovery_latentCleared]⟩

end Sys2Proof.Proofs
end

section
/-! The recovery walk of a retaining reset, where a pending store holds a write of the walk's own counter (R18, R19, R196, R475). -/

namespace Sys2Proof.Proofs
open Sys2Proof Sys2Proof.Machine Sys2Proof.Laws

/-- The walk of a retaining reset ends it, and service resumes (R196, R474). -/
theorem exec_recoveryWalk_retaining {s : State} (links : List (Nat × Nat)) (handles : List Nat) (hr : s.sy.retaining = true)
    (hl : s.sy.rstLow = false) : exec (.recoveryWalk links handles) s = .next (s.recoveryWalk links handles).serviceResumes := by
  show execRecoveryWalk links handles s = _
  rw [execRecoveryWalk, if_pos ⟨hr, hl⟩]

/-- A retaining reset during which the target of group 0 has passed at island 55, whose pending store holds one write: 7, of
RETAIN_RESET_COUNT, a read-only object that no write of the dictionary puts there. -/
def countPending : State :=
  { State.reset with
    raw := 1
    sy := { hold := none, retaining := true }
    isl := {
      islands := [(55, { pend := [⟨Ix.retainResetCount, 0, [(0, 7)]⟩] })]
      groups := [(0, { armed := some { target := 0, domain := 0, raw := 0, held := [55], unsent := [], late := false } })] } }

/-- The pending stores are within R19 all the same: the bounds of a store do not say which objects it holds. -/
theorem countPending_storesOk : countPending.storesOk = true := by decide

/-- The walk's last step applies the passed target late (R475), and then counts on from the 7 it wrote. -/
theorem recoveryWalk_countPending : ((countPending.recoveryWalk [] []).serviceResumes).reg Ix.retainResetCount 0 = 8 := by
  decide +kernel

/-- Refutes O31: its clause of the recovery walk speaks of every state, also of one whose pending store brings a value of
RETAIN_RESET_COUNT for a target that the walk applies late. In `countPending` the counter reads 0 before the walk and 8 after it. -/
theorem not_guaranteeAndRetainingReset : ¬ Obligations.GuaranteeAndRetainingReset := by
  rintro ⟨-, -, -, -, hwalk, -⟩
  obtain ⟨t, hexec, -, -, hcount, -⟩ := hwalk countPending [] [] rfl rfl rfl rfl rfl
  rw [exec_recoveryWalk_retaining [] [] rfl rfl] at hexec
  have ht : (countPending.recoveryWalk [] []).serviceResumes = t := Host.Outcome.next.inj hexec
  have hbefore : countPending.reg Ix.retainResetCount 0 = 0 := by decide
  rw [← ht, recoveryWalk_countPending, hbefore] at hcount
  exact absurd hcount (by decide)

end Sys2Proof.Proofs
end

section
/-! Master rings (R261, R263, R268): a counterexample to what a send is said to count. -/

namespace Sys2Proof.Proofs
open Sys2Proof Sys2Proof.Machine Sys2Proof.Laws

/-- The number at which a port's TX_FRAMES has the key of HENAY_CYCLES_SENT of master ring 0. -/
def strayPort : Nat := (Ix.henayCyclesSent - Ix.txFrames) * 65536

/-- Master ring 0 runs, and its out port, whose element holds a number above 65,535, is up, so that its null frames leave. -/
def strayRing : State :=
  let running : State := { State.reset with sy := { hold := none }, ri := { rings := [(0, { mode := 2 })] } }
  ((((running.setIslandState State.ringIsland 3).setIslandState (State.portIsland strayPort) 3).setReg Ix.portMode (strayPort + 1) 2).setReg
    Ix.laneState (strayPort + 1) 4).setReg Ix.henayOutPort 1 strayPort

theorem strayRing_goesOn : strayRing.ringGoesOn 0 = true := by decide +kernel

theorem strayRing_sendCycle : strayRing.sendCycle 0 = some 0 := by decide +kernel

theorem strayRing_outPort : strayRing.reg Ix.henayOutPort 1 = strayPort := reg_setReg_same ..

theorem strayRing_cyclesSent : strayRing.reg Ix.henayCyclesSent 1 = 0 := by decide +kernel

/-- A ring that goes on sends the cycle whose instant has come (R261). -/
theorem exec_ringCycleSend {s : State} {m k : Nat} (first twin : OnWire) (hm : m < 16) (hr : s.ringGoesOn m = true)
    (hk : s.sendCycle m = some k) :
    exec (.ringCycleSend m first twin) s = .next (s.sendRingCycle m k
      (s.txTimestamp (s.reg Ix.henayOutPort (m + 1)) first.instant first.pipe)
      (s.txTimestamp (s.reg Ix.henayInPort (m + 1)) twin.instant twin.pipe)) := by
  show execRingCycleSend m first twin s = _
  rw [execRingCycleSend, if_neg (by omega), if_neg (by simp [hr])]
  simp only [hk]

/-- The frame sent and the cycle sent are counted in one element. -/
theorem strayRing_cyclesSent_after :
    (strayRing.sendRingCycle 0 0 (strayRing.txTimestamp (strayRing.reg Ix.henayOutPort 1) 0 0)
      (strayRing.txTimestamp (strayRing.reg Ix.henayInPort 1) 0 0)).reg Ix.henayCyclesSent 1 = 2 := by
  decide +kernel

/-- Refutes O39: its clause of the send bounds no port, unlike what it says of a null frame's bytes and of a failed check. In
`strayRing`, whose out port is a number no 2-byte object takes, TX_FRAMES of that port is HENAY_CYCLES_SENT of the ring, which
rises from 0 to 2 with one cycle. -/
theorem not_ringCycles : ¬ Obligations.RingCycles := by
  rintro ⟨-, -, -, hsend, -⟩
  obtain ⟨t, c, hexec, -, -, -, -, -, -, -, -, -, hcount, -⟩ :=
    hsend strayRing 0 0 strayPort 0 0 0 0 (by decide) strayRing_goesOn strayRing_sendCycle strayRing_outPort.symm
  rw [exec_ringCycleSend _ _ (by decide) strayRing_goesOn strayRing_sendCycle] at hexec
  rw [← Host.Outcome.next.inj hexec, strayRing_cyclesSent_after, strayRing_cyclesSent] at hcount
  exact absurd hcount (by decide)

end Sys2Proof.Proofs
end

section
/-! What a passing cycle frame leaves at the rings that watch it: frames, pairs, and every object but those of a roll call
(R224, R274, R276 to R279, R286 to R290). -/

namespace Sys2Proof.Proofs
open Sys2Proof Sys2Proof.Machine Sys2Proof.Laws

/-- `t` has the frames and the pass-through pairs of `s`, and the elements of every object but the listed ones. -/
structure KeepsPairs (objects : List Nat) (s t : State) : Prop where
  fr : t.fr = s.fr
  pairs : t.ri.pairs = s.ri.pairs
  regs : ∀ ix sub, ix ∉ objects → sub < 65536 → t.reg ix sub = s.reg ix sub

namespace KeepsPairs

variable {objects : List Nat} {s t u : State}

theorem refl (s : State) : KeepsPairs objects s s := ⟨rfl, rfl, fun _ _ _ _ => rfl⟩

theorem trans (h : KeepsPairs objects s t) (h' : KeepsPairs objects t u) : KeepsPairs objects s u :=
  ⟨h'.fr.trans h.fr, h'.pairs.trans h.pairs, fun ix sub hi hs => (h'.regs ix sub hi hs).trans (h.regs ix sub hi hs)⟩

/-- `trans` with its second half first, which fixes the state between. -/
theorem after (h' : KeepsPairs objects t u) (h : KeepsPairs objects s t) : KeepsPairs objects s u := h.trans h'

theorem ite {c : Prop} [Decidable c] (h : KeepsPairs objects s t) (h' : KeepsPairs objects s u) :
    KeepsPairs objects s (if c then t else u) := by
  split
  · exact h
  · exact h'

theorem setReg (h : KeepsPairs objects s t) {i j : Nat} (v : Nat) (hi : i ∈ objects) (hj : j < 65536) :
    KeepsPairs objects s (t.setReg i j v) :=
  ⟨h.fr, h.pairs, fun ix sub hx hs =>
    (reg_setReg_of_index_ne t v (ne_of_mem_of_not_mem hi hx).symm hs hj).trans (h.regs ix sub hx hs)⟩

theorem count (h : KeepsPairs objects s t) {i j : Nat} (n : Nat) (hi : i ∈ objects) (hj : j < 65536) :
    KeepsPairs objects s (t.count i j n) :=
  h.setReg _ hi hj

theorem foldl {α : Type} {f : State → α → State} {l : List α} (hf : ∀ t, ∀ a ∈ l, KeepsPairs objects t (f t a)) (s : State) :
    KeepsPairs objects s (l.foldl f s) := by
  induction l generalizing s with
  | nil => exact refl s
  | cons a l ih =>
    exact (hf s a List.mem_cons_self).trans (ih (fun t b hb => hf t b (List.mem_cons_of_mem _ hb)) _)

theorem ptPair (h : KeepsPairs objects s t) (k : Nat) : t.ptPair k = s.ptPair k := by
  rw [State.ptPair, State.ptPair, h.pairs]

end KeepsPairs

/-- The objects a watching ring's sight of a frame and a roll call may change: the master's node, quorum and the state of a domain,
its port states and clamped rates, and those of an event. -/
def watchObjects : List Nat :=
  [Ix.henayMasterNode, Ix.quorumConfigMismatch, Ix.quorumSeenWeight, Ix.quorumSeenMap, Ix.quorumState, Ix.quorumLosses,
    Ix.timeDomainState, Ix.timeRateClamps, Ix.ptpPortState, Ix.eventNewest, Ix.eventOverrun, Ix.nvBytesWritten, Ix.eventLost,
    Ix.nvHoldOverflow, Ix.nvWritesHeld]

section
variable {s t : State} {d : Nat}

theorem KeepsPairs.event (h : KeepsPairs watchObjects s t) (c v i : Nat) (ps : List (Nat × Nat)) :
    KeepsPairs watchObjects s (t.event c v i ps) := by
  refine ⟨by rw [event_fr, h.fr], by rw [event_ri, h.pairs], fun ix sub hx hs => ?_⟩
  refine (reg_event t c v i ps ix sub fun he => hx ?_).trans (h.regs ix sub hx hs)
  simp only [eventKeys, List.mem_cons, List.not_mem_nil, or_false, dictKey_inj hs (Nat.zero_lt_succ 65535)] at he
  rcases he with ⟨rfl, -⟩ | ⟨rfl, -⟩ | ⟨rfl, -⟩ | ⟨rfl, -⟩ | ⟨rfl, -⟩ | ⟨rfl, -⟩ <;> decide

/-! ### The time of a domain -/

theorem keepsPairs_setDom (d : Nat) (x : TDomain) : KeepsPairs watchObjects s (s.setDom d x) := ⟨rfl, rfl, fun _ _ _ _ => rfl⟩

theorem keepsPairs_sendRate (hd : d < 4) : KeepsPairs watchObjects s (s.sendRate d) := by
  unfold State.sendRate State.sendChange
  exact (keepsPairs_setDom ..).after (.ite (.refl s) ((KeepsPairs.refl s).setReg _ (by decide) (by omega)))

theorem keepsPairs_enterState (st : Nat) (hd : d < 4) : KeepsPairs watchObjects s (s.enterState d st) :=
  ((KeepsPairs.refl s).setReg _ (by decide) (by omega)).trans (keepsPairs_setDom ..)

theorem keepsPairs_enterHoldover (st : Nat) (hd : d < 4) : KeepsPairs watchObjects s (s.enterHoldover d st) :=
  (keepsPairs_sendRate hd).after ((keepsPairs_enterState st hd).after (keepsPairs_setDom ..))

/-! ### Port states -/

/-- A port of which the dictionary holds an element has a subindex. -/
theorem succ_lt_of_mem_statePorts {p : Nat} (h : p ∈ s.ptpPorts d ++ s.statePorts d) : p + 1 < 65536 := by
  rcases List.mem_append.mp h with h | h <;>
    · obtain ⟨hmap, -⟩ := List.mem_filter.mp h
      obtain ⟨e, -, rfl⟩ := List.mem_map.mp hmap
      omega

theorem keepsPairs_setPtpState {p : Nat} (v : Nat) (hp : p + 1 < 65536) : KeepsPairs watchObjects s (s.setPtpState p d v) :=
  (KeepsPairs.refl s).setReg _ (by decide) hp

theorem keepsPairs_setPtp (p : Nat) (x : PtpPort) : KeepsPairs watchObjects s (s.setPtp p d x) := ⟨rfl, rfl, fun _ _ _ _ => rfl⟩

theorem keepsPairs_forgetPort (p : Nat) : KeepsPairs watchObjects s (s.forgetPort d p) := by
  unfold State.forgetPort
  exact .ite (keepsPairs_setPtp ..) (.ite (keepsPairs_setPtp ..) (.refl s))

theorem keepsPairs_takePortState {p : Nat} (v : Nat) (hp : p + 1 < 65536) : KeepsPairs watchObjects s (s.takePortState d p v) := by
  unfold State.takePortState
  exact (keepsPairs_setPtpState v hp).after (.ite (keepsPairs_setPtp ..) (.refl s))

theorem keepsPairs_decidePorts (hd : d < 4) : KeepsPairs watchObjects s (s.decidePorts d) := by
  have hport : ∀ p ∈ (s.ptpPorts d ++ s.statePorts d).eraseDups, p + 1 < 65536 := fun p hp =>
    succ_lt_of_mem_statePorts (List.mem_eraseDups.mp hp)
  unfold State.decidePorts
  dsimp only
  generalize (s.ptpPorts d ++ s.statePorts d).eraseDups = ps at hport
  have hdecided (u : State) : KeepsPairs watchObjects s
      (ps.foldl (fun t p => t.takePortState d p (u.choosePort d p)) (ps.foldl (fun t p => t.forgetPort d p) s)) :=
    (KeepsPairs.foldl (fun t p _ => keepsPairs_forgetPort p) s).trans
      (KeepsPairs.foldl (fun t p hp => keepsPairs_takePortState _ (hport p hp)) _)
  split
  · refine KeepsPairs.foldl (fun t p hp => ?_) s
    exact (keepsPairs_forgetPort p).trans (keepsPairs_setPtpState 0 (hport p (List.mem_filter.mp hp).1))
  · exact .ite ((hdecided _).trans (keepsPairs_enterHoldover 3 hd)) (hdecided _)

/-! ### Quorum and roll calls -/

theorem keepsPairs_regainQuorum (hd : d < 4) : KeepsPairs watchObjects s (s.regainQuorum d) := by
  unfold State.regainQuorum
  refine .ite (.refl s) ((keepsPairs_decidePorts hd).after ((keepsPairs_sendRate hd).after ((keepsPairs_enterState 1 hd).after ?_)))
  exact (keepsPairs_setDom ..).after (keepsPairs_setDom ..)

theorem keepsPairs_markRings : KeepsPairs watchObjects s (s.markRings d) :=
  KeepsPairs.foldl (f := fun t m => { t with ri := { t.ri with rings := tmod {} t.ri.rings m fun (x : MRing) => { x with lost := true } } })
    (fun _ _ _ => ⟨rfl, rfl, fun _ _ _ _ => rfl⟩) s

theorem keepsPairs_judgeQuorum (hd : d < 4) : KeepsPairs watchObjects s (s.judgeQuorum d) := by
  have hshown (w m q : Nat) : KeepsPairs watchObjects s (((s.setReg Ix.quorumSeenWeight (d + 1) w).setReg Ix.quorumSeenMap (d + 1)
      m).setReg Ix.quorumState (d + 1) q) :=
    (((KeepsPairs.refl s).setReg _ (by decide) (by omega)).setReg _ (by decide) (by omega)).setReg _ (by decide) (by omega)
  unfold State.judgeQuorum
  dsimp only
  split
  · exact (hshown ..).trans (keepsPairs_regainQuorum hd)
  · have hloss (t : State) (c : Prop) [Decidable c] (n m : Nat) : KeepsPairs watchObjects t (if c then
        (t.countSat Ix.quorumLosses (d + 1) 1).event Ix.quorumLosses 1 State.meridian [(2, n), (4, m)] else t) :=
      .ite (((KeepsPairs.refl t).setReg _ (by decide) (by omega)).event ..) (.refl t)
    refine .ite ?_ (keepsPairs_markRings.after ((keepsPairs_enterHoldover 4 hd).after ?_)) <;> exact (hloss ..).after (hshown ..)

theorem keepsPairs_takeRoll (n e : Nat) : KeepsPairs watchObjects s (s.takeRoll d n e) := by
  unfold State.takeRoll
  exact .ite (.refl s) (keepsPairs_setDom ..)

theorem keepsPairs_takeRollCall (body : List Byte) (hd : d < 4) : KeepsPairs watchObjects s (s.takeRollCall d body) := by
  unfold State.takeRollCall
  refine .ite ((KeepsPairs.refl s).count _ (by decide) (by omega)) ((keepsPairs_judgeQuorum hd).after ?_)
  exact KeepsPairs.foldl (fun _ _ _ => keepsPairs_takeRoll ..) s

/-! ### Rings that watch -/

theorem keepsPairs_sawFrame {m : Nat} (h : CycleHead) (w : List Byte) (hm : m < 16) : KeepsPairs watchObjects s (s.sawFrame m h w) := by
  have hring (x : MRing) : KeepsPairs watchObjects s (s.setMring m x) := ⟨rfl, rfl, fun _ _ _ _ => rfl⟩
  have hnode (x : MRing) : KeepsPairs watchObjects s (if isStartClaim h w then s.setMring m x
      else (s.setMring m x).setReg Ix.henayMasterNode (m + 1) h.node) :=
    .ite (hring x) ((hring x).setReg _ (by decide) (by omega))
  unfold State.sawFrame
  dsimp only
  split
  · exact (hnode _).trans (keepsPairs_takeRollCall _ (Nat.mod_lt _ (by decide)))
  · exact hnode _

theorem keepsPairs_watchPass (k : Nat) (h : CycleHead) (w : List Byte) : KeepsPairs watchObjects s (s.watchPass k h w) :=
  KeepsPairs.foldl (fun t _ hm => .ite (keepsPairs_sawFrame h w (List.mem_range.mp hm)) (.refl t)) s

end

end Sys2Proof.Proofs
end

section
/-! Cycle frames at a pass-through pair (R36, R40, R43, R245 to R249, R254, R257, R264, R266). -/

namespace Sys2Proof.Proofs
open Sys2Proof Sys2Proof.Machine Sys2Proof.Laws

section
/-! ### A frame forwarded (R43, R248) -/

/-- The objects a forwarded frame counts in at its port. -/
def forwardObjects : List Nat := [Ix.txFrames, Ix.txStomped, Ix.pmacPreempted]

variable {s : State} {p : Nat}

theorem preempt_reg (t : TxCopy) {ix sub : Nat} (hi : ix ≠ Ix.pmacPreempted) (hs : sub < 65536) (hp : p < 512) :
    (s.preempt p t).reg ix sub = s.reg ix sub := by
  unfold State.preempt
  dsimp only
  split
  · rfl
  · exact reg_setReg_of_index_ne _ _ hi hs (by omega)

theorem preempt_ri (t : TxCopy) : (s.preempt p t).ri = s.ri := by
  unfold State.preempt
  dsimp only
  split <;> rfl

/-- Port `p` as a cycle frame finds it: a preemptable frame in transmission is preempted (R242, R248). -/
def clearedFor (s : State) (p : Nat) : State :=
  match s.txCopy? (512 + p) with
  | some t => if s.preemptActive p ∧ t.preempted = false then s.preempt p t else s
  | none => s

theorem forward_eq (w : List Byte) (ok : Bool) (ts : Raw) : s.forward p w ok ts = (clearedFor s p).emitAs p w ts (!ok) := rfl

theorem clearedFor_cases : clearedFor s p = s ∨ ∃ t, clearedFor s p = s.preempt p t := by
  unfold clearedFor
  split
  · split
    · exact .inr ⟨_, rfl⟩
    · exact .inl rfl
  · exact .inl rfl

theorem clearedFor_reg {ix sub : Nat} (hi : ix ≠ Ix.pmacPreempted) (hs : sub < 65536) (hp : p < 512) :
    (clearedFor s p).reg ix sub = s.reg ix sub := by
  obtain h | ⟨t, h⟩ := clearedFor_cases (s := s) (p := p)
  · rw [h]
  · rw [h, preempt_reg t hi hs hp]

theorem clearedFor_ri : (clearedFor s p).ri = s.ri := by
  obtain h | ⟨t, h⟩ := clearedFor_cases (s := s) (p := p)
  · rw [h]
  · rw [h, preempt_ri]

theorem forward_ri (w : List Byte) (ok : Bool) (ts : Raw) : (s.forward p w ok ts).ri = s.ri :=
  clearedFor_ri (s := s) (p := p)

theorem forward_ptPair (w : List Byte) (ok : Bool) (ts : Raw) (k : Nat) : (s.forward p w ok ts).ptPair k = s.ptPair k := by
  rw [State.ptPair, forward_ri]; rfl

/-- The bytes of a frame on the wire, padded and with its FCS, or the complement of it where it is stomped. -/
theorem forward_wire (w : List Byte) (ok : Bool) (ts : Raw) :
    tgetD (s.forward p w ok ts).fr.wire p {} =
      let padded := w ++ List.replicate (60 - w.length) 0#8
      { frame := padded ++ (if ok = false then complementBytes (fcsOf padded) else fcsOf padded), stomped := !ok, ts := ts } := by
  rw [forward_eq]
  cases ok <;> exact tgetD_tput_same ..

theorem forward_reg (w : List Byte) (ok : Bool) (ts : Raw) {ix sub : Nat} (hi : ix ∉ forwardObjects) (hs : sub < 65536)
    (hp : p < 512) : (s.forward p w ok ts).reg ix sub = s.reg ix sub := by
  simp only [forwardObjects, List.mem_cons, List.not_mem_nil, or_false, not_or] at hi
  obtain ⟨hframes, hstomped, hpreempted⟩ := hi
  rw [forward_eq]
  refine (reg_setReg_of_index_ne _ _ ?_ hs (by omega)).trans (clearedFor_reg hpreempted hs hp)
  cases ok
  · exact hstomped
  · exact hframes

/-- A frame forwarded is counted once, where it is stomped and where it is not. -/
theorem forward_count (w : List Byte) (ok : Bool) (ts : Raw) (hp : p < 512) :
    (s.forward p w ok ts).reg (if (!ok) = true then Ix.txStomped else Ix.txFrames) (p + 1) =
      (s.reg (if (!ok) = true then Ix.txStomped else Ix.txFrames) (p + 1) + 1) % 18446744073709551616 := by
  rw [forward_eq]
  refine (reg_count_same ..).trans ?_
  rw [wrapAdd_64]
  refine congrArg (fun n => (n + 1) % 18446744073709551616) (clearedFor_reg ?_ (by omega) hp)
  cases ok <;> decide

/-- A good frame that is forwarded is sent. -/
theorem sentOn_forward {t : State} (w : List Byte) (ts : Raw) (hp : p < 512) (hreg : t.reg Ix.txFrames (p + 1) = s.reg Ix.txFrames (p + 1)) :
    s.sentOn (t.forward p w true ts) p w ts 1 :=
  ⟨forward_wire .., (forward_count w true ts hp).trans (by rw [if_neg (by decide), hreg])⟩

/-- A frame sent stays sent while the rings that watch the pair note it. -/
theorem sentOn_keeps {t u : State} {w : List Byte} {ts : Raw} {n : Nat} (h : s.sentOn t p w ts n) (hk : KeepsPairs watchObjects t u)
    (hp : p < 512) : s.sentOn u p w ts n := by
  obtain ⟨hwire, hcount⟩ := h
  exact ⟨by rw [hk.fr, hwire], (hk.regs _ _ (by decide) (by omega)).trans hcount⟩

end

section
/-! ### A frame that arrives (R36, R40, R43) -/

variable {s : State} {p : Nat}

/-- `c` is `s` but for the lanes, their status words and a count of bad frames: what the reception of a cycle frame may change. -/
structure Received (s c : State) : Prop where
  rest : c = { s with dict := c.dict, ln := c.ln }
  regs : ∀ ix sub, ix ∉ [Ix.laneStatus, Ix.rxFcsError] → sub < 65536 → c.reg ix sub = s.reg ix sub

theorem laneData_reg (hp : p < 512) {ix sub : Nat} (hi : ix ≠ Ix.laneStatus) (hs : sub < 65536) :
    (s.laneData p).reg ix sub = s.reg ix sub := by
  obtain ⟨-, -, -, hregs⟩ := laneData_spec s p
  refine hregs ix sub fun h => ?_
  obtain ⟨l, hl, he⟩ := List.mem_map.mp h
  have := lt_of_mem_portLanes hp hl
  exact dictKey_ne_of_index_ne hs (by omega) hi he.symm

theorem received_laneData (hp : p < 512) : Received s (s.laneData p) := by
  obtain ⟨d, n, hrest, -⟩ := laneData_spec s p
  exact ⟨by rw [hrest], fun ix sub hi hs => laneData_reg hp (List.ne_of_not_mem_cons hi) hs⟩

theorem received_badFcs (hp : p < 512) : Received s ((s.laneData p).count Ix.rxFcsError (p + 1) 1) := by
  obtain ⟨hrest, hregs⟩ := received_laneData (s := s) hp
  refine ⟨?_, fun ix sub hi hs => (reg_setReg_of_index_ne _ _ ?_ hs (by omega)).trans (hregs ix sub hi hs)⟩
  · rw [State.count, State.setReg, hrest]
  · exact List.ne_of_not_mem_cons (List.not_mem_of_not_mem_cons hi)

section
variable {w : List Byte} (hlong : 60 ≤ w.length) (hfits : w.length + 4 ≤ s.reg Ix.portMaxFrame (p + 1)) (hp : p < 512)
include hlong hfits hp

theorem checkCycle_good : s.checkCycle p w .good = (s.laneData p, .passes) := by
  unfold State.checkCycle
  simp only [laneData_reg (s := s) hp (ix := Ix.portMaxFrame) (by decide) (by omega : p + 1 < 65536)]
  rw [if_neg (by omega), if_neg (by omega)]

theorem checkCycle_badFcs : s.checkCycle p w .badFcs = ((s.laneData p).count Ix.rxFcsError (p + 1) 1, .stomped w) := by
  unfold State.checkCycle
  simp only [laneData_reg (s := s) hp (ix := Ix.portMaxFrame) (by decide) (by omega : p + 1 < 65536)]
  rw [if_neg (by omega), if_neg (by omega)]

end

/-- The pair notes the port of the frame it has received. -/
def fromPortA (c : State) (k : Nat) : State := c.setPtPair k { c.ptPair k with fromA := true }

section
variable {c : State} {k : Nat} (hc : Received s c) (hk : k < 256)
include hc

theorem Received.reg_fromPortA {ix sub : Nat} (hi : ix ∉ [Ix.laneStatus, Ix.rxFcsError]) (hs : sub < 65536) :
    (fromPortA c k).reg ix sub = s.reg ix sub := hc.regs ix sub hi hs

theorem Received.ptPair_fromPortA : (fromPortA c k).ptPair k = { s.ptPair k with fromA := true } := by
  rw [fromPortA, ptPair_setPtPair_same, hc.rest]; rfl

theorem Received.syncAt (d : Nat) (r : Raw) : (fromPortA c k).syncAt d r = s.syncAt d r := by
  rw [fromPortA, hc.rest]; rfl

theorem Received.masterCapable : (fromPortA c k).masterCapable k = s.masterCapable k := by
  have hring (m : Nat) (hm : m < 16) : ((fromPortA c k).regB Ix.henayRingEnable (m + 1) && (fromPortA c k).watchPair m == some k) =
      (s.regB Ix.henayRingEnable (m + 1) && s.watchPair m == some k) := by
    simp only [State.regB, State.watchPair, fromPortA, setPtPair_reg, hc.regs Ix.henayRingEnable (m + 1) (by decide) (by omega),
      hc.regs Ix.henayWatchPair (m + 1) (by decide) (by omega)]
  unfold State.masterCapable
  rw [Bool.eq_iff_iff]
  simp only [List.any_eq_true, List.mem_range]
  exact exists_congr fun m => and_congr_right fun hm => by rw [hring m hm]

include hk

/-- No element of a pair is among those of its port's lanes. -/
theorem Received.reg_pair {ix : Nat} (hi : Ix.laneStatus < ix) : (fromPortA c k).reg ix (k + 1) = s.reg ix (k + 1) :=
  hc.reg_fromPortA (fun h => by
    simp only [List.mem_cons, List.not_mem_nil, or_false] at h
    rcases h with rfl | rfl
    · exact absurd hi (by decide)
    · exact absurd hi (by decide)) (by omega)

theorem Received.pairTiming : (fromPortA c k).pairTiming k = s.pairTiming k := by
  simp (disch := decide) only [State.pairTiming, State.regI, hc.reg_pair hk]

theorem Received.serving (cyc : Nat) (late : Bool) : (fromPortA c k).serving k cyc late = s.serving k cyc late := by
  have hlens : (fromPortA c k).lens = s.lens := by rw [fromPortA, hc.rest]; rfl
  have hdraws : (fromPortA c k).draws = s.draws := by rw [fromPortA, hc.rest]; rfl
  simp (disch := decide) only [State.serving, State.ptInSize, State.ptOutSize, State.tableLen, State.claimState, hlens, hdraws,
    hc.masterCapable, hc.ptPair_fromPortA, hc.reg_pair hk]

end
end

section
/-! ### What serving a frame leaves in the pair (R246, R257, R264, R266) -/

/-- The objects a served frame may change beside the counts of datagrams served and not ready. -/
def serviceObjects : List Nat :=
  [Ix.henayPtRangeErrors, Ix.henayPtLateOutputs, Ix.henayPtNullSeen, Ix.henayPtClaimState, Ix.henayPtClaimSlot, Ix.servoSamplesRejected]

variable {s : State} {k : Nat}

/-- The record of pair `x` once it has served a frame of cycle `cyc`. -/
def servedPair (x : PtPair) (cyc : Nat) (h : CycleHead) (v : Service) (lost : Bool) : PtPair :=
  let c := State.ptCycle x cyc
  let null := bit h.flags 0
  let c1 := { c with served := min 255 (c.served + v.served), notReady := min 255 (c.notReady + v.notReady),
                     stored := c.stored || !null, nullSeen := c.nullSeen || null, frameSeen := true,
                     invalid := c.invalid || bit h.flags 4, late := c.late || decide (0 < v.lateOutputs) }
  let x1 := v.writes.foldl (fun y e => State.storeOutput y e.1 e.2) { x with cur := c1, served := true }
  match v.claimed with
  | some j => { x1 with claim := some (j, cyc) }
  | none => if lost then { x1 with claim := none } else x1

theorem storeOutputs_keeps (ws : List (Nat × List Byte)) (x : PtPair) :
    (ws.foldl (fun y e => State.storeOutput y e.1 e.2) x).seen = x.seen ∧
      (ws.foldl (fun y e => State.storeOutput y e.1 e.2) x).served = x.served := by
  induction ws generalizing x with
  | nil => exact ⟨rfl, rfl⟩
  | cons e ws ih => exact ih _

theorem servedPair_keeps (x : PtPair) (cyc : Nat) (h : CycleHead) (v : Service) (lost : Bool) :
    (servedPair x cyc h v lost).seen = x.seen ∧ (servedPair x cyc h v lost).served = true := by
  unfold servedPair
  dsimp only
  split
  · exact storeOutputs_keeps ..
  · split <;> exact storeOutputs_keeps ..

/-- A pair's counts of datagrams after a frame. -/
def datagramsCounted (t : State) (k : Nat) (v : Service) : State :=
  (t.count Ix.henayPtServed (k + 1) v.served).count Ix.henayPtNotReady (k + 1) v.notReady

theorem datagramsCounted_reg (t : State) (v : Service) {ix sub : Nat} (hi : ix ∉ [Ix.henayPtServed, Ix.henayPtNotReady])
    (hs : sub < 65536) (hk : k < 256) : (datagramsCounted t k v).reg ix sub = t.reg ix sub := by
  simp only [List.mem_cons, List.not_mem_nil, or_false, not_or] at hi
  exact (reg_setReg_of_index_ne _ _ hi.2 hs (by omega)).trans (reg_setReg_of_index_ne _ _ hi.1 hs (by omega))

theorem datagramsCounted_ptPair (t : State) (v : Service) (j : Nat) : (datagramsCounted t k v).ptPair j = t.ptPair j := rfl

theorem datagramsCounted_served (t : State) (v : Service) (hk : k < 256) : (datagramsCounted t k v).reg Ix.henayPtServed (k + 1) =
    (t.reg Ix.henayPtServed (k + 1) + v.served) % 18446744073709551616 := by
  rw [datagramsCounted, State.count, reg_setReg_of_index_ne _ _ (by decide) (by omega) (by omega), reg_count_same, wrapAdd_64]

theorem datagramsCounted_notReady (t : State) (v : Service) (hk : k < 256) : (datagramsCounted t k v).reg Ix.henayPtNotReady (k + 1) =
    (t.reg Ix.henayPtNotReady (k + 1) + v.notReady) % 18446744073709551616 := by
  rw [datagramsCounted, reg_count_same, wrapAdd_64, State.count, reg_setReg_of_index_ne _ _ (by decide) (by omega) (by omega)]

/-- A pair's other counts after a frame (R246, R256). -/
def failuresCounted (t : State) (k : Nat) (h : CycleHead) (v : Service) : State :=
  let t1 := (t.count Ix.henayPtRangeErrors (k + 1) v.rangeErrors).count Ix.henayPtLateOutputs (k + 1) v.lateOutputs
  if bit h.flags 0 then t1.count Ix.henayPtNullSeen (k + 1) 1 else t1

/-- The state of a pair's claim after a frame (R264, R266). -/
def claimShown (t : State) (k : Nat) (enabled : Bool) (v : Service) (lost : Bool) : State :=
  if enabled = false then t
  else
    match v.owned, v.claimed with
    | some j, _ =>
      if t.claimState k = 3 then t
      else (t.setReg Ix.henayPtClaimState (k + 1) 3).setReg Ix.henayPtClaimSlot (k + 1) j
    | none, some _ => t.setReg Ix.henayPtClaimState (k + 1) 2
    | none, none => if lost then t.setReg Ix.henayPtClaimState (k + 1) 1 else t

theorem noteService_eq (cyc : Nat) (h : CycleHead) (v : Service) (lost : Bool) :
    s.noteService k cyc h v lost =
      claimShown (failuresCounted (datagramsCounted (s.setPtPair k (servedPair (s.ptPair k) cyc h v lost)) k v) k h v) k
        (bit (s.reg Ix.henayPtClaim (k + 1)) 31) v lost := rfl

theorem keepsPairs_failuresCounted (h : CycleHead) (v : Service) (hk : k < 256) :
    KeepsPairs serviceObjects s (failuresCounted s k h v) := by
  have hcounted : KeepsPairs serviceObjects s ((s.count Ix.henayPtRangeErrors (k + 1) v.rangeErrors).count Ix.henayPtLateOutputs (k + 1)
      v.lateOutputs) :=
    ((KeepsPairs.refl s).count _ (by decide) (by omega)).count _ (by decide) (by omega)
  exact .ite (hcounted.count _ (by decide) (by omega)) hcounted

theorem keepsPairs_claimShown (enabled : Bool) (v : Service) (lost : Bool) (hk : k < 256) :
    KeepsPairs serviceObjects s (claimShown s k enabled v lost) := by
  have hstate (n : Nat) : KeepsPairs serviceObjects s (s.setReg Ix.henayPtClaimState (k + 1) n) :=
    (KeepsPairs.refl s).setReg _ (by decide) (by omega)
  unfold claimShown
  refine .ite (.refl s) ?_
  split
  · exact .ite (.refl s) ((hstate 3).setReg _ (by decide) (by omega))
  · exact hstate 2
  · exact .ite (hstate 1) (.refl s)

theorem keepsPairs_noteService (cyc : Nat) (h : CycleHead) (v : Service) (lost : Bool) (hk : k < 256) :
    KeepsPairs serviceObjects (datagramsCounted (s.setPtPair k (servedPair (s.ptPair k) cyc h v lost)) k v)
      (s.noteService k cyc h v lost) := by
  rw [noteService_eq]
  exact (keepsPairs_claimShown _ v lost hk).after (keepsPairs_failuresCounted h v hk)

theorem keepsPairs_offerSample (h : CycleHead) (rx : Raw) (delay : Int) (invalid : Bool) :
    KeepsPairs serviceObjects s (s.offerSample k h rx delay invalid) := by
  unfold State.offerSample
  refine .ite (.refl s) (KeepsPairs.foldl (fun t d hd => ?_) s)
  have hd4 := List.mem_range.mp hd
  exact .ite (.ite ((KeepsPairs.refl t).count _ (by decide) (by omega)) ⟨rfl, rfl, fun _ _ _ _ => rfl⟩) (.refl t)

end

section
/-! ### Passages through the pair (R245 to R249, R254, R275) -/

/-- The first passage is noted and counted, and its residence time shown, before the frame is served (R247, R249). -/
def firstPassage (u : State) (k cyc : Nat) (h : CycleHead) (rx tx : Raw) : State :=
  ((u.setPtPair k { u.ptPair k with seen := (u.ptPair k).seen ++ [(cyc, h.index)] }).count Ix.henayPtFrames (k + 1) 1).setReg
    Ix.henayPtResidence (k + 1) (ofSigned 32 (Frac.mk' ((tx - rx).toInt * 1000) 65536).whole)

section
variable (u : State) {k cyc : Nat} {h : CycleHead} {rx tx : Raw}

theorem firstPassage_reg {ix sub : Nat} (hi : ix ∉ [Ix.henayPtFrames, Ix.henayPtResidence]) (hs : sub < 65536)
    (hk : k < 256) : (firstPassage u k cyc h rx tx).reg ix sub = u.reg ix sub := by
  simp only [List.mem_cons, List.not_mem_nil, or_false, not_or] at hi
  exact (reg_setReg_of_index_ne _ _ hi.2 hs (by omega)).trans (reg_setReg_of_index_ne _ _ hi.1 hs (by omega))

theorem firstPassage_frames (hk : k < 256) : (firstPassage u k cyc h rx tx).reg Ix.henayPtFrames (k + 1) =
    (u.reg Ix.henayPtFrames (k + 1) + 1) % 18446744073709551616 := by
  rw [firstPassage, reg_setReg_of_index_ne _ _ (by decide) (by omega) (by omega), reg_count_same, wrapAdd_64,
    setPtPair_reg]

end

theorem keepsPairs_draws {objects : List Nat} {s : State} (n : Nat) : KeepsPairs objects s { s with draws := n } :=
  ⟨rfl, rfl, fun _ _ _ _ => rfl⟩

variable {u : State} {k inp out cyc : Nat} {w : List Byte} {rx tx : Raw} {h : CycleHead} (hver : h.version = 1)
  (hcyc : (u.pairTiming k).cycleOf h.counter (u.syncAt (u.pairTiming k).dom rx) = some cyc)
include hver hcyc

/-- A start claim and a frame that passes again are forwarded as they are (R248, R275). -/
theorem passFrame_unserved {fromA ok : Bool} (hpass : (cyc, h.index) ∈ (u.ptPair k).seen ∨ isStartClaim h w = true) :
    u.passFrame k fromA inp out w ok rx tx h = u.forward out w ok tx := by
  unfold State.passFrame
  simp only [hver, hcyc]
  rw [if_neg (by decide), if_pos (by simpa using hpass.symm)]

/-- A good frame is served on its first passage, and forwarded with its delay added up (R246, R249, R254). -/
theorem passFrame_served {fromA : Bool} {delay : Int} {v : Service} (hclaim : isStartClaim h w = false)
    (hseen : (cyc, h.index) ∉ (u.ptPair k).seen) (hdelay : u.linkDelay k fromA inp = (u, delay))
    (hv : v = (h.datagrams w).foldl (serveDatagram (u.serving k cyc
      (decide ((u.pairTiming k).start cyc + (u.pairTiming k).output * 65536 ≤ u.syncAt (u.pairTiming k).dom rx)))) { w := w })
    (hk : k < 256) :
    ∃ t x, u.passFrame k fromA inp out w true rx tx h = t.forward out
        (patch v.w (h.at_ + 24) (beBytes 8 (ofSigned 64 (h.accum + delay + (tx - rx).toInt)))) true tx ∧
      x.seen = (u.ptPair k).seen ++ [(cyc, h.index)] ∧ x.served = true ∧
      KeepsPairs serviceObjects (datagramsCounted ((firstPassage u k cyc h rx tx).setPtPair k x) k v) t := by
  unfold State.passFrame
  simp only [hver, hcyc, hdelay, ← hv, if_true]
  rw [if_neg (by decide), if_neg (by simp [hclaim, hseen])]
  obtain ⟨hxseen, hxserved⟩ := servedPair_keeps ((firstPassage u k cyc h rx tx).ptPair k) cyc h v (u.claimLost k cyc h (h.datagrams w))
  have hpair : (firstPassage u k cyc h rx tx).ptPair k = _ := ptPair_setPtPair_same ..
  refine ⟨_, _, rfl, hxseen.trans (by rw [hpair]), hxserved, (keepsPairs_draws _).after ?_⟩
  exact (keepsPairs_offerSample ..).after (keepsPairs_noteService (s := firstPassage u k cyc h rx tx) cyc h v _ hk)

end

section
/-! ### CYCLE_FRAME_PASS -/

/-- A frame of the pair's ring, with head `h` and of a length its port takes, reaches port A of pair `k`, which serves, and may leave
by port B. -/
structure AtPortA (s : State) (k inp out : Nat) (frame : List Byte) (h : CycleHead) : Prop where
  pair : k < 256
  head : cycleHead (s.reg Ix.henayEthertype 0) frame = some h
  serves : s.pairServes k = true
  portA : s.reg Ix.henayPtPortA (k + 1) = inp
  portB : s.reg Ix.henayPtPortB (k + 1) = out
  inLow : inp < 512
  outLow : out < 512
  inUp : s.portUp inp = true
  outUp : s.portUp out = true
  ring : h.ring = s.reg Ix.henayPtRingId (k + 1)
  long : 60 ≤ frame.length
  fits : frame.length + 4 ≤ s.reg Ix.portMaxFrame (inp + 1)

variable {s : State} {k inp out : Nat} {frame : List Byte} {h : CycleHead} (a : AtPortA s k inp out frame h)
  (capture launch : Raw) (rxPipe txPipe : Int)
include a

/-- A good frame passes the pair, and the rings that watch the pair see it. -/
theorem AtPortA.exec_good : exec (.cycleFramePass k true frame .good capture rxPipe launch txPipe) s =
    .next (((fromPortA (s.laneData inp) k).passFrame k true inp out frame true (s.rxTimestamp inp capture rxPipe)
      (s.txTimestamp out launch txPipe) h).watchPass k h frame) := by
  have hout : out ≠ 0xFFFF ∧ s.portUp out = true := ⟨by have := a.outLow; omega, a.outUp⟩
  show execCycleFramePass k true frame .good capture rxPipe launch txPipe s = _
  unfold execCycleFramePass
  simp only [if_true, a.head, a.portA, a.portB, if_pos hout, checkCycle_good a.long a.fits a.inLow]
  rw [if_neg (Nat.not_le.mpr a.pair), if_neg (by simp [a.serves, a.inUp, a.ring])]
  rfl

/-- A frame with a wrong FCS is counted by its port, and what passes on of it is stomped. -/
theorem AtPortA.exec_badFcs : exec (.cycleFramePass k true frame .badFcs capture rxPipe launch txPipe) s =
    .next ((fromPortA ((s.laneData inp).count Ix.rxFcsError (inp + 1) 1) k).passFrame k true inp out frame false
      (s.rxTimestamp inp capture rxPipe) (s.txTimestamp out launch txPipe) h) := by
  have hout : out ≠ 0xFFFF ∧ s.portUp out = true := ⟨by have := a.outLow; omega, a.outUp⟩
  show execCycleFramePass k true frame .badFcs capture rxPipe launch txPipe s = _
  unfold execCycleFramePass
  simp only [if_true, a.head, a.portA, a.portB, if_pos hout, checkCycle_badFcs a.long a.fits a.inLow]
  rw [if_neg (Nat.not_le.mpr a.pair), if_neg (by simp [a.serves, a.inUp, a.ring])]
  rfl

end

section
/-! ### Its passages -/

variable {s c : State} {k inp out cyc : Nat} {frame : List Byte} {h : CycleHead} (a : AtPortA s k inp out frame h) {rx tx : Raw}
  (hcyc : (s.pairTiming k).cycleOf h.counter (s.syncAt (s.pairTiming k).dom rx) = some cyc) (hver : h.version = 1) (hc : Received s c)

include a hcyc hc in
/-- What is received changes neither the pair's timing nor its time. -/
theorem AtPortA.cycleOf_received : ((fromPortA c k).pairTiming k).cycleOf h.counter
    ((fromPortA c k).syncAt ((fromPortA c k).pairTiming k).dom rx) = some cyc := by
  rw [hc.pairTiming a.pair, hc.syncAt, hcyc]

include a hcyc hver hc in
theorem AtPortA.passFrame_unserved {ok : Bool} (hpass : (cyc, h.index) ∈ (s.ptPair k).seen ∨ isStartClaim h frame = true) :
    (fromPortA c k).passFrame k true inp out frame ok rx tx h = (fromPortA c k).forward out frame ok tx :=
  Proofs.passFrame_unserved hver (a.cycleOf_received hcyc hc) (by rwa [hc.ptPair_fromPortA])

include hc in
/-- A link delay that is set counts as it stands (R254). -/
theorem Received.linkDelay (hk : k < 256) (hset : s.regI Ix.henayPtLinkDelayA (k + 1) 4 ≠ -2147483648) :
    (fromPortA c k).linkDelay k true inp = (fromPortA c k, psToRu (s.regI Ix.henayPtLinkDelayA (k + 1) 4)) := by
  have hdelay : (fromPortA c k).regI Ix.henayPtLinkDelayA (k + 1) 4 = s.regI Ix.henayPtLinkDelayA (k + 1) 4 :=
    congrArg (toSigned 32) (hc.reg_pair hk (by decide))
  unfold State.linkDelay
  simp only [if_true, hdelay]
  rw [if_pos hset]

include a hcyc hver in
/-- A first passage: the frame is served, its delay added up, and it leaves by port B (R245 to R249, R254). -/
theorem AtPortA.firstPassage_clause {capture launch : Raw} {rxPipe txPipe : Int} {v : Service}
    (hrx : rx = s.rxTimestamp inp capture rxPipe) (htx : tx = s.txTimestamp out launch txPipe) (hclaim : isStartClaim h frame = false)
    (hseen : (cyc, h.index) ∉ (s.ptPair k).seen) (hset : s.regI Ix.henayPtLinkDelayA (k + 1) 4 ≠ -2147483648)
    (hv : v = (h.datagrams frame).foldl (serveDatagram (s.serving k cyc
      (decide ((s.pairTiming k).start cyc + (s.pairTiming k).output * 65536 ≤ s.syncAt (s.pairTiming k).dom rx)))) { w := frame }) :
    ∃ t : State, exec (.cycleFramePass k true frame .good capture rxPipe launch txPipe) s = .next t ∧
      (t.ptPair k).seen = (s.ptPair k).seen ++ [(cyc, h.index)] ∧ (t.ptPair k).served = true ∧
      t.reg Ix.henayPtFrames (k + 1) = (s.reg Ix.henayPtFrames (k + 1) + 1) % 18446744073709551616 ∧
      t.reg Ix.henayPtServed (k + 1) = (s.reg Ix.henayPtServed (k + 1) + v.served) % 18446744073709551616 ∧
      t.reg Ix.henayPtNotReady (k + 1) = (s.reg Ix.henayPtNotReady (k + 1) + v.notReady) % 18446744073709551616 ∧
      s.sentOn t out (patch v.w (h.at_ + 24) (beBytes 8 (ofSigned 64 (h.accum + psToRu (s.regI Ix.henayPtLinkDelayA (k + 1) 4) +
        (tx - rx).toInt)))) tx 1 := by
  have hk := a.pair
  have hsub : k + 1 < 65536 := by omega
  have hc : Received s (s.laneData inp) := received_laneData a.inLow
  have hpair := hc.ptPair_fromPortA (k := k)
  obtain ⟨t, x, hpass, hxseen, hxserved, hkeeps⟩ := passFrame_served (w := frame) (out := out) (tx := tx) (v := v) hver
    (a.cycleOf_received hcyc hc) hclaim (by rwa [hpair]) (hc.linkDelay hk hset (inp := inp))
    (by rwa [hc.serving hk, hc.pairTiming hk, hc.syncAt]) hk
  generalize hw : patch v.w _ _ = w at hpass ⊢
  have hwatch := keepsPairs_watchPass (s := t.forward out w true tx) k h frame
  have hx : ((t.forward out w true tx).watchPass k h frame).ptPair k = x := by
    rw [hwatch.ptPair, forward_ptPair, hkeeps.ptPair, datagramsCounted_ptPair, ptPair_setPtPair_same]
  have hreg {ix : Nat} (hi : ix ∉ serviceObjects ∧ ix ∉ forwardObjects ∧ ix ∉ watchObjects) :
      ((t.forward out w true tx).watchPass k h frame).reg ix (k + 1) =
        (datagramsCounted ((firstPassage (fromPortA (s.laneData inp) k) k cyc h rx tx).setPtPair k x) k v).reg ix (k + 1) := by
    rw [hwatch.regs _ _ hi.2.2 hsub, forward_reg _ _ _ hi.2.1 hsub a.outLow, hkeeps.regs _ _ hi.1 hsub]
  have hsent : t.reg Ix.txFrames (out + 1) = s.reg Ix.txFrames (out + 1) := by
    have hout : out + 1 < 65536 := by have := a.outLow; omega
    rw [hkeeps.regs _ _ (by decide) hout, datagramsCounted_reg _ _ (by decide) hout hk, setPtPair_reg,
      firstPassage_reg _ (by decide) hout hk, hc.reg_fromPortA (by decide) hout]
  refine ⟨_, by rw [a.exec_good, ← hrx, ← htx, hpass], ?_, ?_, ?_, ?_, ?_, sentOn_keeps (sentOn_forward w tx a.outLow hsent) hwatch a.outLow⟩
  · rw [hx, hxseen, hpair]
  · rw [hx, hxserved]
  · rw [hreg (by decide), datagramsCounted_reg _ _ (by decide) hsub hk, setPtPair_reg, firstPassage_frames _ hk, hc.reg_pair hk (by decide)]
  · rw [hreg (by decide), datagramsCounted_served _ _ hk, setPtPair_reg, firstPassage_reg _ (by decide) hsub hk,
      hc.reg_pair hk (by decide)]
  · rw [hreg (by decide), datagramsCounted_notReady _ _ hk, setPtPair_reg, firstPassage_reg _ (by decide) hsub hk,
      hc.reg_pair hk (by decide)]

end

section
/-! ### Later passages (R43, R248, R275) -/

variable {s c : State} {k inp out cyc : Nat} {frame : List Byte} {h : CycleHead} (a : AtPortA s k inp out frame h) {rx tx : Raw}
  {capture launch : Raw} {rxPipe txPipe : Int} (hrx : rx = s.rxTimestamp inp capture rxPipe) (htx : tx = s.txTimestamp out launch txPipe)
  (hcyc : (s.pairTiming k).cycleOf h.counter (s.syncAt (s.pairTiming k).dom rx) = some cyc) (hver : h.version = 1)
  (hpass : (cyc, h.index) ∈ (s.ptPair k).seen ∨ isStartClaim h frame = true)
include a hrx htx hcyc hver hpass

/-- A later passage leaves by port B as it is (R248, R275). -/
theorem AtPortA.laterPassage_clause : ∃ t : State, exec (.cycleFramePass k true frame .good capture rxPipe launch txPipe) s = .next t ∧
    s.sentOn t out frame tx 1 ∧ t.reg Ix.henayPtFrames (k + 1) = s.reg Ix.henayPtFrames (k + 1) ∧
    t.reg Ix.henayPtServed (k + 1) = s.reg Ix.henayPtServed (k + 1) := by
  have hk := a.pair
  have hsub : k + 1 < 65536 := by omega
  have hc : Received s (s.laneData inp) := received_laneData a.inLow
  have hwatch := keepsPairs_watchPass (s := (fromPortA (s.laneData inp) k).forward out frame true tx) k h frame
  have hreg {ix : Nat} (hi : Ix.laneStatus < ix ∧ ix ∉ forwardObjects ∧ ix ∉ watchObjects) :
      (((fromPortA (s.laneData inp) k).forward out frame true tx).watchPass k h frame).reg ix (k + 1) = s.reg ix (k + 1) := by
    rw [hwatch.regs _ _ hi.2.2 hsub, forward_reg _ _ _ hi.2.1 hsub a.outLow, hc.reg_pair hk hi.1]
  have hout : out + 1 < 65536 := by have := a.outLow; omega
  refine ⟨_, by rw [a.exec_good, ← hrx, ← htx, a.passFrame_unserved hcyc hver hc hpass], ?_, hreg (by decide), hreg (by decide)⟩
  exact sentOn_keeps (sentOn_forward frame tx a.outLow (hc.reg_fromPortA (by decide) hout)) hwatch a.outLow

/-- A later passage that fails its FCS is counted where it came in, and ends stomped where it leaves (R40, R43). -/
theorem AtPortA.stomped_clause : ∃ t : State, exec (.cycleFramePass k true frame .badFcs capture rxPipe launch txPipe) s = .next t ∧
    t.reg Ix.rxFcsError (inp + 1) = (s.reg Ix.rxFcsError (inp + 1) + 1) % 18446744073709551616 ∧
    t.reg Ix.txStomped (out + 1) = (s.reg Ix.txStomped (out + 1) + 1) % 18446744073709551616 ∧
    (tgetD t.fr.wire out {}).stomped = true := by
  have hin : inp + 1 < 65536 := by have := a.inLow; omega
  have hout : out + 1 < 65536 := by have := a.outLow; omega
  have hc : Received s ((s.laneData inp).count Ix.rxFcsError (inp + 1) 1) := received_badFcs a.inLow
  refine ⟨_, by rw [a.exec_badFcs, ← hrx, ← htx, a.passFrame_unserved hcyc hver hc hpass], ?_, ?_, by rw [forward_wire]; rfl⟩
  · rw [forward_reg _ _ _ (by decide) hin a.outLow, fromPortA, setPtPair_reg, reg_count_same, wrapAdd_64,
      laneData_reg a.inLow (by decide) hin]
  · refine (forward_count frame false tx a.outLow).trans ?_
    rw [if_pos (by decide), hc.reg_fromPortA (by decide) hout]

end

end Sys2Proof.Proofs
end

section
/-! The datagrams, inputs and outputs of a pass-through pair, and its cycle (R246, R247, R256, R260, R262). -/

namespace Sys2Proof.Proofs
open Sys2Proof Sys2Proof.Machine Sys2Proof.Laws

section
/-! ### Datagrams, and a pair's inputs (R246, R247, R256, R260) -/

/-- A write to the node's address within its area is done, and adds the node's weight (R247). -/
theorem serveDatagram_write {c : Serving} {v : Service} {g : Datagram} (ha : g.addr = c.addr) (hlow : 1 ≤ g.addr) (hhigh : g.addr ≤ 0x400)
    (hcmd : g.cmd = cmdWrite) (hlate : c.late = false) : serveDatagram c v g =
      if c.outSize < g.offset + g.len then
        { v with
          owned := some g.slot, notReady := v.notReady + 1, rangeErrors := v.rangeErrors + 1
          w := patch v.w (g.at_ + 6) [BitVec.ofNat 8 (setBit (beField v.w (g.at_ + 6) 1) 4)] }
      else
        { v with
          owned := some g.slot, served := v.served + 1, writes := v.writes ++ [(g.offset, slice v.w (g.at_ + 12) g.len)]
          w := patch v.w (g.at_ + 8) (beBytes 2 ((g.receipt + g.addr) % 65536)) } := by
  have hmine : (g.addr != 0 && g.addr == c.addr) = true := by simp [ha]; omega
  have hreads : (g.cmd == cmdRead || g.cmd == cmdReadWrite) = false := by rw [hcmd]; decide
  have hwrites : (g.cmd == cmdWrite || g.cmd == cmdReadWrite) = true := by rw [hcmd]; decide
  have hweight : c.weight = g.addr := by rw [Serving.weight, if_neg (by omega), ha]
  have howned : g.addr = c.addr ∧ g.addr ≠ 0xFFFF := ⟨ha, by omega⟩
  unfold serveDatagram
  rw [if_neg (by omega), if_neg (by rw [hcmd]; decide)]
  simp only [hreads, hwrites, hmine, hlate, if_pos howned, Service.fail, Service.done, hweight, Bool.true_or, Bool.or_true, Bool.and_true,
    Bool.true_and, Bool.false_and, Bool.false_or, Bool.and_false, if_true, if_false, decide_eq_true_eq, Bool.false_eq_true, ofBool, Nat.add_zero]

/-- An input sample begins a gather, the last sampled cycle kept beside it (R256). -/
theorem exec_ptInputSample {s : State} {k cyc : Nat} (hk : k < 256) (hs : s.pairServes k = true)
    (hc : s.pairCycle k (s.pairTiming k).input = cyc) (hn : (s.ptPair k).sampled ≠ some cyc) :
    exec (.ptInputSample k) s = .next (s.setPtPair k { s.ptPair k with
      sampled := some cyc, inputs := (s.ptPair k).inputs.drop ((s.ptPair k).inputs.length - 1) ++ [(cyc, none)] }) := by
  show execPtInputSample k s = _
  simp only [execPtInputSample, hc, Int.toNat_natCast]
  rw [if_neg (Nat.not_le.mpr hk), if_neg (by simp [hs, hn])]

/-- The oldest gather under way completes (R256, R260). -/
theorem exec_ptGatherDone {s : State} {k cyc : Nat} (hk : k < 256)
    (hf : (s.ptPair k).inputs.find? (fun e => e.2.isNone) = some (cyc, none)) :
    exec (.ptGatherDone k) s = .next (s.setPtPair k { s.ptPair k with inputs := (s.ptPair k).inputs.map fun e => if e.1 = cyc then (cyc, some
      ((s.gatherFrom (s.reg Ix.henayPtGatherBase (k + 1)) (s.reg Ix.henayPtGatherSize (k + 1)) Ix.henayPtGatherList (k + 1)).take
        (s.ptInSize k))) else e }) := by
  show execPtGatherDone k s = _
  simp only [execPtGatherDone, hf]
  rw [if_neg (Nat.not_le.mpr hk)]

end

section
/-! ### Outputs latched (R256, R262) -/

/-- `t` has the pairs of `s`, and host memory can be written in it as in `s`. -/
structure KeepsHost (s t : State) : Prop where
  ri : t.ri = s.ri
  hostOn : t.hostOn = s.hostOn

namespace KeepsHost

variable {s t u : State}

theorem refl (s : State) : KeepsHost s s := ⟨rfl, rfl⟩

theorem trans (h : KeepsHost s t) (h' : KeepsHost t u) : KeepsHost s u := ⟨h'.ri.trans h.ri, h'.hostOn.trans h.hostOn⟩

theorem foldl {α : Type} {f : State → α → State} (hf : ∀ t a, KeepsHost t (f t a)) (l : List α) (s : State) :
    KeepsHost s (l.foldl f s) := by
  induction l generalizing s with
  | nil => exact refl s
  | cons a l ih => exact (hf s a).trans (ih _)

theorem ite {c : Prop} [Decidable c] (h : KeepsHost s t) (h' : KeepsHost s u) : KeepsHost s (if c then t else u) := by
  split
  · exact h
  · exact h'

/-- A write of an element other than the straps keeps the host island. -/
theorem setReg (h : KeepsHost s t) {i j : Nat} (v : Nat) (hk : dictKey Ix.strapValues 0 ≠ dictKey i j) : KeepsHost s (t.setReg i j v) :=
  ⟨h.ri, by rw [← h.hostOn]; simp only [State.hostOn, reg_setReg_ne _ _ _ _ _ _ hk, setReg_sy]⟩

theorem event (h : KeepsHost s t) (c v i : Nat) (ps : List (Nat × Nat)) : KeepsHost s (t.event c v i ps) :=
  ⟨by rw [event_ri, h.ri], by
    rw [← h.hostOn]; simp only [State.hostOn, reg_event t c v i ps Ix.strapValues 0 (by decide), event_sy]⟩

end KeepsHost

/-- No element of an object behind the straps is the straps. -/
theorem straps_ne_of_lt {i : Nat} (j : Nat) (h : Ix.strapValues < i) : dictKey Ix.strapValues 0 ≠ dictKey i j := by
  have hi : 0x2031 < i := h
  simp only [dictKey, Ix.strapValues]
  omega

variable (s : State)

theorem keepsHost_noteBadRead (who a n : Nat) : KeepsHost s (s.noteBadRead who a n) := by
  have hcount (t : State) (c : Nat) : KeepsHost t (t.countUncorrectable c) :=
    ((KeepsHost.refl t).setReg _ (straps_ne_of_lt _ (by decide))).trans ⟨rfl, rfl⟩
  have hleave (t : State) : KeepsHost t (t.leaveGuarantee 3) :=
    (((KeepsHost.refl t).setReg _ (by decide)).setReg _ (by decide)).setReg _ (by decide)
  unfold State.noteBadRead
  refine .ite (KeepsHost.foldl (fun t w => ?_) _ s) (.refl s)
  exact .ite (.ite (.refl t) ((hleave t).event ..)) (.ite (KeepsHost.foldl hcount _ t) (.refl t))

theorem keepsHost_noteWord (a n w : Nat) : KeepsHost s (State.noteWord a n s w) := by
  have hrmw {t : State} (h : KeepsHost s t) (c : Nat) : KeepsHost s (t.count Ix.memRmw c 1) :=
    h.setReg _ (straps_ne_of_lt _ (by decide))
  unfold State.noteWord
  exact .ite ⟨rfl, rfl⟩ (.ite (hrmw (hrmw (.refl s) _) _) (hrmw (.refl s) _))

theorem keepsHost_store (a : Nat) (bs : List Byte) : KeepsHost s (s.store a bs) := by
  unfold State.store
  have hwords (t : State) (ws : List Nat) : KeepsHost t (ws.foldl (State.noteWord (spaceAddr a) bs.length) t) :=
    KeepsHost.foldl (fun u w => keepsHost_noteWord u _ _ w) ws t
  refine .ite (KeepsHost.trans ?_ (hwords _ _)) ⟨rfl, rfl⟩
  exact ⟨rfl, rfl⟩

theorem keepsHost_storeFor (who a : Nat) (bs : List Byte) : KeepsHost s (s.storeFor who a bs) := by
  unfold State.storeFor
  exact .ite (keepsHost_store s a bs) (keepsHost_noteBadRead s who a _)

theorem keepsHost_scatterInto (who size : Nat) (as : List Nat) (bs : List Byte) : KeepsHost s (State.scatterInto who size s as bs) := by
  induction as generalizing s bs with
  | nil => exact .refl s
  | cons a as ih => exact (keepsHost_storeFor s who a _).trans (ih _ _)

/-- Whether host memory can be written depends on the address and the host island alone. -/
theorem writeOk_host {a : Nat} (n : Nat) (h : isLpddr a = false) :
    s.writeOk a n = (decide (spaceAddr a + n ≤ 9223372036854775808) && s.hostOn) := by
  simp [State.writeOk, State.memExists, h]

/-- Host memory reads as it was written. -/
theorem load_storeFor_host {who a : Nat} {bs : List Byte} (h : isLpddr a = false) (hw : s.writeOk a bs.length = true) :
    (s.storeFor who a bs).load a bs.length = bs := by
  rw [State.storeFor, if_pos hw, State.load, if_neg (by simp [h]), store_host, if_neg (by simp [h]), memBytes_memStore]

theorem length_ptStatus (x : PtPair) (cyc : Nat) (latched : Bool) (instant : Raw) : (State.ptStatus x cyc latched instant).length = 16 := by
  simp [State.ptStatus, length_leBytes]

/-- At the output latch the outputs are scattered, or hold, the status is stored, and the cycle is noted (R256, R262). -/
theorem latchOutputs_spec (k cyc : Nat) : ∃ (u : State) (x : PtPair), KeepsHost s u ∧ x.latched = some cyc ∧
    s.latchOutputs k cyc =
      (if s.reg Ix.henayPtStatusAddr (k + 1) = 0 then u
        else u.storeFor (0xD000 + k) (s.reg Ix.henayPtStatusAddr (k + 1)) (State.ptStatus (s.ptPair k) cyc
          ((s.ptPair k).cur.k == cyc && (s.ptPair k).cur.stored) (s.raw + BitVec.ofInt 64 (s.rawDelta (s.pairTiming k).dom
            ((s.pairTiming k).start cyc + (s.pairTiming k).output * 65536))))).setPtPair k x :=
  ⟨_, _, .ite (keepsHost_scatterInto ..) (.refl s), rfl, rfl⟩

theorem exec_ptOutputLatch {k cyc : Nat} (hk : k < 256) (hs : s.pairServes k = true)
    (hc : s.pairCycle k (s.pairTiming k).output = cyc) (hn : (s.ptPair k).latched ≠ some cyc) :
    exec (.ptOutputLatch k) s = .next (s.latchOutputs k cyc) := by
  show execPtOutputLatch k s = _
  simp only [execPtOutputLatch, hc, Int.toNat_natCast]
  rw [if_neg (Nat.not_le.mpr hk), if_neg (by simp [hs, hn])]

/-- A cycle is latched once. -/
theorem exec_ptOutputLatch_again {k cyc : Nat} (hc : s.pairCycle k (s.pairTiming k).output = cyc)
    (hn : (s.ptPair k).latched = some cyc) : exec (.ptOutputLatch k) s = .next s := by
  show execPtOutputLatch k s = _
  simp only [execPtOutputLatch, hc, Int.toNat_natCast, hn, or_true, if_true, ite_self]

/-- The cycle is noted, and the status record stands in host memory (R262). -/
theorem outputLatch_clause {k cyc addr : Nat} (hk : k < 256) (hs : s.pairServes k = true)
    (hc : s.pairCycle k (s.pairTiming k).output = cyc) (hn : (s.ptPair k).latched ≠ some cyc)
    (haddr : addr = s.reg Ix.henayPtStatusAddr (k + 1)) :
    ∃ t : State, exec (.ptOutputLatch k) s = .next t ∧ (t.ptPair k).latched = some cyc ∧ (∀ j, j ≠ k → t.ptPair j = s.ptPair j) ∧
      (addr ≠ 0 → isLpddr addr = false → s.writeOk addr 16 = true →
        t.load addr 16 = State.ptStatus (s.ptPair k) cyc ((s.ptPair k).cur.k == cyc && (s.ptPair k).cur.stored)
          (s.raw + BitVec.ofInt 64 (s.rawDelta (s.pairTiming k).dom ((s.pairTiming k).start cyc + (s.pairTiming k).output * 65536)))) := by
  obtain ⟨u, x, hkeeps, hx, heq⟩ := latchOutputs_spec s k cyc
  rw [← haddr] at heq
  generalize hr : State.ptStatus (s.ptPair k) cyc _ _ = record at heq ⊢
  have hlen : record.length = 16 := by rw [← hr, length_ptStatus]
  refine ⟨_, exec_ptOutputLatch s hk hs hc hn, ?_, fun j hj => ?_, fun h0 hhost hw => ?_⟩
  · rw [heq, ptPair_setPtPair_same, hx]
  · rw [heq, ptPair_setPtPair_ne _ _ _ hj]
    have hpairs := (KeepsHost.ite (c := addr = 0) hkeeps (hkeeps.trans (keepsHost_storeFor u (0xD000 + k) addr record))).ri
    rw [State.ptPair, hpairs]; rfl
  · have hwu : u.writeOk addr record.length = true := by
      rw [writeOk_host _ _ hhost, hkeeps.hostOn, hlen, ← writeOk_host _ _ hhost, hw]
    rw [heq, if_neg h0, ← hlen]
    exact load_storeFor_host u hhost hwu

end

/-- Settles O40: a frame that reaches a serving pair is cut into what is received, what serving it leaves, and what is forwarded; the
rings that watch it change none of these. -/
theorem ringPairs : Obligations.RingPairs := by
  refine ⟨fun s k inp out cyc frame capture launch rxPipe txPipe h v hk hhead hserves hin hout hinl houtl _ hinUp houtUp hring hlong hfits
      hver hcyc hclaim hseen hset hv => ?first,
    fun s k inp out cyc frame capture launch rxPipe txPipe h hk hhead hserves hin hout hinl houtl _ hinUp houtUp hring hlong hfits
      hver hcyc hpass => ?later,
    fun c v g ha hlow hhigh hcmd hlate => ⟨fun hin => ?written, fun hout => ?outside⟩,
    fun s k cyc hk hserves hcyc hnew => ⟨_, exec_ptInputSample hk hserves hcyc hnew, ptPair_setPtPair_same ..,
      fun j hj => ptPair_setPtPair_ne _ _ _ hj, rfl⟩,
    fun s k cyc hk hfind => ⟨_, exec_ptGatherDone hk hfind, ptPair_setPtPair_same .., fun j hj => ptPair_setPtPair_ne _ _ _ hj, rfl⟩,
    fun s k cyc addr hk hserves hcyc hnew haddr => outputLatch_clause s hk hserves hcyc hnew haddr,
    fun s k cyc _ hcyc hdone => exec_ptOutputLatch_again s hcyc hdone⟩
  case first =>
    have a : AtPortA s k inp out frame h := ⟨hk, hhead, hserves, hin.symm, hout.symm, hinl, houtl, hinUp, houtUp, hring, hlong, hfits⟩
    exact a.firstPassage_clause hcyc hver rfl rfl hclaim hseen hset hv
  case later =>
    have a : AtPortA s k inp out frame h := ⟨hk, hhead, hserves, hin.symm, hout.symm, hinl, houtl, hinUp, houtUp, hring, hlong, hfits⟩
    exact ⟨a.laterPassage_clause rfl rfl hcyc hver hpass, a.stomped_clause rfl rfl hcyc hver hpass⟩
  case written => rw [serveDatagram_write ha hlow hhigh hcmd hlate, if_neg (by omega)]
  case outside => rw [serveDatagram_write ha hlow hhigh hcmd hlate, if_pos hout]

end Sys2Proof.Proofs
end

section
/-! Quorum of a domain (R287): a counterexample to what a loss of quorum is said to show. -/

namespace Sys2Proof.Proofs
open Sys2Proof Sys2Proof.Machine Sys2Proof.Laws

/-- The number at which a domain's QUORUM_STATE has the key of EVENT_NEWEST. -/
def strayDomain : Nat := (Ix.eventNewest - Ix.quorumState) * 65536 - 1

/-- The domain has quorum enabled and held so far, and no weight that would hold it. -/
def strayQuorum : State :=
  (State.reset.setReg Ix.quorumEnable (strayDomain + 1) 1).setReg Ix.quorumState (strayDomain + 1) 1

theorem strayQuorum_lost : strayQuorum.quorumHolds strayDomain = false := by decide +kernel

theorem strayQuorum_unpartitioned : strayQuorum.domState strayDomain ≠ 4 := by decide +kernel

theorem strayQuorum_state : strayQuorum.reg Ix.quorumState (strayDomain + 1) = 1 := reg_setReg_same ..

/-- The loss is logged after the state is shown, and the number of its log entry is written over the state. -/
theorem strayQuorum_state_after : (strayQuorum.judgeQuorum strayDomain).reg Ix.quorumState (strayDomain + 1) = 1 := by
  decide +kernel

/-- Refutes O37: its clause of the loss bounds no domain, where the clauses of the commands say `d < 4`. In `strayQuorum`, whose domain is
a number no device has, QUORUM_STATE of the domain is EVENT_NEWEST, which the event of the loss sets to 1. -/
theorem not_quorum : ¬ Obligations.Quorum := by
  rintro ⟨-, -, -, -, -, hloss, -⟩
  obtain ⟨t, rfl, -, hstate, -⟩ := hloss strayQuorum strayDomain strayQuorum_lost strayQuorum_unpartitioned strayQuorum_state
  exact absurd (strayQuorum_state_after.symm.trans hstate) (by decide)

end Sys2Proof.Proofs
end

section
/-! Claims of a master ring (R273, R275, R276): a counterexample to what the second claim of a slot is said to carry. -/

namespace Sys2Proof.Proofs
open Sys2Proof Sys2Proof.Machine Sys2Proof.Laws

/-- The number at which the clock class of a domain has the key of HENAY_TX_DELAYED of master ring 0. -/
def strayClassDomain : Nat := (Ix.henayTxDelayed - Ix.timeClockClass) * 65536

/-- A frame of port 0 in transmission. -/
def busyFrame : TxCopy where
  copy := { pkt := 0, index := 0, spec := { queue := 0, strip := false, asReceived := false }, seq := 0, enqueued := 0, alone := false,
            deferred := false }
  queue := 0
  bytes := []
  started := 0
  resumed := 0
  sent := 0
  ts := 0
  charged := 0
  cutThrough := false
  stomp := false
  cutAt := none
  preempted := false
  countedPre := false
  overrun := false

/-- Master ring 0 claims on a closed ring of ports 0 and 1, which are up. A frame in transmission delays its claim at port 0, and the
element of its domain holds a number above 65,535. -/
def strayClaimant : State :=
  let claiming : State :=
    { State.reset with
      sy := { hold := none }
      ri := { rings := [(0, { mode := 6 })] }
      fr := { State.reset.fr with tx := [(0, busyFrame)] } }
  [(Ix.islandState, State.ringIsland + 1, 3), (Ix.islandState, State.portIsland 0 + 1, 3), (Ix.portMode, 1, 2), (Ix.laneState, 1, 4),
    (Ix.portMode, 2, 2), (Ix.laneState, 2, 4), (Ix.henayTopology, 1, 0), (Ix.henayOutPort, 1, 0), (Ix.henayInPort, 1, 1),
    (Ix.henayDomain, 1, strayClassDomain)].foldl (fun s e => s.setReg e.1 e.2.1 e.2.2) claiming

theorem strayClaimant_claims : strayClaimant.claims 0 = true := by decide +kernel

theorem strayClaimant_closed : strayClaimant.reg Ix.henayTopology 1 = 0 := by decide +kernel

theorem strayClaimant_outPort : strayClaimant.reg Ix.henayOutPort 1 = 0 := by decide +kernel

theorem strayClaimant_inPort : strayClaimant.reg Ix.henayInPort 1 = 1 := by decide +kernel

theorem strayClaimant_inUp : strayClaimant.portUp 1 = true := by decide +kernel

theorem strayClaimant_noSlot : (strayClaimant.mring 0).slotAt = none := rfl

/-- Claim `n` of ring `m` leaves port `p` where that is up (R276). -/
def claimOn (s : State) (m n p : Nat) : State := if s.portUp p then s.sendCycleFrame m p (s.startClaim m p n) s.raw else s

/-- A ring that claims in its first slot sends a claim out of each port of a closed ring, the out port first (R276). -/
theorem exec_claimSlot_closed {s : State} {m n : Nat} (hm : m < 16) (hc : s.claims m = true) (hs : (s.mring m).slotAt = none)
    (ht : s.reg Ix.henayTopology (m + 1) = 0) (hn : n = ((s.mring m).attempt + 1) % 4294967296) :
    exec (.claimSlot m) s = .next
      ((claimOn (claimOn s m n (s.reg Ix.henayOutPort (m + 1))) m n (s.reg Ix.henayInPort (m + 1))).setMring m { s.mring m with
        attempt := n, claimOut := true, slotAt := some s.rawTotal,
        claimRun := if (s.mring m).claimOut then 0 else (s.mring m).claimRun }) := by
  subst hn
  show execClaimSlot m s = _
  rw [execClaimSlot, if_neg (Nat.not_le.mpr hm)]
  simp only [hs, hc, ht, Bool.true_eq_false, or_self, if_false, if_true]
  rfl

theorem beField_append_of_le {bs : List Byte} (cs : List Byte) {i n : Nat} (h : i + n ≤ bs.length) :
    beField (bs ++ cs) i n = beField bs i n := by
  unfold beField slice
  rw [List.drop_append_of_le_length (by omega), List.take_append_of_le_length (by rw [List.length_drop]; omega)]

/-- A frame on the wire reads as the frame that was sent, in front of its padding and FCS. -/
theorem beField_wire_of_sentOn {s t : State} {p k i n : Nat} {w : List Byte} {ts : Raw} (h : s.sentOn t p w ts k)
    (hw : i + n ≤ w.length) : beField (tgetD t.fr.wire p {}).frame i n = beField w i n := by
  obtain ⟨hwire, -⟩ := h
  rw [hwire, List.append_assoc, beField_append_of_le _ hw]

theorem strayClaimant_claim_length : (strayClaimant.startClaim 0 1 1).length = 74 := by decide +kernel

/-- The vector of `strayClaimant`, which bytes 62 to 65 of an untagged claim carry (R274, R275). -/
theorem strayClaimant_vector : beField (strayClaimant.startClaim 0 1 1) 62 4 = 0x80070001 := by decide +kernel

/-- The vector on the wire of port 1: the clock class in it is 1, the number of claims delayed. -/
theorem strayClaimant_vector_sent :
    beField (tgetD (claimOn (claimOn strayClaimant 0 1 0) 0 1 1).fr.wire 1 {}).frame 62 4 = 0x80FE0001 := by decide +kernel

/-- Refutes O41: its clause of a slot bounds the ports and not the domain, and takes the claim at the in port from the state before the
claim at the out port. In `strayClaimant`, whose domain is a number no 1-byte object takes, the clock class of the domain is
HENAY_TX_DELAYED of the ring, which the claim at the out port counts up, and the two claims carry different vectors. -/
theorem not_ringMastership : ¬ Obligations.RingMastership := by
  rintro ⟨-, hslot, -⟩
  obtain ⟨t, hexec, -, -, hin⟩ := hslot strayClaimant 0 1 (by decide) strayClaimant_claims
    (fun r hr => nomatch strayClaimant_noSlot.symm.trans hr) rfl
  have hsent := hin 1 strayClaimant_inPort.symm (by decide) strayClaimant_inUp strayClaimant_closed
    (by rw [strayClaimant_outPort]; decide) (by rw [strayClaimant_outPort]; decide)
  rw [exec_claimSlot_closed (by decide) strayClaimant_claims strayClaimant_noSlot strayClaimant_closed rfl, strayClaimant_outPort,
    strayClaimant_inPort] at hexec
  have hvector := beField_wire_of_sentOn (i := 62) (n := 4) hsent (by rw [strayClaimant_claim_length]; decide)
  rw [← Host.Outcome.next.inj hexec, strayClaimant_vector] at hvector
  exact absurd (strayClaimant_vector_sent.symm.trans hvector) (by decide)

end Sys2Proof.Proofs
end

section
/-! Transfer channels: one channel after a change of its units, what memory accesses, events and write-backs leave of every channel's
units, and the halt of a channel (R316, R342, R350 to R352). -/

namespace Sys2Proof.Proofs
open Sys2Proof Sys2Proof.Machine Sys2Proof.Laws

section
/-! ### One channel -/

variable (s : State)

@[simp] theorem channel_count (i j n k : Nat) : (s.count i j n).channel k = s.channel k := rfl

@[simp] theorem channel_request (v : Nat) (r : Stamp) (k : Nat) : (s.request v r).channel k = s.channel k := by
  rw [State.channel, request_eq]; rfl

@[simp] theorem channel_event (code v i : Nat) (ps : List (Nat × Nat)) (k : Nat) : (s.event code v i ps).channel k = s.channel k := by
  rw [State.channel, event_eq]; rfl

@[simp] theorem channel_modUnit_same (c first : Nat) (f : HUnit → HUnit) : (s.modUnit c first f).channel c =
    { s.channel c with units := (s.channel c).units.map fun v => if v.first = first then f v else v } :=
  channel_setChannel_same ..

theorem channel_modUnit_ne {c j : Nat} (first : Nat) (f : HUnit → HUnit) (h : j ≠ c) : (s.modUnit c first f).channel j = s.channel j :=
  channel_setChannel_ne _ _ _ h

@[simp] theorem reg_modUnit (c first : Nat) (f : HUnit → HUnit) (ix sub : Nat) : (s.modUnit c first f).reg ix sub = s.reg ix sub := rfl

/-- The unit with a first index is one of its channel's, and has that index. -/
theorem mem_of_unit? {s : State} {c first : Nat} {u : HUnit} (h : s.unit? c first = some u) :
    u ∈ (s.channel c).units ∧ u.first = first :=
  ⟨List.mem_of_find?_eq_some h, by simpa using List.find?_some h⟩

end

section
/-! ### Elements of the host's and the channels' objects -/

/-- The key is one of an object of rings, channels and DMA engines, or of a memory object before MEM_UNCORRECTABLE. -/
def transferKey (key : Nat) : Prop := dictKey Ix.doorbellIgnored 0 ≤ key ∧ key < dictKey Ix.memUncorrectable 0

theorem transferKey_of_between {ix sub : Nat} (hlo : Ix.doorbellIgnored ≤ ix) (hhi : ix < Ix.memUncorrectable) (hs : sub < 65536) :
    transferKey (dictKey ix sub) := by
  unfold transferKey dictKey
  omega

theorem not_transferKey_of_le {ix : Nat} (sub : Nat) (h : Ix.memUncorrectable ≤ ix) : ¬ transferKey (dictKey ix sub) := by
  unfold transferKey dictKey
  omega

theorem not_transferKey_of_lt {ix : Nat} (h : ix < Ix.doorbellIgnored) : ¬ transferKey (dictKey ix 0) := by
  unfold transferKey dictKey
  omega

theorem not_mem_eventKeys_of_transferKey {key : Nat} (h : transferKey key) : key ∉ eventKeys := by
  intro he
  simp only [eventKeys, List.mem_cons, List.not_mem_nil, or_false] at he
  rcases he with e | e | e | e | e | e <;> exact not_transferKey_of_le 0 (by decide) (e ▸ h)

end

section
/-! ### What leaves the units -/

/-- `t` has every channel's units and halt, and the elements of the transfer objects, as `s` has them. -/
structure KeepsUnits (s t : State) : Prop where
  units : ∀ c, (t.channel c).units = (s.channel c).units
  halting : ∀ c, (t.channel c).halting = (s.channel c).halting
  regs : ∀ ix sub, transferKey (dictKey ix sub) → t.reg ix sub = s.reg ix sub

namespace KeepsUnits

variable {s t u : State}

theorem refl (s : State) : KeepsUnits s s := ⟨fun _ => rfl, fun _ => rfl, fun _ _ _ => rfl⟩

theorem trans (h : KeepsUnits s t) (h' : KeepsUnits t u) : KeepsUnits s u :=
  ⟨fun c => (h'.units c).trans (h.units c), fun c => (h'.halting c).trans (h.halting c),
    fun ix sub hk => (h'.regs ix sub hk).trans (h.regs ix sub hk)⟩

theorem ite {c : Prop} [Decidable c] (h : KeepsUnits s t) (h' : KeepsUnits s u) : KeepsUnits s (if c then t else u) := by
  split
  · exact h
  · exact h'

theorem setReg (h : KeepsUnits s t) {i j : Nat} (v : Nat) (hk : ¬ transferKey (dictKey i j)) : KeepsUnits s (t.setReg i j v) :=
  ⟨h.units, h.halting, fun ix sub hs => (reg_setReg_ne t i j v ix sub fun e => hk (e ▸ hs)).trans (h.regs ix sub hs)⟩

theorem event (h : KeepsUnits s t) (code v i : Nat) (ps : List (Nat × Nat)) : KeepsUnits s (t.event code v i ps) :=
  ⟨fun c => by rw [channel_event, h.units], fun c => by rw [channel_event, h.halting],
    fun ix sub hs => (reg_event t code v i ps ix sub (not_mem_eventKeys_of_transferKey hs)).trans (h.regs ix sub hs)⟩

theorem foldl {α : Type} {f : State → α → State} (hf : ∀ t a, KeepsUnits t (f t a)) (l : List α) (s : State) :
    KeepsUnits s (l.foldl f s) := by
  induction l generalizing s with
  | nil => exact refl s
  | cons a l ih => exact (hf s a).trans (ih (f s a))

/-- A channel that takes other values, its units and its halt apart. -/
theorem setChannel (s : State) (c : Nat) {x : Channel} (hu : x.units = (s.channel c).units) (hh : x.halting = (s.channel c).halting) :
    KeepsUnits s (s.setChannel c x) := by
  refine ⟨fun j => ?_, fun j => ?_, fun _ _ _ => rfl⟩ <;> by_cases hj : j = c
  · rw [hj, channel_setChannel_same, hu]
  · rw [channel_setChannel_ne _ _ _ hj]
  · rw [hj, channel_setChannel_same, hh]
  · rw [channel_setChannel_ne _ _ _ hj]

end KeepsUnits

variable (s : State)

theorem keepsUnits_noteBadRead (who a n : Nat) : KeepsUnits s (s.noteBadRead who a n) := by
  have hcount (t : State) (c : Nat) : KeepsUnits t (t.countUncorrectable c) :=
    ((KeepsUnits.refl t).setReg _ (not_transferKey_of_le _ (by decide))).trans ⟨fun _ => rfl, fun _ => rfl, fun _ _ _ => rfl⟩
  have hleave (t : State) : KeepsUnits t (t.leaveGuarantee 3) :=
    (((KeepsUnits.refl t).setReg _ (not_transferKey_of_lt (by decide))).setReg _ (not_transferKey_of_lt (by decide))).setReg _
      (not_transferKey_of_lt (by decide))
  unfold State.noteBadRead
  refine .ite (KeepsUnits.foldl (fun t w => ?_) _ s) (.refl s)
  exact .ite (.ite (.refl t) ((hleave t).event ..)) (.ite (KeepsUnits.foldl hcount _ t) (.refl t))

theorem keepsUnits_noteWord (a n w : Nat) : KeepsUnits s (State.noteWord a n s w) := by
  have hrmw {t : State} (h : KeepsUnits s t) (c : Nat) : KeepsUnits s (t.count Ix.memRmw c 1) :=
    h.setReg _ (not_transferKey_of_le _ (by decide))
  unfold State.noteWord
  exact .ite ⟨fun _ => rfl, fun _ => rfl, fun _ _ _ => rfl⟩ (.ite (hrmw (hrmw (.refl s) _) _) (hrmw (.refl s) _))

theorem keepsUnits_store (a : Nat) (bs : List Byte) : KeepsUnits s (s.store a bs) := by
  unfold State.store
  have hwords (t : State) (ws : List Nat) : KeepsUnits t (ws.foldl (State.noteWord (spaceAddr a) bs.length) t) :=
    KeepsUnits.foldl (fun u w => keepsUnits_noteWord u _ _ w) ws t
  refine .ite (KeepsUnits.trans ?_ (hwords _ _)) ⟨fun _ => rfl, fun _ => rfl, fun _ _ _ => rfl⟩
  exact ⟨fun _ => rfl, fun _ => rfl, fun _ _ _ => rfl⟩

theorem keepsUnits_storeFor (who a : Nat) (bs : List Byte) : KeepsUnits s (s.storeFor who a bs) :=
  .ite (keepsUnits_store s a bs) (keepsUnits_noteBadRead s who a _)

theorem keepsUnits_noteNoRing (c : Nat) (e : List Byte) : KeepsUnits s (s.noteNoRing c e) :=
  .ite (.refl s) (KeepsUnits.event (KeepsUnits.setChannel s c (x := { s.channel c with ringLogged := true }) rfl rfl) ..)

/-- A unit whose outcome could not be reported is counted, and asks for no request (R320, R351). -/
theorem keepsUnits_countUnit_unreported (c : Nat) (e : List Byte) : KeepsUnits s (s.countUnit c e false false) :=
  KeepsUnits.setChannel s c rfl rfl

/-- The unit at the head of channel `c` has left it and is counted (R316). -/
def leftUnit (s : State) (c : Nat) (u : HUnit) : State :=
  (s.setChannel c { s.channel c with
    units := (s.channel c).units.drop 1
    consumer := ((s.channel c).consumer + u.descs.length) % 4294967296 }).count Ix.chUnits (c + 1) 1

/-- What follows on a unit's leaving without a record changes the units no further (R316, R351). -/
theorem keepsUnits_retireUnit_unreported (c : Nat) (e : List Byte) (u : HUnit) :
    KeepsUnits (leftUnit s c u) (s.retireUnit c e u false) := by
  unfold State.retireUnit
  dsimp only
  rw [Bool.false_and]
  refine KeepsUnits.trans ?_ (keepsUnits_countUnit_unreported ..)
  split
  · exact keepsUnits_storeFor (leftUnit s c u) ..
  · exact (keepsUnits_storeFor (leftUnit s c u) ..).trans (keepsUnits_noteNoRing ..)

end

section
/-! ### The halt of a channel (R333, R352) -/

/-- A unit of a channel that halts: one that has not started completes as aborted (R352). -/
def stoppedUnit (v : HUnit) : HUnit := if v.stage = .started ∨ v.stage = .finished then v else v.finish 2 0

/-- A channel that begins to halt (R352). -/
def haltingChannel (x : Channel) (cause index : Nat) : Channel :=
  { x with halting := some (cause, index), units := x.units.map stoppedUnit, reading := false, again := false, more := false }

variable {s : State} {c : Nat}

theorem haltDone_of_units (h : (s.channel c).units ≠ []) : s.haltDone c = s := by
  unfold State.haltDone
  dsimp only
  split
  · next hnil => exact absurd hnil h
  · rfl

theorem haltDone_of_not_halting (h : (s.channel c).halting = none) : s.haltDone c = s := by
  unfold State.haltDone
  dsimp only
  split
  · next hsome _ => rw [h] at hsome; cases hsome
  · rfl

/-- What HALTED shows of a channel: its cause, its index, and nothing else of the transfer objects (R352). -/
structure Halted (s t : State) (c cause index : Nat) : Prop where
  causeShown : t.reg Ix.chHaltCause (c + 1) = cause
  indexShown : t.reg Ix.chHaltIndex (c + 1) = index
  units : (t.channel c).units = []
  halting : (t.channel c).halting = none
  reading : (t.channel c).reading = (s.channel c).reading
  regs : ∀ ix sub, transferKey (dictKey ix sub) → dictKey ix sub ≠ dictKey Ix.chHaltCause (c + 1) →
    dictKey ix sub ≠ dictKey Ix.chHaltIndex (c + 1) → t.reg ix sub = s.reg ix sub

theorem Halted.request {t : State} {cause index : Nat} (h : Halted s t c cause index) (v : Nat) (r : Stamp) :
    Halted s (t.request v r) c cause index := by
  obtain ⟨hcause, hindex, hunits, hhalting, hreading, hregs⟩ := h
  constructor <;> simpa only [request_reg, channel_request]

/-- The halt is shown and logged. -/
theorem halted_shown {x : Channel} {cause index : Nat} (hc : c < 4096) (ps : List (Nat × Nat)) (hu : x.units = [])
    (hh : x.halting = none) (hr : x.reading = (s.channel c).reading) :
    Halted s ((((s.setChannel c x).setReg Ix.chHaltCause (c + 1) cause).setReg Ix.chHaltIndex (c + 1) index).event Ix.chStatus 3
      State.hostIsland ps) c cause index := by
  have hne : dictKey Ix.chHaltCause (c + 1) ≠ dictKey Ix.chHaltIndex (c + 1) :=
    dictKey_ne_of_index_ne (by omega) (by omega) (by decide)
  have hlogged (ix sub : Nat) (hk : transferKey (dictKey ix sub)) :=
    reg_event (((s.setChannel c x).setReg Ix.chHaltCause (c + 1) cause).setReg Ix.chHaltIndex (c + 1) index) Ix.chStatus 3
      State.hostIsland ps ix sub (not_mem_eventKeys_of_transferKey hk)
  refine ⟨?_, ?_, by simp [hu], by simp [hh], by simp [hr], fun ix sub hk h1 h2 => ?_⟩
  · rw [hlogged _ _ (transferKey_of_between (by decide) (by decide) (by omega)), reg_setReg_ne _ _ _ _ _ _ hne, reg_setReg_same]
  · rw [hlogged _ _ (transferKey_of_between (by decide) (by decide) (by omega)), reg_setReg_same]
  · rw [hlogged _ _ hk, reg_setReg_ne _ _ _ _ _ _ h2, reg_setReg_ne _ _ _ _ _ _ h1, setChannel_reg]

/-- A halt ends where no unit is left (R352). -/
theorem haltDone_halted {cause index : Nat} (hc : c < 4096) (hh : (s.channel c).halting = some (cause, index))
    (hu : (s.channel c).units = []) : Halted s (s.haltDone c) c cause index := by
  unfold State.haltDone
  simp only [hh, hu]
  split
  · refine Halted.request (halted_shown hc _ ?_ ?_ ?_) _ _ <;> rfl
  · refine halted_shown hc _ ?_ ?_ ?_ <;> rfl

section
variable {cause : Nat} (index : Nat) (hh : (s.channel c).halting = none) (hr : s.reg Ix.chHaltCause (c + 1) = 0)
include hh hr

/-- A channel that runs begins to halt, and waits for its units (R352). -/
theorem haltChannel_of_units (hu : (s.channel c).units ≠ []) :
    s.haltChannel c cause index = s.setChannel c (haltingChannel (s.channel c) cause index) := by
  have hstopped : ((s.setChannel c (haltingChannel (s.channel c) cause index)).channel c).units ≠ [] := by
    simpa [haltingChannel] using hu
  rw [State.haltChannel, if_neg (by simp [hh, hr])]
  exact haltDone_of_units hstopped

/-- A channel that runs and has no unit halts at once (R352). -/
theorem haltChannel_idle (hc : c < 4096) (hu : (s.channel c).units = []) :
    Halted (s.setChannel c (haltingChannel (s.channel c) cause index)) (s.haltChannel c cause index) c cause index := by
  rw [State.haltChannel, if_neg (by simp [hh, hr])]
  exact haltDone_halted hc (by simp [haltingChannel]) (by simp [haltingChannel, hu])

end

theorem settleChannel_of_units (h : (s.channel c).units ≠ []) : s.settleChannel c = s := if_neg h

/-- A channel that has halted is settled but for an invalidation that waits, which changes no unit and no element (R333). -/
theorem settleChannel_of_halted {t : State} {cause index : Nat} (h : Halted s t c cause index) : KeepsUnits t (t.settleChannel c) := by
  rw [State.settleChannel, if_pos h.units]
  dsimp only
  rw [haltDone_of_not_halting h.halting]
  exact .ite (KeepsUnits.setChannel t c rfl rfl) (.refl t)

end

end Sys2Proof.Proofs
end

section
/-! The load of a channel entry (R331, R333): a counterexample to what it is said to leave of the doorbell. -/

namespace Sys2Proof.Proofs
open Sys2Proof Sys2Proof.Machine Sys2Proof.Laws

/-- The host is on, and memory holds a valid entry for channel 0, whose doorbell waits. The channel also notes an invalidation, which
no run leaves behind once the entry has gone. -/
def strayInvalidation : State :=
  let s : State := { State.reset with
    sy := { hold := none }
    ho := { busMaster := true, channels := [(0, { ringing := true, dropping := true })] }
    mm := { State.reset.mm with host := [(0, 1), (4, 1), (16, 16), (32, 64), (48, 1), (50, 1), (54, 1), (57, 1), (60, 1)] } }
  s.setReg Ix.strapValues 0 4

theorem strayInvalidation_readOk : strayInvalidation.readOk (strayInvalidation.reg Ix.chTableBase 0 + 128 * 0) 128 = true := by
  decide +kernel

/-- The entry of a channel whose doorbell waits is loaded while the cache has room (R332). -/
theorem exec_channelEntryLoad_of_room {s : State} {c : Nat} (hring : (s.channel c).ringing = true) (hentry : (s.channel c).entry = none)
    (hpow : s.hostPowered = true) (hroom : s.cachedChannels.length < 512) : exec (.channelEntryLoad c) s = .next (s.loadEntry c) := by
  show execChannelEntryLoad c s = _
  rw [execChannelEntryLoad, if_neg (by simp [hring, hentry, hpow]), if_pos hroom]

/-- The doorbell is kept for the reload that an invalidation makes due (R333). -/
theorem strayInvalidation_still_rings : ((strayInvalidation.loadEntry 0).channel 0).ringing = true := by decide +kernel

/-- Refutes O45: its clause of the load speaks of every channel without an entry, also of one that notes an invalidation. In
`strayInvalidation` the entry that is loaded is valid, and its doorbell, served, is kept for a reload and rings on. -/
theorem not_channelCache : ¬ Obligations.ChannelCache := by
  rintro ⟨hload, -⟩
  obtain ⟨hroom, -, -⟩ := hload strayInvalidation 0 _ (by decide) rfl rfl (by decide +kernel) strayInvalidation_readOk rfl
  obtain ⟨t, hexec, ⟨-, hsilent, -⟩, -⟩ := hroom (by decide)
  rw [exec_channelEntryLoad_of_room rfl rfl (by decide +kernel) (by decide)] at hexec
  rw [← Host.Outcome.next.inj hexec, strayInvalidation_still_rings] at hsilent
  exact absurd hsilent (by decide)

end Sys2Proof.Proofs
end

section
/-! The start of a move and the chunks of a unit: a plain copy's plan, the beginning of a chunk within its channel's limits, and the
completion of a chunk of a copy (R335 to R345, R415). -/

namespace Sys2Proof.Proofs
open Sys2Proof Sys2Proof.Machine Sys2Proof.Laws

section
/-! ### The start of a move (R336, R342, R343, R355) -/

/-- The instructions that start a move on channel `c`, each with its operation. -/
def moveInstrs (c : Nat) : List (Instr × Nat) :=
  [(.moveCopy c, 3), (.indexGather c, 4), (.indexScatter c, 5), (.planeSplit c, 6), (.planeMerge c, 7)]

theorem exec_move {c op : Nat} {i : Instr} (s : State) (h : (i, op) ∈ moveInstrs c) : exec i s = .next (s.startMove c op) := by
  simp only [moveInstrs, List.mem_cons, Prod.mk.injEq, List.not_mem_nil, or_false] at h
  rcases h with ⟨rfl, rfl⟩ | ⟨rfl, rfl⟩ | ⟨rfl, rfl⟩ | ⟨rfl, rfl⟩ | ⟨rfl, rfl⟩ <;> rfl

/-- Move `x`, the next accepted one of channel `c`, is of operation `op` and may start; its hand-over leaves `u` and the entry `e`. -/
structure MoveStarts (s u : State) (c op : Nat) (e : List Byte) (x : HUnit) : Prop where
  cached : ∃ d, s.chanEntry c = some d
  accepted : (s.channel c).units.find? (fun u => u.stage == .accepted) = some x
  kind : x.kind = 2
  operation : dOp x.last.2 = op
  mayStart : s.mayStart c = true
  inTurn : s.inTurn x = true
  barrier : bit (dClass x.last.2) 0 = false ∨ s.earlierDone c x.first = true
  handedOver : u = s.handOver c x.first
  entry : u.chanEntry c = some e

section
variable {s u : State} {c op : Nat} {e : List Byte} {x : HUnit}

/-- A move that starts, with the chunks planned for it. -/
def startedMove (v : HUnit) (chunks : List Xfer) : HUnit :=
  { v with stage := .started, todo := chunks, meets := State.chunksMeet chunks }

/-- A move that starts has its chunks to begin, or ends in error where its plan does. -/
theorem MoveStarts.startMove_planned (h : MoveStarts s u c op e x) :
    (∀ chunks, u.planMove e x.last.2 = .ok chunks →
      s.startMove c op = (u.setChannel c { u.channel c with used := s.rawTotal }).modUnit c x.first (startedMove · chunks)) ∧
    (∀ cause, u.planMove e x.last.2 = .error cause → s.startMove c op = u.finishUnit c x.first 3 cause) := by
  obtain ⟨⟨d, hd⟩, hx, hkind, hop, hmay, hturn, hbarrier, hu, he⟩ := h
  simp only [State.startMove, hd, hx]
  rw [if_neg (by rcases hbarrier with hb | hb <;> simp [hkind, hop, hmay, hturn, hb]), ← hu]
  simp only [he]
  exact ⟨fun chunks hplan => by rw [hplan]; rfl, fun cause hplan => by rw [hplan]⟩

end

theorem startMove_of_other_operation {s : State} {c op : Nat} {x : HUnit}
    (hx : (s.channel c).units.find? (fun u => u.stage == .accepted) = some x) (hop : dOp x.last.2 ≠ op) : s.startMove c op = s := by
  simp only [State.startMove, hx]
  split
  · next heq =>
    cases heq
    exact if_pos (.inr (.inl hop))
  · rfl

/-- Without an armed shadow the hand-over changes nothing (R355). -/
theorem handOver_of_unarmed {s : State} {c : Nat} (first : Nat) (h : s.reg Ix.chShadowArm (c + 1) = 0) : s.handOver c first = s := by
  unfold State.handOver
  split
  · exact if_neg (by simp [State.regB, h])
  · rfl

end

section
/-! ### The plan of a plain copy (R335, R337, R340, R341) -/

variable {s : State} {d : List Byte}

/-- A copy without lists, whose ranges exist, is cut upwards unless it moves its data up onto itself. -/
theorem planCopy_plain (hn : dLen d ≠ 0) (h8 : bit (dCtl d) 8 = false) (h9 : bit (dCtl d) 9 = false)
    (hsrc : s.memExists (dAddr d) (dLen d) = true) (hdst : s.memExists (dLaunch d) (dLen d) = true)
    (hmeet : rangesMeet (dAddr d) (dLen d) (dLaunch d) (dLen d) = false ∨ spaceAddr (dLaunch d) ≤ spaceAddr (dAddr d)) :
    s.planCopy d = .ok (State.elementChunks (dAddr d) (dLaunch d) (dLen d)) := by
  have hruns : State.pairRuns 2049 [(dAddr d, dLen d)] [(dLaunch d, dLen d)] (dLen d) = [(dAddr d, dLaunch d, dLen d)] := by
    simp [State.pairRuns, hn]
  have hup : (rangesMeet (dAddr d) (dLen d) (dLaunch d) (dLen d) && decide (spaceAddr (dAddr d) < spaceAddr (dLaunch d))) = false := by
    rcases hmeet with h | h
    · rw [h, Bool.false_and]
    · rw [decide_eq_false (Nat.not_lt.mpr h), Bool.and_false]
  simp only [State.planCopy, State.sgRead, h8, h9, if_neg hn, hup, State.elementsExist]
  simp [hruns, hsrc, hdst]

end

section
/-! ### The beginning of a chunk (R342, R345) -/

variable {s : State} {c : Nat} {e : List Byte} {u : HUnit}

theorem exec_chunkBegin_within (he : (s.channel c).entry = some e)
    (hu : (s.channel c).units.find? (fun u => u.stage == .started && !u.todo.isEmpty) = some u) (hpow : s.hostPowered = true)
    (hrings : s.ringsAhead = false) (hpace : s.paceAllows c e = true) (hfly : s.chanChunks c < entInflight e)
    (hstage : s.stageUsed < 2048) : exec (.chunkBegin c) s = .next (s.beginChunk c e u) := by
  show execChunkBegin c s = _
  simp only [execChunkBegin, he, hu]
  exact if_pos ⟨hpow, hrings, hpace, hfly, hstage⟩

theorem exec_chunkBegin_beyond (he : (s.channel c).entry = some e)
    (h : s.ringsAhead = true ∨ s.paceAllows c e = false ∨ entInflight e ≤ s.chanChunks c ∨ 2048 ≤ s.stageUsed) :
    exec (.chunkBegin c) s = .next s := by
  show execChunkBegin c s = _
  simp only [execChunkBegin, he]
  split
  · next heq _ =>
    cases heq
    refine if_neg fun ⟨_, hrings, hpace, hfly, hstage⟩ => ?_
    rcases h with h | h | h | h
    · rw [h] at hrings; cases hrings
    · rw [h] at hpace; cases hpace
    · omega
    · omega
  · rfl

/-- A chunk's bytes are charged to the pacing level, which is first brought up to now; a channel of the whole bus has none (R345). -/
theorem channel_chargePace_same (he : (s.channel c).entry = some e) (n : Nat) : (s.chargePace c e n).channel c =
    if entShare e = 1024 then s.channel c
    else { s.channel c with level := s.paceLevel c e - (n : Int) * paceUnit, levelAt := s.rawTotal } := by
  unfold State.chargePace State.settlePace
  split
  · rfl
  · simp [he]

theorem channel_chargePace_ne {j : Nat} (n : Nat) (h : j ≠ c) : (s.chargePace c e n).channel j = s.channel j := by
  unfold State.chargePace State.settlePace
  split
  · rfl
  · rw [channel_setChannel_ne _ _ _ h]
    split
    · exact channel_setChannel_ne _ _ _ h
    · rfl

theorem chargePace_frame (n : Nat) : ∃ channels, s.chargePace c e n = { s with ho := { s.ho with channels := channels } } := by
  unfold State.chargePace State.settlePace
  split
  · exact ⟨_, rfl⟩
  · dsimp only
    split <;> exact ⟨_, rfl⟩

/-- The next chunk of a unit goes from those to begin to those in flight. -/
theorem beginChunk_of_todo {x : Xfer} {rest : List Xfer} (h : u.todo = x :: rest) : s.beginChunk c e u =
    (s.chargePace c e (State.busBytes e u x)).modUnit c u.first fun v => { v with todo := rest, flying := v.flying ++ [x] } := by
  simp only [State.beginChunk, h]

end

section
/-! ### Memory accesses of a chunk -/

theorem memChannel_lt (s : State) (a : Nat) : s.memChannel a < 8 := by
  unfold State.memChannel
  split <;> omega

/-- `r` is `s` with codewords counted as corrected (R415). -/
structure OnlyCorrected (s r : State) : Prop where
  frame : r = { s with dict := r.dict }
  regs : ∀ ix sub, ix ≠ Ix.memCorrected → sub < 65536 → r.reg ix sub = s.reg ix sub

section
variable {s r : State} {corrected : List (Nat × Nat)}

theorem noteCorrected_single {k : Nat} (s : State) (m : Nat) (hk : k < 8) : s.noteCorrected [(k, m)] = s.count Ix.memCorrected (k + 1) m :=
  if_pos hk

theorem noteCorrected_onlyCorrected (h : corrected = [] ∨ ∃ k m, k < 8 ∧ corrected = [(k, m)]) :
    OnlyCorrected s (s.noteCorrected corrected) := by
  rcases h with rfl | ⟨k, m, hk, rfl⟩
  · exact ⟨rfl, fun _ _ _ _ => rfl⟩
  · rw [noteCorrected_single s m hk]
    exact ⟨rfl, fun ix sub hi hs => reg_setReg_of_index_ne s _ hi hs (by omega)⟩

section
variable (h : corrected = [] ∨ ∃ k m, k < 8 ∧ corrected = [(k, m)]) {k m : Nat} (hk : corrected = [(k, m)])
include h hk

theorem corrected_lt : k < 8 := by
  rcases h with hnil | ⟨k', m', hk', heq⟩
  · rw [hk] at hnil; cases hnil
  · obtain ⟨rfl, -⟩ : k = k' ∧ m = m' := by simpa using hk.symm.trans heq
    exact hk'

theorem reg_noteCorrected : (s.noteCorrected corrected).reg Ix.memCorrected (k + 1) =
    (s.reg Ix.memCorrected (k + 1) + m) % 18446744073709551616 := by
  rw [hk, noteCorrected_single s m (corrected_lt h hk), reg_count_same, wrapAdd_64]

end

namespace OnlyCorrected

theorem channel (h : OnlyCorrected s r) (k : Nat) : r.channel k = s.channel k := by rw [h.frame]; rfl

theorem load (h : OnlyCorrected s r) (a n : Nat) : r.load a n = s.load a n := by rw [h.frame]; rfl

theorem memChannel (h : OnlyCorrected s r) (a : Nat) : r.memChannel a = s.memChannel a := by rw [h.frame]; rfl

theorem memChState (h : OnlyCorrected s r) {k : Nat} (hk : k ≤ 8) : r.reg Ix.memChState (k + 1) = s.reg Ix.memChState (k + 1) :=
  h.regs _ _ (by decide) (by omega)

theorem hostOn (h : OnlyCorrected s r) : r.hostOn = s.hostOn := by
  rw [State.hostOn, State.hostOn, h.regs _ _ (by decide) (by decide), h.frame]

theorem memExists (h : OnlyCorrected s r) (a n : Nat) : r.memExists a n = s.memExists a n := by
  rw [State.memExists, State.memExists, h.regs _ _ (by decide) (by decide), h.frame]; rfl

theorem wordBad (h : OnlyCorrected s r) (w : Nat) : r.wordBad w = s.wordBad w := by
  have hm : r.mm = s.mm := by rw [h.frame]
  have hlt := memChannel_lt s (64 * w)
  simp only [State.wordBad, State.memUnserved, State.poisoned, h.memChannel, hm, h.memChState (Nat.le_of_lt hlt),
    h.memChState (Nat.succ_le_of_lt hlt)]

theorem wordLost (h : OnlyCorrected s r) (w : Nat) : r.wordLost w = s.wordLost w := by
  have hm : r.mm = s.mm := by rw [h.frame]
  have hlt := memChannel_lt s (64 * w)
  simp only [State.wordLost, State.memFailed, h.memChannel, hm, h.memChState (Nat.le_of_lt hlt), h.memChState (Nat.succ_le_of_lt hlt)]

theorem readOk (h : OnlyCorrected s r) (a n : Nat) : r.readOk a n = s.readOk a n := by
  simp only [State.readOk, h.memExists, h.wordBad, h.hostOn]

theorem writeOk (h : OnlyCorrected s r) (a n : Nat) : r.writeOk a n = s.writeOk a n := by
  simp only [State.writeOk, h.memExists, h.wordBad, h.wordLost, h.hostOn]

end OnlyCorrected
end

theorem length_load (s : State) (a n : Nat) : (s.load a n).length = n := by
  unfold State.load
  split <;> exact memBytes_length ..

/-- What is stored reads back, in either space. -/
theorem load_store (s : State) (a : Nat) (bs : List Byte) : (s.store a bs).load a bs.length = bs := by
  rw [State.load, store_host, store_lpddr]
  split <;> exact memBytes_memStore ..

theorem noteWord_ho (a n : Nat) (s : State) (w : Nat) : (State.noteWord a n s w).ho = s.ho := by
  unfold State.noteWord
  dsimp only
  split
  · rfl
  · split <;> rfl

/-- A store leaves the host island and its channels. -/
theorem store_ho (s : State) (a : Nat) (bs : List Byte) : (s.store a bs).ho = s.ho := by
  have hwords (n : Nat) (ws : List Nat) (t : State) : (ws.foldl (State.noteWord (spaceAddr a) n) t).ho = t.ho := by
    induction ws generalizing t with
    | nil => rfl
    | cons w ws ih => exact (ih _).trans (noteWord_ho ..)
  unfold State.store
  split
  · exact hwords ..
  · rfl

end

section
/-! ### The completion of a chunk of a copy (R335, R341, R342) -/

theorem exec_chunkDone_flying {s : State} {c first : Nat} {e : List Byte} {u : HUnit} {x : Xfer} {rest : List Xfer}
    (corrected : List (Nat × Nat)) (he : (s.channel c).entry = some e) (hu : s.unit? c first = some u) (hs : u.stage = .started)
    (hf : u.flying = x :: rest) : exec (.chunkDone c first corrected) s = .next ((s.noteCorrected corrected).endChunk c e u x) := by
  show execChunkDone c first corrected s = _
  simp only [execChunkDone, he, hu, hs, hf]

/-- A unit whose oldest chunk in flight, of `n` bytes, has completed. -/
def chunkEnded (v : HUnit) (n : Nat) : HUnit := { v with flying := v.flying.drop 1, done := v.done + n, retries := 0 }

/-- `n` bytes are moved from `src` to `dst`, and counted for channel `c` and its unit. -/
def copied (s : State) (c first src dst n : Nat) : State :=
  ((s.store dst (s.load src n)).count Ix.chBytes (c + 1) n).modUnit c first (chunkEnded · n)

variable {s : State} {c first src dst n : Nat} {e : List Byte} {u : HUnit}

theorem load_copied : (copied s c first src dst n).load dst n = s.load src n := by
  show (s.store dst (s.load src n)).load dst n = s.load src n
  have h := load_store s dst (s.load src n)
  rwa [length_load] at h

theorem copied_chBytes (hc : c < 4096) :
    (copied s c first src dst n).reg Ix.chBytes (c + 1) = (s.reg Ix.chBytes (c + 1) + n) % 18446744073709551616 := by
  rw [copied, reg_modUnit, reg_count_same, wrapAdd_64,
    (keepsUnits_store s ..).regs _ _ (transferKey_of_between (by decide) (by decide) (by omega))]

theorem copied_memCorrected {k : Nat} (hc : c < 4096) (hk : k < 8) :
    (copied s c first src dst n).reg Ix.memCorrected (k + 1) = s.reg Ix.memCorrected (k + 1) := by
  rw [copied, reg_modUnit, reg_count_ne _ _ _ _ _ _ (dictKey_ne_of_index_ne (by omega) (by omega) (by decide)),
    (keepsUnits_store s ..).regs _ _ (transferKey_of_between (by decide) (by decide) (by omega))]

theorem channel_store (s : State) (a : Nat) (bs : List Byte) (k : Nat) : (s.store a bs).channel k = s.channel k := by
  rw [State.channel, store_ho]; rfl

theorem copied_units : ((copied s c first src dst n).channel c).units =
    (s.channel c).units.map fun v => if v.first = first then chunkEnded v n else v := by
  rw [copied, channel_modUnit_same, channel_count, channel_store]

theorem copied_channel_ne {j : Nat} (h : j ≠ c) : (copied s c first src dst n).channel j = s.channel j := by
  rw [copied, channel_modUnit_ne _ _ _ h, channel_count, channel_store]

/-- A chunk of a copy whose ranges serve completes: its unit goes on, or ends with the last one. -/
theorem endChunk_copy (hkind : u.kind = 2) (hcopy : u.copy = none) (hr : s.readOk src n = true) (hw : s.writeOk dst n = true) :
    s.endChunk c e u (.copy src dst n) =
      if (u.todo.isEmpty && u.flying.length == 1) = true then
        (copied s c u.first src dst n).finishUnit c u.first (if u.aborted then 2 else 1) 0
      else copied s c u.first src dst n := by
  have hgood : s.xferBad e u (.copy src dst n) = none := by simp [State.xferBad, State.xferReads, State.xferWrites, hr, hw]
  have hmoved : s.moveData e u (.copy src dst n) = s.store dst (s.load src n) := by
    simp [State.moveData, State.xferReads]
  have hbytes : State.xferBytes e u (.copy src dst n) = n := by simp [State.xferBytes, State.xferWrites]
  simp only [State.endChunk, hcopy, hgood, hmoved, hbytes, State.afterLast, if_pos hkind, Bool.false_eq_true, if_false]
  rfl

/-- A unit that ends with the chunk just completed has nothing more in flight. -/
theorem finish_chunkEnded (v : HUnit) (outcome cause : Nat) :
    (chunkEnded v n).finish outcome cause = ({ v with done := v.done + n, retries := 0 } : HUnit).finish outcome cause := rfl

theorem copied_finishUnit_units (outcome cause : Nat) :
    (((copied s c first src dst n).finishUnit c first outcome cause).channel c).units = (s.channel c).units.map fun v =>
      if v.first = first then ({ v with done := v.done + n, retries := 0 } : HUnit).finish outcome cause else v := by
  rw [State.finishUnit, channel_modUnit_same, copied_units, List.map_map]
  refine List.map_congr_left fun v _ => ?_
  by_cases hv : v.first = first
  · rw [Function.comp_apply, if_pos hv, if_pos hv, if_pos (show (chunkEnded v n).first = first from hv), finish_chunkEnded]
  · rw [Function.comp_apply, if_neg hv, if_neg hv, if_neg hv]

/-- The oldest chunk of a copy, whose ranges serve, completes after its corrections are noted. -/
theorem exec_chunkDone_copy {rest : List Xfer} {corrected : List (Nat × Nat)} (he : (s.channel c).entry = some e)
    (hu : s.unit? c first = some u) (hs : u.stage = .started) (hkind : u.kind = 2) (hcopy : u.copy = none)
    (hf : u.flying = .copy src dst n :: rest) (hr : s.readOk src n = true) (hw : s.writeOk dst n = true)
    (honly : OnlyCorrected s (s.noteCorrected corrected)) :
    exec (.chunkDone c first corrected) s = .next
      (if u.todo = [] ∧ rest = [] then
        (copied (s.noteCorrected corrected) c first src dst n).finishUnit c first (if u.aborted then 2 else 1) 0
      else copied (s.noteCorrected corrected) c first src dst n) := by
  rw [exec_chunkDone_flying corrected he hu hs hf,
    endChunk_copy hkind hcopy ((honly.readOk src n).trans hr) ((honly.writeOk dst n).trans hw), (mem_of_unit? hu).2, hf]
  simp

end

/-- Settles O46: a move by what its plan answers, a chunk by the limits at its beginning, and a copy's chunk by whether it is the unit's
last. -/
theorem movesAndChunks : Obligations.MovesAndChunks := by
  refine ⟨fun s u c op e x i hi hcached hx hkind hop hmay hturn hbarrier hu he => ⟨fun chunks hplan => ?ok, fun cause hplan => ?error,
      fun harm => hu.trans (handOver_of_unarmed _ harm)⟩,
    fun s e d hop hn h8 h9 hsrc hdst hmeet => (if_pos hop).trans (planCopy_plain hn h8 h9 hsrc hdst hmeet),
    fun s c op x i hi hx hop => (exec_move s hi).trans (congrArg _ (startMove_of_other_operation hx hop)),
    fun s c e u x rest he hu htodo hpow hrings hpace hfly hstage => ?begins,
    fun s c e he h => exec_chunkBegin_beyond he h,
    fun s c first src dst n e u rest corrected hc he hu hs hkind hcopy hf hr hw hcorr => ?completes⟩
  case ok =>
    have hstart : MoveStarts s u c op e x := ⟨hcached, hx, hkind, hop, hmay, hturn, hbarrier, hu, he⟩
    refine ⟨_, (exec_move s hi).trans (congrArg _ (hstart.startMove_planned.1 chunks hplan)), ?_, fun j hj => ?_, rfl⟩
    · rw [channel_modUnit_same, channel_setChannel_same]; rfl
    · rw [channel_modUnit_ne _ _ _ hj, channel_setChannel_ne _ _ _ hj]
  case error =>
    have hstart : MoveStarts s u c op e x := ⟨hcached, hx, hkind, hop, hmay, hturn, hbarrier, hu, he⟩
    exact ⟨_, (exec_move s hi).trans (congrArg _ (hstart.startMove_planned.2 cause hplan)), channel_modUnit_same .., rfl⟩
  case begins =>
    have hbegin := (exec_chunkBegin_within he hu hpow hrings hpace hfly hstage).trans (congrArg _ (beginChunk_of_todo htodo))
    have hcharged := channel_chargePace_same he (State.busBytes e u x)
    obtain ⟨channels, hframe⟩ := chargePace_frame (s := s) (c := c) (e := e) (State.busBytes e u x)
    refine ⟨_, hbegin, ?_, fun hshare => ?_, fun hshare => ?_, fun j hj => ?_, ?_⟩
    · rw [channel_modUnit_same, hcharged]
      split <;> rfl
    · rw [channel_modUnit_same, hcharged, if_pos hshare]
    · rw [channel_modUnit_same, hcharged, if_neg hshare]
      exact ⟨rfl, rfl⟩
    · rw [channel_modUnit_ne _ _ _ hj, channel_chargePace_ne _ hj]
    · rw [hframe]; rfl
  case completes =>
    have honly : OnlyCorrected s (s.noteCorrected corrected) := noteCorrected_onlyCorrected hcorr
    have hexec := exec_chunkDone_copy he hu hs hkind hcopy hf hr hw honly
    have hload : (copied (s.noteCorrected corrected) c first src dst n).load dst n = s.load src n := load_copied.trans (honly.load src n)
    have hbytes : (copied (s.noteCorrected corrected) c first src dst n).reg Ix.chBytes (c + 1) =
        (s.reg Ix.chBytes (c + 1) + n) % 18446744073709551616 := by
      rw [copied_chBytes hc, honly.regs _ _ (by decide) (by omega)]
    have hcounted (k m : Nat) (hk : corrected = [(k, m)]) : (copied (s.noteCorrected corrected) c first src dst n).reg Ix.memCorrected
        (k + 1) = (s.reg Ix.memCorrected (k + 1) + m) % 18446744073709551616 :=
      (copied_memCorrected hc (corrected_lt hcorr hk)).trans (reg_noteCorrected hcorr hk)
    by_cases hlast : u.todo = [] ∧ rest = []
    · rw [if_pos hlast] at hexec
      refine ⟨_, hexec, hload, hbytes, hcounted, fun h => (h.elim (· hlast.1) (· hlast.2)).elim, fun _ _ => ?_, fun j hj => ?_⟩
      · rw [copied_finishUnit_units, honly.channel]
      · rw [State.finishUnit, channel_modUnit_ne _ _ _ hj, copied_channel_ne hj, honly.channel]
    · rw [if_neg hlast] at hexec
      refine ⟨_, hexec, hload, hbytes, hcounted, fun _ => ?_, fun h1 h2 => absurd ⟨h1, h2⟩ hlast, fun j hj => ?_⟩
      · rw [copied_units, honly.channel]; rfl
      · rw [copied_channel_ne hj, honly.channel]

end Sys2Proof.Proofs
end

section
/-! Failed accesses, restarts, aborts, shadows and the mode of the DMA engines (R344, R349 to R356). -/

namespace Sys2Proof.Proofs
open Sys2Proof Sys2Proof.Machine Sys2Proof.Laws

section
/-! ### Repetitions (R350) -/

/-- An access of a channel is repeated: counted for the channel, and kept as channel `x`. -/
def repeatedAs (s : State) (c : Nat) (x : Channel) : State := (s.setChannel c x).count Ix.chRetries (c + 1) 1

/-- Channel `c` with an access of the unit of first index `first` repeated. -/
def unitRepeats (s : State) (c first : Nat) : Channel :=
  { s.channel c with units := (s.channel c).units.map fun v => if v.first = first then { v with retries := v.retries + 1 } else v }

variable {s : State} {c : Nat}

theorem repeatedAs_channel (x : Channel) : (repeatedAs s c x).channel c = x := channel_setChannel_same ..

/-- A repetition counts once, and changes no other element and no other channel. -/
theorem repeatedAs_frame (x : Channel) :
    (repeatedAs s c x).reg Ix.chRetries (c + 1) = (s.reg Ix.chRetries (c + 1) + 1) % 18446744073709551616 ∧
      s.regsBut (repeatedAs s c x) [dictKey Ix.chRetries (c + 1)] ∧ ∀ j, j ≠ c → (repeatedAs s c x).channel j = s.channel j :=
  ⟨by rw [repeatedAs, reg_count_same, wrapAdd_64, setChannel_reg],
    regsBut_setReg _ (regsBut_of_reg_eq (s := s) (t := s.setChannel c x) _ fun _ _ => rfl) (.head _),
    fun _ hj => channel_setChannel_ne _ _ _ hj⟩

end

section
/-! ### Failures for good (R351, R352) -/

variable {s : State} {c : Nat}

/-- A unit errors with cause 5, and its channel begins to halt. -/
theorem finishUnit_haltChannel (first index : Nat) (hh : (s.channel c).halting = none) (hr : s.reg Ix.chHaltCause (c + 1) = 0)
    (hu : (s.channel c).units ≠ []) :
    (((s.finishUnit c first 3 5).haltChannel c 1 index).channel c).halting = some (1, index) ∧
      (((s.finishUnit c first 3 5).haltChannel c 1 index).channel c).units =
        ((s.channel c).units.map fun v => if v.first = first then v.finish 3 5 else v).map stoppedUnit := by
  have herr : (s.finishUnit c first 3 5).channel c = _ := channel_modUnit_same ..
  rw [haltChannel_of_units (s := s.finishUnit c first 3 5) index (by rwa [herr]) hr (by simpa [herr] using hu), channel_setChannel_same,
    herr]
  exact ⟨rfl, rfl⟩

/-- The failed data of a unit without a frame end the unit alone (R351). -/
theorem failData_of_frameless {u : HUnit} (hcopy : u.copy = none) (hpkt : u.pkt = none) :
    s.failData c u = (s.finishUnit c u.first 3 5).haltChannel c 1 u.last.1 := by
  simp only [State.failData, hcopy, State.dropFetched, hpkt]

/-- A write-back that fails for good takes the unit out of its channel, which halts with cause 4 (R351, R352). -/
theorem loseWriteBack_spec {u : HUnit} {rest : List HUnit} (e : List Byte) (hc : c < 4096) (hu : (s.channel c).units = u :: rest)
    (hh : (s.channel c).halting = none) (hr : s.reg Ix.chHaltCause (c + 1) = 0) :
    ((s.loseWriteBack c e u).channel c).units = rest.map stoppedUnit ∧
      (s.loseWriteBack c e u).reg Ix.chUnits (c + 1) = (s.reg Ix.chUnits (c + 1) + 1) % 18446744073709551616 ∧
      (rest ≠ [] → ((s.loseWriteBack c e u).channel c).halting = some (4, u.last.1)) ∧
      (rest = [] → (s.loseWriteBack c e u).reg Ix.chHaltCause (c + 1) = 4 ∧
        (s.loseWriteBack c e u).reg Ix.chHaltIndex (c + 1) = u.last.1) := by
  have hkey {ix : Nat} (hlo : Ix.doorbellIgnored ≤ ix) (hhi : ix < Ix.memUncorrectable) : transferKey (dictKey ix (c + 1)) :=
    transferKey_of_between hlo hhi (by omega)
  have hne {i i' : Nat} (h : i ≠ i') : dictKey i (c + 1) ≠ dictKey i' (c + 1) := dictKey_ne_of_index_ne (by omega) (by omega) h
  have hlogged := (KeepsUnits.refl s).event Ix.chStatus 3 State.hostIsland [(2, c), (4, u.last.1), (1, u.outcome)]
  rw [State.loseWriteBack]
  generalize s.event _ _ _ _ = l at hlogged ⊢
  have hretired := keepsUnits_retireUnit_unreported l c e u
  have hleft : (leftUnit l c u).channel c = _ := channel_setChannel_same ..
  generalize l.retireUnit c e u false = r at hretired ⊢
  have hrest : (r.channel c).units = rest := by rw [hretired.units, hleft, hlogged.units, hu]; rfl
  have hrunning : (r.channel c).halting = none := by rw [hretired.halting, hleft]; exact (hlogged.halting c).trans hh
  have hcause : r.reg Ix.chHaltCause (c + 1) = 0 := by
    rw [hretired.regs _ _ (hkey (by decide) (by decide)), leftUnit, reg_count_ne _ _ _ _ _ _ (hne (by decide)), setChannel_reg,
      hlogged.regs _ _ (hkey (by decide) (by decide)), hr]
  have hcount : r.reg Ix.chUnits (c + 1) = (s.reg Ix.chUnits (c + 1) + 1) % 18446744073709551616 := by
    rw [hretired.regs _ _ (hkey (by decide) (by decide)), leftUnit, reg_count_same, wrapAdd_64, setChannel_reg,
      hlogged.regs _ _ (hkey (by decide) (by decide))]
  by_cases hnil : rest = []
  · have hhalt := haltChannel_idle (cause := 4) u.last.1 hrunning hcause hc (hrest.trans hnil)
    have hsettled := settleChannel_of_halted hhalt
    refine ⟨by rw [hsettled.units, hhalt.units, hnil]; rfl, ?_, fun h => absurd hnil h, fun _ => ⟨?_, ?_⟩⟩
    · rw [hsettled.regs _ _ (hkey (by decide) (by decide)),
        hhalt.regs _ _ (hkey (by decide) (by decide)) (hne (by decide)) (hne (by decide)), setChannel_reg, hcount]
    · rw [hsettled.regs _ _ (hkey (by decide) (by decide)), hhalt.causeShown]
    · rw [hsettled.regs _ _ (hkey (by decide) (by decide)), hhalt.indexShown]
  · have hunits : (r.channel c).units ≠ [] := by rwa [hrest]
    rw [haltChannel_of_units u.last.1 hrunning hcause hunits,
      settleChannel_of_units (by rw [channel_setChannel_same, haltingChannel]; simpa using hunits), channel_setChannel_same]
    exact ⟨by rw [haltingChannel, hrest], hcount, fun _ => rfl, fun h => absurd h hnil⟩

end

section
/-! ### BUS_ERROR (R349 to R351) -/

variable {s : State} {c : Nat} {e : List Byte} {u : HUnit}

theorem exec_busError_data {first : Nat} (he : (s.channel c).entry = some e) (hu : s.unit? c first = some u) (hs : u.stage = .started)
    (hf : u.flying ≠ []) : exec (.busError c (.data first)) s =
      .next (if u.retries < entRetries e then repeatedAs s c (unitRepeats s c u.first) else s.failData c u) := by
  show execBusError c (.data first) s = _
  simp only [execBusError, he, hu]
  rw [if_neg (by simp [hs, hf])]
  split <;> rfl

theorem exec_busError_fetch (he : (s.channel c).entry = some e) (h : (s.channel c).reading = true ∨ (s.channel c).more = true) :
    exec (.busError c .fetch) s = .next (if (s.channel c).retries < entRetries e then
      repeatedAs s c { s.channel c with retries := (s.channel c).retries + 1 } else s.haltChannel c 3 (s.channel c).accepted) := by
  show execBusError c .fetch s = _
  simp only [execBusError, he]
  rw [if_neg (by rcases h with h | h <;> simp [h])]
  split <;> rfl

theorem exec_busError_flush {rest : List HUnit} (he : (s.channel c).entry = some e) (hu : (s.channel c).units = u :: rest)
    (hs : u.stage = .finished) (ho : u.outcome = 1) (hp : bit (dCtl u.last.2) 4 = true ∨ isLpddr (entRingBase e) = true) :
    exec (.busError c .flush) s = .next (if u.retries < entRetries e then repeatedAs s c (unitRepeats s c u.first)
      else (s.finishUnit c u.first 3 5).haltChannel c 1 u.last.1) := by
  show execBusError c .flush s = _
  simp only [execBusError, he, hu]
  rw [if_neg (by rcases hp with hp | hp <;> simp [hs, ho, hp])]
  split <;> rfl

theorem exec_busError_writeBack {rest : List HUnit} (he : (s.channel c).entry = some e) (hu : (s.channel c).units = u :: rest)
    (hs : u.stage = .finished) (hp : s.hostPowered = true) :
    exec (.busError c .writeBack) s = .next (if u.retries < entRetries e then repeatedAs s c (unitRepeats s c u.first)
      else s.loseWriteBack c e u) := by
  show execBusError c .writeBack s = _
  simp only [execBusError, he, hu]
  rw [if_neg (by simp [hs, hp])]
  split <;> rfl

end

section
/-! ### Restarts and aborts (R352 to R354) -/

variable {s : State} {c : Nat}

/-- A command's answer leaves the element it wrote. -/
theorem reg_reply_setReg (i j v : Nat) (a : Answer) : ((s.setReg i j v).reply a).reg i j = v := reg_setReg_same ..

theorem regsBut_reply_setReg (s : State) (i j v : Nat) (a : Answer) : s.regsBut ((s.setReg i j v).reply a) [dictKey i j] :=
  regsBut_reply a (regsBut_setReg v (regsBut_of_reg_eq _ fun _ _ => rfl) (.head _))

/-- A restart clears the halt, and the index block is read, at once or with the entry (R352). -/
theorem exec_chRestart_halted (h0 : s.reg Ix.chHaltCause (c + 1) ≠ 0) (h5 : s.reg Ix.chHaltCause (c + 1) ≠ 5)
    (h : ((s.setReg Ix.chHaltCause (c + 1) 0).chanReady c).isSome = true ∨ (s.channel c).entry = none) :
    exec (.chRestart c 1) s = .next (((s.setReg Ix.chHaltCause (c + 1) 0).setChannel c
      (if (s.channel c).entry = none then { s.channel c with ringing := true } else { s.channel c with reading := true })).reply {}) := by
  have hready : (s.channel c).entry = none → (s.setReg Ix.chHaltCause (c + 1) 0).chanReady c = none := fun hnone => by
    simp [State.chanReady, State.chanEntry, hnone]
  show (s.writeChRestart c 1).out = _
  simp only [State.writeChRestart, commandWrite, Nat.one_ne_zero, if_false, if_true, h0, h5, or_self]
  by_cases hnone : (s.channel c).entry = none
  · simp [hready hnone, hnone, Wr.out]
  · rw [if_pos (h.resolve_right hnone), if_neg hnone]
    rfl

theorem exec_chRestart_idle {v : Nat} (h : v = 0 ∨ v = 1 ∧ (s.reg Ix.chHaltCause (c + 1) = 0 ∨ s.reg Ix.chHaltCause (c + 1) = 5)) :
    exec (.chRestart c v) s = .next (s.reply {}) := by
  show (s.writeChRestart c v).out = _
  rcases h with rfl | ⟨rfl, h⟩
  · rfl
  · exact congrArg Wr.out (if_pos h)

theorem exec_chRestart_refused {v : Nat} (h : 1 < v) : exec (.chRestart c v) s = .next (s.reply { abort := 0x0301 }) := by
  show (commandWrite s v _).out = _
  rw [commandWrite, if_neg (by omega), if_neg (by omega)]
  rfl

theorem exec_chShadowArm_refused {v : Nat} (h : 1 < v) : exec (.chShadowArm c v) s = .next (s.reply { abort := 0x0301 }) :=
  congrArg Wr.out (if_pos h)

theorem exec_chShadowArm {v : Nat} (h : v ≤ 1) : exec (.chShadowArm c v) s = .next ((s.setReg Ix.chShadowArm (c + 1) v).reply {}) :=
  congrArg Wr.out (if_neg (Nat.not_lt.mpr h))

/-- The channel, the descriptor index and the reserved bits that a write of CH_ABORT names (R353). -/
theorem abortTarget_fields (i : Nat) (hc : c < 4096) : (c + i * 4294967296) % 4096 = c ∧
    (c + i * 4294967296) / 4294967296 = i ∧ (c + i * 4294967296) / 4096 % 1048576 = 0 := by
  omega

variable {u : HUnit} {i : Nat}

/-- The deciding point of a unit is past once it has finished, or has begun to take a frame (R353). -/
theorem abortUnit_decided (h : u.stage = .finished ∨ u.stage = .started ∧ u.kind ≠ 2 ∧ u.kind ≠ 0) : s.abortUnit c u i = none := by
  rcases h with hs | ⟨hs, h2, h0⟩
  · simp [State.abortUnit, hs]
  · simp [State.abortUnit, hs, h2, h0]

/-- A unit that is to begin a frame or a move, or whose move has nothing in flight, ends at once (R354). -/
theorem abortUnit_idle (h : u.kind ≠ 1 ∧ (u.stage = .accepted ∨ u.stage = .waiting) ∨ u.kind = 2 ∧ u.stage = .started ∧ u.flying = []) :
    s.abortUnit c u i = some (s.finishUnit c u.first 2 0) := by
  rcases h with ⟨h1, hs | hs⟩ | ⟨h2, hs, hf⟩
  · simp [State.abortUnit, hs, h1]
  · simp [State.abortUnit, hs, h1]
  · simp [State.abortUnit, hs, h2, hf]

/-- What is in flight of a move ends, and nothing more of it begins (R354). -/
theorem abortUnit_flying (h2 : u.kind = 2) (hs : u.stage = .started) (hf : u.flying ≠ []) :
    s.abortUnit c u i = some (s.modUnit c u.first fun v => { v with aborted := true, todo := [] }) := by
  simp [State.abortUnit, hs, h2, hf]

/-- A receive descriptor, or one that comes after it and that no frame has taken, is given back (R353). -/
def abortedFrom (i : Nat) (v : HUnit) : HUnit :=
  if v.kind = 1 ∧ (v.stage = .accepted ∨ v.stage = .usable) ∧ (v.first + 4294967296 - i) % 4294967296 < 2147483648 then v.finish 2 0 else v

theorem abortUnit_receive (h1 : u.kind = 1) (hs : u.stage = .accepted ∨ u.stage = .usable) :
    s.abortUnit c u i = some (s.setChannel c { s.channel c with units := (s.channel c).units.map (abortedFrom i) }) := by
  have hlater : (fun v : HUnit => if (v.kind == 1 && (v.stage == .accepted || v.stage == .usable) &&
      decide ((v.first + 4294967296 - i) % 4294967296 < 2147483648)) = true then v.finish 2 0 else v) = abortedFrom i := by
    funext v
    simp only [abortedFrom, Bool.and_eq_true, Bool.or_eq_true, beq_iff_eq, decide_eq_true_eq, and_assoc]
  rcases hs with hs | hs <;> simp only [State.abortUnit, hs, h1, if_true, hlater]

end

section
variable {s t : State} {c i : Nat} {u : HUnit} (hc : c < 4096)
include hc

theorem exec_chAbort_nothing (hu : (s.channel c).units.find? (fun u => u.descs.any fun d => d.1 == i) = none) :
    exec (.chAbort (c + i * 4294967296)) s = .next ((s.setReg Ix.chAbortResult (c + 1)
      (if (i + 4294967296 - (s.channel c).accepted) % 4294967296 < 2147483648 then 3 else 2)).reply { abort := 0x0404 }) := by
  obtain ⟨hchan, hindex, hreserved⟩ := abortTarget_fields i hc
  show (s.writeChAbort _).out = _
  simp only [State.writeChAbort, hchan, hindex, hreserved, hu, ne_eq, not_true_eq_false, if_false]
  split <;> rfl

theorem exec_chAbort_late (hu : (s.channel c).units.find? (fun u => u.descs.any fun d => d.1 == i) = some u) (h : s.abortUnit c u i = none) :
    exec (.chAbort (c + i * 4294967296)) s = .next ((s.setReg Ix.chAbortResult (c + 1) 2).reply { abort := 0x0404 }) := by
  obtain ⟨hchan, hindex, hreserved⟩ := abortTarget_fields i hc
  show (s.writeChAbort _).out = _
  simp only [State.writeChAbort, hchan, hindex, hreserved, hu, h, ne_eq, not_true_eq_false, if_false]
  rfl

theorem exec_chAbort_done (hu : (s.channel c).units.find? (fun u => u.descs.any fun d => d.1 == i) = some u) (h : s.abortUnit c u i = some t) :
    exec (.chAbort (c + i * 4294967296)) s = .next ((t.setReg Ix.chAbortResult (c + 1) 1).reply {}) := by
  obtain ⟨hchan, hindex, hreserved⟩ := abortTarget_fields i hc
  show (s.writeChAbort _).out = _
  simp only [State.writeChAbort, hchan, hindex, hreserved, hu, h, ne_eq, not_true_eq_false, if_false]
  rfl

end

theorem exec_chAbort_refused {s : State} {v : Nat} (h : v / 4096 % 1048576 ≠ 0) : exec (.chAbort v) s = .next (s.reply { abort := 0x0301 }) :=
  congrArg Wr.out (if_pos h)

/-- The mode changes once no unit has transfers under way (R344). -/
theorem exec_dmaModeSwitch_due {s : State} {v : Nat} (hn : s.ho.dmaNext = some v)
    (h : ∀ e ∈ s.ho.channels, ∀ u ∈ e.2.units, u.transferring = false) :
    exec .dmaModeSwitch s = .next { s with ho := { s.ho with dmaOper := some v, dmaNext := none } } := by
  have hquiet : (s.ho.channels.any fun e => e.2.units.any HUnit.transferring) = false := by
    simp only [List.any_eq_false, Bool.not_eq_true]
    exact h
  show execDmaModeSwitch s = _
  simp only [execDmaModeSwitch, hn]
  exact if_neg (by rw [hquiet]; exact Bool.false_ne_true)

/-- Settles O47: an access that fails by whether its repetitions are used up, a command of the channels by what it finds. -/
theorem dmaErrorsAndControl : Obligations.DmaErrorsAndControl := by
  refine ⟨fun s c first e u he hu hs hf => ⟨fun hleft => ?dataAgain, fun hused hcopy hpkt hh hr => ?dataFails⟩,
    fun s c e hc he hwork => ⟨fun hleft => ?fetchAgain, fun hused hh hr => ?fetchFails⟩,
    fun s c e u rest he hu hs ho hp => ⟨fun hleft => ?flushAgain, fun hused hh hr => ?flushFails⟩,
    fun s c e u rest hc he hu hs hp => ⟨fun hleft => ?writeBackAgain, fun hused hh hr => ?writeBackFails⟩,
    fun s c h0 h5 h => ?restart, fun s c v h => exec_chRestart_idle h,
    fun s c v h => ⟨exec_chRestart_refused h, exec_chShadowArm_refused h⟩,
    fun s c i hc _ hnone => ?abortNothing,
    fun s c i u hc _ hu => ⟨fun h => ?abortLate, fun h => ?abortIdle, fun h2 hs hf => ?abortFlying, fun h1 hs => ?abortReceive⟩,
    fun s v h => exec_chAbort_refused h, fun s c v hv => ?shadow, fun s v hn h => exec_dmaModeSwitch_due hn h⟩
  case dataAgain =>
    rw [exec_busError_data he hu hs hf, if_pos hleft, (mem_of_unit? hu).2]
    exact ⟨_, rfl, repeatedAs_channel _, repeatedAs_frame _⟩
  case dataFails =>
    obtain ⟨hmem, rfl⟩ := mem_of_unit? hu
    rw [exec_busError_data he hu hs hf, if_neg (Nat.not_lt.mpr hused), failData_of_frameless hcopy hpkt]
    exact ⟨_, rfl, finishUnit_haltChannel _ _ hh hr (List.ne_nil_of_mem hmem)⟩
  case fetchAgain =>
    rw [exec_busError_fetch he hwork, if_pos hleft]
    exact ⟨_, rfl, repeatedAs_channel _, repeatedAs_frame _⟩
  case fetchFails =>
    rw [exec_busError_fetch he hwork, if_neg (Nat.not_lt.mpr hused)]
    by_cases hnil : (s.channel c).units = []
    · have hhalt := haltChannel_idle (cause := 3) (s.channel c).accepted hh hr hc hnil
      refine ⟨_, rfl, by rw [hhalt.units, hnil]; rfl, by rw [hhalt.reading, channel_setChannel_same]; rfl, fun h => absurd hnil h,
        fun _ => ⟨hhalt.causeShown, hhalt.indexShown⟩⟩
    · rw [haltChannel_of_units _ hh hr hnil]
      exact ⟨_, rfl, by rw [channel_setChannel_same]; rfl, by rw [channel_setChannel_same]; rfl,
        fun _ => by rw [channel_setChannel_same]; rfl, fun h => absurd h hnil⟩
  case flushAgain =>
    rw [exec_busError_flush he hu hs ho hp, if_pos hleft]
    exact ⟨_, rfl, repeatedAs_channel _, repeatedAs_frame _⟩
  case flushFails =>
    rw [exec_busError_flush he hu hs ho hp, if_neg (Nat.not_lt.mpr hused)]
    exact ⟨_, rfl, finishUnit_haltChannel _ _ hh hr (by simp [hu])⟩
  case writeBackAgain =>
    rw [exec_busError_writeBack he hu hs hp, if_pos hleft]
    exact ⟨_, rfl, repeatedAs_channel _, repeatedAs_frame _⟩
  case writeBackFails =>
    rw [exec_busError_writeBack he hu hs hp, if_neg (Nat.not_lt.mpr hused)]
    exact ⟨_, rfl, loseWriteBack_spec e hc hu hh hr⟩
  case restart =>
    exact ⟨_, exec_chRestart_halted h0 h5 h, by rw [reply_reg, setChannel_reg, reg_setReg_same], channel_setChannel_same ..,
      regsBut_setReg 0 (regsBut_of_reg_eq _ fun _ _ => rfl) (.head _), rfl⟩
  case abortNothing =>
    have hfind : (s.channel c).units.find? (fun u => u.descs.any fun d => d.1 == i) = none := by
      simp only [List.find?_eq_none, List.any_eq_true, beq_iff_eq, not_exists, not_and]
      exact hnone
    exact ⟨_, exec_chAbort_nothing hc hfind, rfl, reg_reply_setReg .., regsBut_reply_setReg _ _ _ _ _, (reply_ho ..).trans (setReg_ho ..)⟩
  case abortLate => exact ⟨_, exec_chAbort_late hc hu (abortUnit_decided h), rfl, reg_reply_setReg .., rfl⟩
  case abortIdle =>
    exact ⟨_, exec_chAbort_done hc hu (abortUnit_idle h), rfl, reg_reply_setReg .., channel_modUnit_same ..,
      fun j hj => channel_modUnit_ne _ _ _ hj⟩
  case abortFlying =>
    exact ⟨_, exec_chAbort_done hc hu (abortUnit_flying h2 hs hf), rfl, reg_reply_setReg .., channel_modUnit_same ..,
      fun j hj => channel_modUnit_ne _ _ _ hj⟩
  case abortReceive =>
    exact ⟨_, exec_chAbort_done hc hu (abortUnit_receive h1 hs), rfl, reg_reply_setReg ..,
      congrArg Channel.units (channel_setChannel_same ..), fun j hj => channel_setChannel_ne _ _ _ hj⟩
  case shadow =>
    exact ⟨_, exec_chShadowArm hv, reg_reply_setReg .., regsBut_reply_setReg _ _ _ _ _, rfl⟩

end Sys2Proof.Proofs
end
